-- ==== Sys2Proof/Word.lean ====
section
/-! DEFINITION. The word types of the BG-84: a 32-bit register word, a byte, and the 64-bit values built of two words. -/

namespace Sys2Proof

/-- A 32-bit word: every register and every memory word of the part (00 R428). -/
abbrev Word := BitVec 32

/-- A byte of memory. -/
abbrev Byte := BitVec 8

/-- A 64-bit time-base value or deadline. -/
abbrev Time := BitVec 64

end Sys2Proof
end

