-- ==== Sys2Proof/Syntax.lean ====
section
/-! DEFINITION. The commands of the BG-84: one constructor for each row of the table of operations and events, with
the operands the row's rule gives it. A unit is named by its die and its number (01 R24). -/

namespace Sys2Proof

/-- The monitored rails of 16 Table 16-1 (VIO18 and VIO33 share a bit of SYS_RSTCAUSE with VSER and VDDQ). -/
inductive Rail where
  | vcore (n : Fin 4) | vsram | vser | vddq | vio18 | vio33
  deriving DecidableEq, Repr

/-- The requesters that hold a time-base shadow (02 R49). -/
inductive Requester where
  | spire (d : Fin 4) (n : Fin 32) | boot | host
  deriving DecidableEq, Repr

/-- The units with a seed register (03 R75). -/
inductive SeedUnit where
  | plinth (n : Fin 8) | lantern (n : Fin 8)
  deriving DecidableEq, Repr

/-- The consumer that a command-queue register names (09 R212; 11 R264). -/
inductive Consumer where
  | dome (n : Fin 256) | tower (n : Fin 8) | plinth (n : Fin 8) | lantern (n : Fin 8) | mover (m : Fin 8)
  deriving DecidableEq, Repr

/-- A unit that completes commands (09 R215). -/
inductive UnitRef where
  | dome (d : Fin 4) (n : Fin 256) | tower (d : Fin 4) (n : Fin 8) | plinth (d : Fin 4) (n : Fin 8)
  | lantern (d : Fin 4) (n : Fin 8) | mover (m : Fin 8)
  deriving DecidableEq, Repr

/-- The link endpoints of 10 Table 10-1: `c d e` is endpoint e of die Cd, `h e` endpoint e of H towards C0-C3 and F,
`ext p` endpoint 8 + p of H (external port p), `f` endpoint 0 of F. -/
inductive Ep where
  | c (d : Fin 4) (e : Fin 3) | h (e : Fin 5) | ext (p : Fin 4) | f
  deriving DecidableEq, Repr

/-- A flit: sixteen body words, word 0 first, and the 64-bit trailer of 10 Table 10-3. -/
structure Flit where
  body : List Word
  trailer : BitVec 64
  deriving DecidableEq, Repr, Inhabited

/-- What a RESUME CTRL flit carries (10 R243): the peer's next expected SEQ, its free credits per channel, the sender's
chip on an external port, and whether the flit passed its CRC. -/
structure ResumeMsg where
  erx : Byte
  credits : List Nat
  chip : BitVec 3
  crcGood : Bool
  deriving DecidableEq, Repr

/-- The legs of a TSYNC exchange (10 R247, log entry 63): the sender's T1, the other chip's reply with T2 and T3, and the
sender's T4. -/
inductive TsyncLeg where
  | first | reply | final
  deriving DecidableEq, Repr

/-- What one leg of a TSYNC exchange carries (10 R247): the times known so far, the others 0, the chip that masters the
time and the external hops from it to the sender of the first leg. -/
structure TsyncMsg where
  leg : TsyncLeg
  t1 : Time
  t2 : Time
  t3 : Time
  t4 : Time
  master : BitVec 3
  hops : BitVec 3
  deriving DecidableEq, Repr

/-- The counters of 10 Table 10-9. -/
inductive EpCounter where
  | crc | replay | retrain | dup | cstall
  deriving DecidableEq, Repr

/-- The burst counters of 11 Table 11-9. -/
inductive MemCounter where
  | rdb | wrb | lecc
  deriving DecidableEq, Repr

/-- The engine's counters of 13 Table 13-9. -/
inductive PciCounter where
  | crcerr | dup | busy
  deriving DecidableEq, Repr

/-- The counters of 13 Table 13-10. -/
inductive EthCounter where
  | rxok | other | fcserr | ovrn | unsent
  deriving DecidableEq, Repr

/-- The counters of 13 Table 13-11. -/
inductive CsiCounter where
  | unsol | late | eccerr
  deriving DecidableEq, Repr

/-- The counters of 14 Table 14-3. -/
inductive UartCounter where
  | ovrn | fe | pe | brk | wakes
  deriving DecidableEq, Repr

/-- An Ethernet frame as a MAC takes it (13 R302): addresses, the VLAN ID of its 802.1Q tag if it has one, EtherType,
whether its FCS is right, and the bytes after the EtherType. -/
structure EthFrame where
  dst : BitVec 48
  src : BitVec 48
  vlan : Option (BitVec 12)
  etype : BitVec 16
  fcsGood : Bool
  payload : List Byte
  deriving DecidableEq, Repr

/-- What header ECC made of a CSI-2 packet header (13 R305, R308). -/
inductive CsiEcc where
  | good | corrected | bad
  deriving DecidableEq, Repr

/-- A CSI-2 packet header: virtual channel, data type and the 16-bit field (the frame number of a frame start). -/
structure CsiHeader where
  vc : BitVec 4
  dt : BitVec 6
  field : BitVec 16
  ecc : CsiEcc
  deriving DecidableEq, Repr

/-- A character on the line as the receive shifter sees it (14 R332, R340): the level of Un_RX at each sample tick, from the
tick of the start bit's reference edge to that of the last sample; in IrDA, where the levels are not looked at, the pulses at
Un_RX = 1, each by the oscillator period of its leading edge, counted from the first tick, and by its length in periods. -/
structure RxChar where
  ticks : List Bool
  pulses : List (Nat × Nat) := []
  deriving DecidableEq, Repr

/-- The commands, in the table's order. -/
inductive Instr where
  /-- R372: The supplies rise in the stated order and the part is held in RESET until every monitored rail is good. -/
  | powerUp
  /-- R373: Every monitored rail has stayed above its brown-out threshold for 1 ms; if RST_N is high, the part leaves RESET for BOOT. -/
  | powerGood (test : BitVec 4)
  /-- R375: A monitored rail falls below its brown-out threshold; within 0.5 µs the part enters RESET and the cause is recorded in SYS_RSTCAUSE. -/
  | brownOut (r : Rail)
  /-- R373: A low pulse on RST_N of 10 µs or more puts the part in RESET. -/
  | rstNLow (ns : Nat)
  /-- R373: RST_N rises; if power-good holds, the part leaves RESET for BOOT. -/
  | rstNHigh (test : BitVec 4)
  /-- R376: VCORE changes faster than 50 mV/µs; every value of that C-die is unspecified until the next RESET. -/
  | vcoreFastSlew (d : Fin 4)
  /-- R46: The first REFCLK_IN edge after RST_N release starts every time-base copy at 10 and sets TB_RUN. -/
  | timeBaseStart
  /-- R52: No REFCLK_IN edge for 1 µs: the time base holds and REFCLK_LOST is set; in RUN a FATAL record is written and the machine enters HALT. -/
  | refclkLost
  /-- R52: REFCLK_IN returns; the time base continues from its held value and TB_RUN reads 1. -/
  | refclkReturn
  /-- R53: An aligned 1 µs time-base window completes; SYS_SPEED.RATE takes the replica-chain rate and VALID is set. -/
  | speedWindowEnd (d : Fin 5) (rate : BitVec 16)
  /-- R49: A read of SYS_TB_LO returns the low word and copies the high word into the requester's shadow. -/
  | sysTbLoRead (a : Requester) (d : Fin 5)
  /-- R250: A read of NLD_TOFS_LO captures NLD_TOFS_HI for its requester. -/
  | nldTofsLoRead (a : Requester)
  /-- R323: A read of PCI_TB_LO returns the low word and captures the high word in the engine's shadow. -/
  | pciTbLoRead
  /-- R50: A mesh input port's token has waited longer than LIMIT; one episode is counted, PORT is written and a WARN STALL_LONG record is written. -/
  | stallLong (d : Fin 5) (port : BitVec 16)
  /-- R50: The stalled token is acknowledged and its long-stall episode ends. -/
  | stallEpisodeEnd (d : Fin 5) (port : BitVec 16)
  /-- R50: A read of SYS_STALL_CNT returns the episode count and clears it. -/
  | sysStallCntRead (d : Fin 5)
  /-- R7: A write to any register that has no row of its own acts as its access codes state, with reserved bits ignored. -/
  | registerWrite (a : Requester) (addr : BitVec 48) (v : BitVec 32)
  /-- R75: A write to PLN_SEED or LNT_SEED reseeds every generator of that unit at its next operation boundary. -/
  | seedWrite (d : Fin 4) (u : SeedUnit) (v : BitVec 32)
  /-- R83: A Dome PASS computes tree sums over its rectangle of the ACTIVE bank and delivers tagged pairs to its home Plinth. -/
  | pass (d : Fin 4) (n : Fin 256)
  /-- R93: A Dome PROGRAM checks the bank state and the wear, then requests a programming current token and lets later commands proceed. -/
  | program (d : Fin 4) (n : Fin 256)
  /-- R94: The governor grants a waiting PROGRAM a current token in arrival order; the bank enters PROG and its count rises. -/
  | programTokenGrant
  /-- R93: Programming ends and the bank's digest is compared: the bank enters STANDBY or FAULT and the completion is returned. -/
  | programEnd (d : Fin 4) (n : Fin 256) (bank : Bool) (cellsGood : Bool)
  /-- R99: A Dome VERIFY computes the digest of the named bank on the die's digest engine, or is rejected for a BLANK or FAULT bank. -/
  | verify (d : Fin 4) (n : Fin 256)
  /-- R99: The digest comparison ends with OK, MARGIN or VERIFY_FAIL, and a mismatching bank enters FAULT. -/
  | verifyEnd (d : Fin 4) (n : Fin 256) (tightOk : Bool)
  /-- R98: A Dome SWAP exchanges the ACTIVE and STANDBY banks at a pass boundary, optionally persisting the selection bit. -/
  | swap (d : Fin 4) (n : Fin 256)
  /-- R97: A SWAP or VERIFY held for a bank's pending or running programming proceeds once that programming has ended. -/
  | domeDeferredResume (d : Fin 4) (n : Fin 256)
  /-- R109: A Tower MUL runs its K-block and row steps, forming tree sums and delivering tagged pairs to its Plinth. -/
  | towerMul (d : Fin 4) (n : Fin 8)
  /-- R111: A Plinth intake port takes a pair: it folds the pair if its segment is next, otherwise it holds the pair in the reorder buffer. -/
  | plinthPairIntake (d : Fin 4) (n : Fin 8) (fromTower : Bool)
  /-- R129: CLEAR zeroes the named accumulators, sets the row mode and discards held pairs, counting them in PLN_DISC. -/
  | clear (d : Fin 4) (n : Fin 8)
  /-- R129: PRELOAD writes converted values into accumulators with a count of 1 and sets the row mode. -/
  | preload (d : Fin 4) (n : Fin 8)
  /-- R121: DRAIN settles its rows, forms and converts each element, writes the tile or fused outputs and reports the running maximum. -/
  | drain (d : Fin 4) (n : Fin 8)
  /-- R129: READT copies the raw 8-byte accumulators to Vault. -/
  | readt (d : Fin 4) (n : Fin 8)
  /-- R129: WRITET copies raw accumulators from Vault, flushing subnormal words and setting the count to 1. -/
  | writet (d : Fin 4) (n : Fin 8)
  /-- R124: A CHAIN position settles its rows and, if FIRST, sends its local tile to NEXT; otherwise it awaits the incoming tile. -/
  | chain (d : Fin 4) (n : Fin 8)
  /-- R113: A reader waiting for held pairs of its rows starts once the reorder buffer holds none for them. -/
  | plinthSettled (d : Fin 4) (n : Fin 8)
  /-- R124: The whole incoming chain tile has arrived and is combined with the local tile, then sent to NEXT or committed. -/
  | chainCombine (d : Fin 4) (n : Fin 8)
  /-- R129: A store through the address space changes only the stored accumulator word, flushed, leaving NEXT, count and mode unchanged. -/
  | plinthStore (d : Fin 4) (n : Fin 8) (off : BitVec 18) (v : BitVec 32)
  /-- R139: A Lantern RUN executes its program from ENTRY to END, repeating REPM1 more times with strided parameters. -/
  | lntRun (d : Fin 4) (n : Fin 8)
  /-- R153: Lantern NOP does nothing. -/
  | lntNop (d : Fin 4) (n : Fin 8)
  /-- R139: END ends the program for this repetition. -/
  | lntEnd (d : Fin 4) (n : Fin 8)
  /-- R148: SETRM sets the rounding attribute for the rest of the RUN. -/
  | lntSetrm (d : Fin 4) (n : Fin 8)
  /-- R145: LANE runs a lane program of up to 64 instructions on all 256 lanes. -/
  | lntLane (d : Fin 4) (n : Fin 8)
  /-- R152: LD loads a tile from Vault. -/
  | lntLd (d : Fin 4) (n : Fin 8)
  /-- R152: ST stores a tile to Vault. -/
  | lntSt (d : Fin 4) (n : Fin 8)
  /-- R146: STN stores K compressed elements and advances the base parameter. -/
  | lntStn (d : Fin 4) (n : Fin 8)
  /-- R146: STK stores K as an int32. -/
  | lntStk (d : Fin 4) (n : Fin 8)
  /-- R142: PRD settles and reads a 16 × 16 block of its Plinth as binary32 or int32, holding intake for those rows for 4 steps. -/
  | lntPrd (d : Fin 4) (n : Fin 8)
  /-- R142: PRDX reads the raw sum and error words of a Plinth block into two registers. -/
  | lntPrdx (d : Fin 4) (n : Fin 8)
  /-- R153: MOV copies a register. -/
  | lntMov (d : Fin 4) (n : Fin 8)
  /-- R153: TRN transposes a tile. -/
  | lntTrn (d : Fin 4) (n : Fin 8)
  /-- R153: BCR broadcasts one row of a tile. -/
  | lntBcr (d : Fin 4) (n : Fin 8)
  /-- R153: BCC broadcasts one column of a tile. -/
  | lntBcc (d : Fin 4) (n : Fin 8)
  /-- R153: LID writes each word's index as int32. -/
  | lntLid (d : Fin 4) (n : Fin 8)
  /-- R153: RIX reads, in each lane, the register that the lane's own index selects. -/
  | lntRix (d : Fin 4) (n : Fin 8)
  /-- R153: SEL selects between two sources by a mask. -/
  | lntSel (d : Fin 4) (n : Fin 8)
  /-- R148: Element-wise IEEE or int32 addition. -/
  | lntAdd (d : Fin 4) (n : Fin 8)
  /-- R148: Element-wise IEEE or int32 subtraction. -/
  | lntSub (d : Fin 4) (n : Fin 8)
  /-- R148: Element-wise IEEE or int32 multiplication. -/
  | lntMul (d : Fin 4) (n : Fin 8)
  /-- R148: Element-wise fused multiply-add. -/
  | lntFma (d : Fin 4) (n : Fin 8)
  /-- R148: Element-wise minimum. -/
  | lntMin (d : Fin 4) (n : Fin 8)
  /-- R148: Element-wise maximum. -/
  | lntMax (d : Fin 4) (n : Fin 8)
  /-- R148: Element-wise absolute value. -/
  | lntAbs (d : Fin 4) (n : Fin 8)
  /-- R148: Element-wise negation. -/
  | lntNeg (d : Fin 4) (n : Fin 8)
  /-- R148: Element-wise IEEE division, setting DZ on divide-by-zero. -/
  | lntDiv (d : Fin 4) (n : Fin 8)
  /-- R148: Element-wise IEEE square root. -/
  | lntSqrt (d : Fin 4) (n : Fin 8)
  /-- R149: Bitwise AND on int32. -/
  | lntAnd (d : Fin 4) (n : Fin 8)
  /-- R149: Bitwise OR on int32. -/
  | lntOr (d : Fin 4) (n : Fin 8)
  /-- R149: Bitwise XOR on int32. -/
  | lntXor (d : Fin 4) (n : Fin 8)
  /-- R149: Left shift by the second operand mod 32. -/
  | lntShl (d : Fin 4) (n : Fin 8)
  /-- R149: Arithmetic right shift by the second operand mod 32. -/
  | lntShr (d : Fin 4) (n : Fin 8)
  /-- R148: Equality compare, writing a mask. -/
  | lntCeq (d : Fin 4) (n : Fin 8)
  /-- R148: Less-than compare, writing a mask. -/
  | lntClt (d : Fin 4) (n : Fin 8)
  /-- R148: Less-or-equal compare, writing a mask. -/
  | lntCle (d : Fin 4) (n : Fin 8)
  /-- R148: Unordered compare, writing a mask. -/
  | lntCun (d : Fin 4) (n : Fin 8)
  /-- R148: CVT converts each element between formats under Table 3-4. -/
  | lntCvt (d : Fin 4) (n : Fin 8)
  /-- R150: Approximate exponential. -/
  | lntExp (d : Fin 4) (n : Fin 8)
  /-- R150: Approximate natural logarithm. -/
  | lntLn (d : Fin 4) (n : Fin 8)
  /-- R150: Approximate logistic sigmoid. -/
  | lntSigm (d : Fin 4) (n : Fin 8)
  /-- R150: Approximate hyperbolic tangent. -/
  | lntTanh (d : Fin 4) (n : Fin 8)
  /-- R150: Approximate reciprocal. -/
  | lntRcp (d : Fin 4) (n : Fin 8)
  /-- R150: Approximate reciprocal square root. -/
  | lntRsqrt (d : Fin 4) (n : Fin 8)
  /-- R147: RED reduces along one tile axis by SUM, MAX or MIN and writes the result across that axis. -/
  | lntRed (d : Fin 4) (n : Fin 8)
  /-- R146: CPRS compresses the masked elements to the front of a register and sets K. -/
  | lntCprs (d : Fin 4) (n : Fin 8)
  /-- R146: XPND expands leading elements into the active mask positions. -/
  | lntXpnd (d : Fin 4) (n : Fin 8)
  /-- R158: An address-space access to tile registers or LNT_PMEM, held while a RUN executes, proceeds once the RUN ends. -/
  | lanternMemAccess (d : Fin 4) (n : Fin 8)
  /-- R191: Spire integer add, wrapping. -/
  | add (d : Fin 4) (n : Fin 32) (w : BitVec 32)
  /-- R191: Spire integer subtract. -/
  | sub (d : Fin 4) (n : Fin 32) (w : BitVec 32)
  /-- R196: Spire bitwise AND. -/
  | andR (d : Fin 4) (n : Fin 32) (w : BitVec 32)
  /-- R196: Spire bitwise OR. -/
  | orR (d : Fin 4) (n : Fin 32) (w : BitVec 32)
  /-- R196: Spire bitwise XOR. -/
  | xorR (d : Fin 4) (n : Fin 32) (w : BitVec 32)
  /-- R191: Spire shift left logical. -/
  | sll (d : Fin 4) (n : Fin 32) (w : BitVec 32)
  /-- R191: Spire shift right logical. -/
  | srl (d : Fin 4) (n : Fin 32) (w : BitVec 32)
  /-- R191: Spire shift right arithmetic. -/
  | sra (d : Fin 4) (n : Fin 32) (w : BitVec 32)
  /-- R196: Spire set if less, signed. -/
  | slt (d : Fin 4) (n : Fin 32) (w : BitVec 32)
  /-- R196: Spire set if less, unsigned. -/
  | sltu (d : Fin 4) (n : Fin 32) (w : BitVec 32)
  /-- R191: Spire multiply, low word. -/
  | mul (d : Fin 4) (n : Fin 32) (w : BitVec 32)
  /-- R191: Spire signed multiply, high word. -/
  | mulh (d : Fin 4) (n : Fin 32) (w : BitVec 32)
  /-- R191: Spire unsigned multiply, high word. -/
  | mulhu (d : Fin 4) (n : Fin 32) (w : BitVec 32)
  /-- R191: Spire signed divide, with defined division by zero. -/
  | div (d : Fin 4) (n : Fin 32) (w : BitVec 32)
  /-- R191: Spire unsigned divide. -/
  | divu (d : Fin 4) (n : Fin 32) (w : BitVec 32)
  /-- R191: Spire signed remainder. -/
  | rem (d : Fin 4) (n : Fin 32) (w : BitVec 32)
  /-- R191: Spire unsigned remainder. -/
  | remu (d : Fin 4) (n : Fin 32) (w : BitVec 32)
  /-- R190: Binary32 add under FCSR.RM. -/
  | fadd (d : Fin 4) (n : Fin 32) (w : BitVec 32)
  /-- R190: Binary32 subtract. -/
  | fsub (d : Fin 4) (n : Fin 32) (w : BitVec 32)
  /-- R190: Binary32 multiply. -/
  | fmul (d : Fin 4) (n : Fin 32) (w : BitVec 32)
  /-- R190: Binary32 divide. -/
  | fdiv (d : Fin 4) (n : Fin 32) (w : BitVec 32)
  /-- R190: Binary32 square root. -/
  | fsqrt (d : Fin 4) (n : Fin 32) (w : BitVec 32)
  /-- R190: Binary32 minimumNumber. -/
  | fmin (d : Fin 4) (n : Fin 32) (w : BitVec 32)
  /-- R190: Binary32 maximumNumber. -/
  | fmax (d : Fin 4) (n : Fin 32) (w : BitVec 32)
  /-- R190: Quiet equality compare. -/
  | feq (d : Fin 4) (n : Fin 32) (w : BitVec 32)
  /-- R190: Quiet less-than compare. -/
  | flt (d : Fin 4) (n : Fin 32) (w : BitVec 32)
  /-- R190: Quiet less-or-equal compare. -/
  | fle (d : Fin 4) (n : Fin 32) (w : BitVec 32)
  /-- R190: Binary32 to signed integer conversion. -/
  | fcvtWS (d : Fin 4) (n : Fin 32) (w : BitVec 32)
  /-- R190: Binary32 to unsigned integer conversion. -/
  | fcvtWuS (d : Fin 4) (n : Fin 32) (w : BitVec 32)
  /-- R190: Signed integer to binary32 conversion. -/
  | fcvtSW (d : Fin 4) (n : Fin 32) (w : BitVec 32)
  /-- R190: Unsigned integer to binary32 conversion. -/
  | fcvtSWu (d : Fin 4) (n : Fin 32) (w : BitVec 32)
  /-- R196: Classifies a binary32 value. -/
  | fclass (d : Fin 4) (n : Fin 32) (w : BitVec 32)
  /-- R196: Spire fused multiply-add with one rounding. -/
  | fma (d : Fin 4) (n : Fin 32) (w : BitVec 32)
  /-- R196: Add a sign-extended immediate. -/
  | addi (d : Fin 4) (n : Fin 32) (w : BitVec 32)
  /-- R196: AND with a zero-extended immediate. -/
  | andi (d : Fin 4) (n : Fin 32) (w : BitVec 32)
  /-- R196: OR with a zero-extended immediate. -/
  | ori (d : Fin 4) (n : Fin 32) (w : BitVec 32)
  /-- R196: XOR with a zero-extended immediate. -/
  | xori (d : Fin 4) (n : Fin 32) (w : BitVec 32)
  /-- R196: Shift left by an immediate. -/
  | slli (d : Fin 4) (n : Fin 32) (w : BitVec 32)
  /-- R196: Shift right logical by an immediate. -/
  | srli (d : Fin 4) (n : Fin 32) (w : BitVec 32)
  /-- R196: Shift right arithmetic by an immediate. -/
  | srai (d : Fin 4) (n : Fin 32) (w : BitVec 32)
  /-- R196: Signed compare with an immediate. -/
  | slti (d : Fin 4) (n : Fin 32) (w : BitVec 32)
  /-- R196: Unsigned compare with an immediate. -/
  | sltiu (d : Fin 4) (n : Fin 32) (w : BitVec 32)
  /-- R196: Loads the immediate into the upper 16 bits. -/
  | lui (d : Fin 4) (n : Fin 32) (w : BitVec 32)
  /-- R188: Precise word load from any occupied region. -/
  | lw (d : Fin 4) (n : Fin 32) (w : BitVec 32)
  /-- R188: Precise signed halfword load. -/
  | lh (d : Fin 4) (n : Fin 32) (w : BitVec 32)
  /-- R188: Precise unsigned halfword load. -/
  | lhu (d : Fin 4) (n : Fin 32) (w : BitVec 32)
  /-- R188: Precise signed byte load. -/
  | lb (d : Fin 4) (n : Fin 32) (w : BitVec 32)
  /-- R188: Precise unsigned byte load. -/
  | lbu (d : Fin 4) (n : Fin 32) (w : BitVec 32)
  /-- R188: Precise word store. -/
  | sw (d : Fin 4) (n : Fin 32) (w : BitVec 32)
  /-- R188: Precise halfword store. -/
  | sh (d : Fin 4) (n : Fin 32) (w : BitVec 32)
  /-- R188: Precise byte store. -/
  | sb (d : Fin 4) (n : Fin 32) (w : BitVec 32)
  /-- R188: The data of a load, or the acknowledgement of a store, returns to the Spire; an error completion raises ACCESS. -/
  | meshAccessComplete (d : Fin 4) (n : Fin 32)
  /-- R196: Branch if equal. -/
  | beq (d : Fin 4) (n : Fin 32) (w : BitVec 32)
  /-- R196: Branch if not equal. -/
  | bne (d : Fin 4) (n : Fin 32) (w : BitVec 32)
  /-- R196: Branch if less, signed. -/
  | blt (d : Fin 4) (n : Fin 32) (w : BitVec 32)
  /-- R196: Branch if greater or equal, signed. -/
  | bge (d : Fin 4) (n : Fin 32) (w : BitVec 32)
  /-- R196: Branch if less, unsigned. -/
  | bltu (d : Fin 4) (n : Fin 32) (w : BitVec 32)
  /-- R196: Branch if greater or equal, unsigned. -/
  | bgeu (d : Fin 4) (n : Fin 32) (w : BitVec 32)
  /-- R180: Writes the return address to w12 and branches. -/
  | call (d : Fin 4) (n : Fin 32) (w : BitVec 32)
  /-- R196: Jumps to a register plus an immediate and links. -/
  | jalr (d : Fin 4) (n : Fin 32) (w : BitVec 32)
  /-- R182: Enters a new ring window, copying the pass set and lowering g6. -/
  | enter (d : Fin 4) (n : Fin 32) (w : BitVec 32)
  /-- R182: Returns to the caller's window, copying the pass set back and raising g6. -/
  | leave (d : Fin 4) (n : Fin 32) (w : BitVec 32)
  /-- R196: Spire NOP does nothing. -/
  | nop (d : Fin 4) (n : Fin 32) (w : BitVec 32)
  /-- R189: Makes later fetches see earlier writes to local memory. -/
  | iflush (d : Fin 4) (n : Fin 32) (w : BitVec 32)
  /-- R184: Returns from a trap and retries the trapped instruction. -/
  | rftR (d : Fin 4) (n : Fin 32) (w : BitVec 32)
  /-- R184: Returns from a trap to the instruction after the trapped one. -/
  | rftN (d : Fin 4) (n : Fin 32) (w : BitVec 32)
  /-- R201: The Spire HALT instruction halts the Spire with HCAUSE 1 and writes no record. -/
  | halt (d : Fin 4) (n : Fin 32) (w : BitVec 32)
  /-- R197: Reads a special register. -/
  | rds (d : Fin 4) (n : Fin 32) (w : BitVec 32)
  /-- R197: Writes a special register; RO fields are ignored. -/
  | wrs (d : Fin 4) (n : Fin 32) (w : BitVec 32)
  /-- R184: Takes software trap 0x10 + n. -/
  | trap (d : Fin 4) (n : Fin 32) (w : BitVec 32)
  /-- R183: Stores window XWIN to 64 bytes of local memory and decrements LIVE. -/
  | wspill (d : Fin 4) (n : Fin 32) (w : BitVec 32)
  /-- R183: Loads window XWIN from 64 bytes of local memory and increments LIVE. -/
  | wfill (d : Fin 4) (n : Fin 32) (w : BitVec 32)
  /-- R193: Pushes a 32-byte payload into a named queue, waiting while it is full or returning FULL with TRY. -/
  | qpush (d : Fin 4) (n : Fin 32) (w : BitVec 32)
  /-- R193: Pops the oldest entry of a named queue, waiting while it is empty or returning NOTREADY with TRY. -/
  | qpop (d : Fin 4) (n : Fin 32) (w : BitVec 32)
  /-- R193: Adds to a named Bell with release semantics. -/
  | badd (d : Fin 4) (n : Fin 32) (w : BitVec 32)
  /-- R193: Waits with acquire semantics until a named Bell has counted a target. -/
  | bwait (d : Fin 4) (n : Fin 32) (w : BitVec 32)
  /-- R193: Waits until the time base reaches a 64-bit time. -/
  | waitt (d : Fin 4) (n : Fin 32) (w : BitVec 32)
  /-- R193: The time base reaches the WAITT target and the instruction completes with 0. -/
  | waittReached (d : Fin 4) (n : Fin 32)
  /-- R193: A waiting instruction reaches its DL deadline and returns TIMEOUT with no other effect. -/
  | deadlineTimeout (d : Fin 4) (n : Fin 32)
  /-- R185: The time base is at or above TCMP with IE set; TIMER is taken at the next boundary, abandoning any wait. -/
  | timer (d : Fin 4) (n : Fin 32)
  /-- R199: Writing RUN = 1 to a HELD or HALTED Spire starts it at SPR_ENTRY with a fresh window state. -/
  | sprRunStart (d : Fin 4) (n : Fin 32)
  /-- R199: Writing RUN = 0 stops the Spire at the next boundary, abandoning any wait, with HCAUSE 2. -/
  | sprRunStop (d : Fin 4) (n : Fin 32)
  /-- R198: A read of SPR_WTRAPS returns the spill and fill trap count and clears it. -/
  | sprWtrapsRead (d : Fin 4) (n : Fin 32)
  /-- R217: A store to BEL_ADD adds the amount to a Bell with release semantics. -/
  | bellAdd (d : Fin 4) (n : Fin 256) (v : BitVec 32)
  /-- R206: A write to BEL_COUNT sets the count and retests every waiter. -/
  | bellSet (d : Fin 4) (n : Fin 256) (v : BitVec 32)
  /-- R228: BEL_CTL.POISON poisons the Bell and releases its waiters with POISONED. -/
  | bellPoison (d : Fin 4) (n : Fin 256)
  /-- R228: BEL_CTL.UNPOISON clears the poison unless an isolated die is involved. -/
  | bellUnpoison (d : Fin 4) (n : Fin 256)
  /-- R207: A held wait is satisfied by an add or set and its waiter is released with acquire semantics. -/
  | bellWaitSatisfied (d : Fin 4) (n : Fin 256)
  /-- R211: A queue takes a push, after waiting if it was full: it writes the entry and header and advances QUE_SEQ and occupancy. -/
  | queuePushAdmit (d : Fin 4) (q : Fin 128)
  /-- R212: A queue front-end takes the next entry for its consumer and passes on the command payloads. -/
  | queueFrontEndTake (d : Fin 4) (q : Fin 128) (c : Consumer)
  /-- R213: A WAIT entry holds its queue until the named Bell has counted the target. -/
  | waitEntry (d : Fin 4) (q : Fin 128)
  /-- R213: A RING entry waits until every earlier command of its queue has completed. -/
  | ringEntry (d : Fin 4) (q : Fin 128)
  /-- R213: Once the earlier commands have completed, the RING adds its amount to the Bell with release semantics. -/
  | ringAdd (d : Fin 4) (q : Fin 128)
  /-- R215: A unit completes a command: it pushes the completion record to COMPQ, waiting for room, and then rings BELL. -/
  | commandComplete (u : UnitRef)
  /-- R219: QUE_CTL.STOP moves the queue from RUN to STOPPED. -/
  | queStop (d : Fin 4) (q : Fin 128)
  /-- R219: QUE_CTL.RESUME moves the queue from STOPPED to RUN. -/
  | queResume (d : Fin 4) (q : Fin 128)
  /-- R219: QUE_CTL.FLUSH discards every undelivered entry, withdraws held waits and counts QUE_DISC. -/
  | queFlush (d : Fin 4) (q : Fin 128)
  /-- R220: A QUE_BASE or QUE_CFG write takes effect or is ignored by the state, occupancy and ring checks; EN changes the state. -/
  | queConfigWrite (d : Fin 4) (q : Fin 128) (cfg : Bool) (v : BitVec 32)
  /-- R218: A read of QUE_HWCNT returns the crossing count and clears it. -/
  | queHwcntRead (d : Fin 4) (q : Fin 128)
  /-- R218: A read of QUE_DISC returns the flush discard count and clears it. -/
  | queDiscRead (d : Fin 4) (q : Fin 128)
  /-- R233: A receiver takes a flit, checking CRC and sequence, processing ACK and credits, and discarding duplicates. -/
  | flitReceive (e : Ep) (f : Flit)
  /-- R234: A sender sends a sequenced flit once it holds a credit and has replay-buffer room. -/
  | flitSend (e : Ep)
  /-- R233: A NAK makes the sender resend from ACK + 1 in order. -/
  | nakReceive (e : Ep) (ack : BitVec 8)
  /-- R233: 32 flits or 500 ns after taking a flit, the receiver returns ACK, by a CTRL flit if needed. -/
  | ackDue (e : Ep)
  /-- R236: An RD transaction reads memory or registers and answers with data. -/
  | nldRd (e : Ep)
  /-- R236: A WR transaction writes memory or registers and is recorded in the replay window. -/
  | nldWr (e : Ep)
  /-- R236: A BADD transaction adds to a remote Bell. -/
  | nldBadd (e : Ep)
  /-- R240: A BWAIT transaction is held at the target Bell until it is satisfied, its deadline passes or it is cancelled. -/
  | nldBwait (e : Ep)
  /-- R240: A QPUSH transaction pushes to a remote queue, held while the queue is full. -/
  | nldQpush (e : Ep)
  /-- R240: A QPOP transaction pops a remote queue, held while it is empty. -/
  | nldQpop (e : Ep)
  /-- R240: CANCEL withdraws a held operation, which answers CANCELLED, unless it was already performed. -/
  | nldCancel (e : Ep)
  /-- R241: A CHN transaction delivers one chain row into a chain receive buffer. -/
  | nldChn (e : Ep)
  /-- R241: A CHBRK transaction delivers a chain break notice. -/
  | nldChbrk (e : Ep)
  /-- R247: A TSYNC exchange records T1–T4 and the follower updates NLD_TOFS. -/
  | nldTsync (p : Fin 4) (m : TsyncMsg)
  /-- R245: ISO names an isolated chip; a chip that routes to it through the sender isolates it too. -/
  | nldIso (e : Ep)
  /-- R237: A response completes its outstanding request, or is discarded if its TID is not outstanding. -/
  | nldRsp (e : Ep)
  /-- R242: An external lane loses block lock or deskew and a retrain attempt starts. -/
  | laneLockLoss (p : Fin 4)
  /-- R242: An in-package lane has held a flit with credit for 10 µs without acknowledgement, which starts a retrain attempt. -/
  | laneNoProgress (e : Ep)
  /-- R252: Writing NLD_EP_CTL.RETRAIN = 1 starts a retrain attempt on an UP endpoint; it is ignored otherwise. -/
  | nldRetrainWrite (e : Ep)
  /-- R243: A RESUME CTRL flit arrives; its ERX, credits and chip identity are checked, and the endpoint goes UP or the attempt fails. -/
  | nldResumeFlit (e : Ep) (m : ResumeMsg)
  /-- R243: A retrain attempt reaches its lock or RESUME limit and fails; the third failure in a row puts the endpoint DOWN. -/
  | retrainLimitExpiry (e : Ep)
  /-- R251: An external port that is not UP 10 ms after training starts goes DOWN. -/
  | extPortTrainTimeout (p : Fin 4)
  /-- R247: Every 1 ms the time master starts a TSYNC exchange with every present chip. -/
  | tsyncPeriod
  /-- R351: After 100 µs with nothing sent to F, H's endpoint 4 sends F a CTRL flit. -/
  | hfKeepalive
  /-- R250: Setting NLD_LOCK makes later writes to the chip identity, routes, lock and EN be ignored until RST_N. -/
  | nldLockWrite (v : BitVec 32)
  /-- R250: A read of an NLD_EP CRC, REPLAY, RETRAIN, DUP or CSTALL counter returns it and clears it. -/
  | nldEpCounterRead (e : Ep) (k : EpCounter)
  /-- R271: Vault clearing ends and the accesses that were waiting proceed. -/
  | vaultClearDone (d : Fin 4)
  /-- R272: LPDDR training ends in READY with PSIZE set, or in FAILED with MEM_TFAIL and a MEM_TRAIN record. -/
  | lpddrTrainingEnd (fails : BitVec 16)
  /-- R262: Every 4 ms the controller reads MR4 of each device and sets the refresh rate. -/
  | mr4Poll (refm : BitVec 2)
  /-- R273: With REFCLK_IN absent for 2 ms, REFLOST is set and LPDDR contents become unspecified. -/
  | lpddrRefreshLost
  /-- R270: A MEM_CFG write takes effect only while OFF; an invalid combination fails training at once. -/
  | memCfgWrite (v : BitVec 32)
  /-- R269: A read of MEM_VCORR returns the corrected-error count and clears it. -/
  | memVcorrRead (d : Fin 4)
  /-- R269: A read of MEM_RDB, MEM_WRB or MEM_LECC returns the count and clears it. -/
  | memBurstCountRead (k : MemCounter)
  /-- R265: A mover COPY checks every row and then moves its rows in order as RD/WR transactions, completing OK, MV_ADDR or MV_ISOLATED. -/
  | moverCopy (m : Fin 8)
  /-- R276: After 1 ms the sequencer resets the flash, reads SFDP and selects octal or quad mode, or fails with NOFLASH. -/
  | flashDiscovery
  /-- R277: A flash read stalls for 10 µs and the slot attempt fails with FLASH. -/
  | flashReadTimeout
  /-- R283: The header and section table are read and checked for magic, key hash, signature, rollback, sections and targets. -/
  | imageAuth
  /-- R284: The FIELD and REGS sections are checked and applied, then LPDDR and external port training start. -/
  | imageConfig
  /-- R288: For each DOMET entry the sequencer verifies, and if needed programs, the banks and records the bank to activate. -/
  | bootDomeEntry
  /-- R284: A SPIRE, LPMEM or DATA section is streamed to its destination and its digest is checked. -/
  | sectionLoad
  /-- R287: LPDDR training and port training have ended; LPDDR DATA is loaded or skipped. -/
  | bootSettleEnd
  /-- R290: The sequencer activates the recorded banks, writes the seeds, provisions, locks, records BOOT_TIME and starts the Spires. -/
  | bootRelease
  /-- R292: A slot attempt has not reached RUN after 10 s and fails with TIMEOUT. -/
  | bootSlotTimeout
  /-- R292: REFCLK_IN is absent for 100 ms in BOOT; the remaining slots fail with REFCLK. -/
  | bootRefclkAbsent
  /-- R286: BOOT_CTL.SVNC raises RBCNT to the booted image's SVN. -/
  | svnCommit
  /-- R295: The update engine erases a slot unless the other slot is not GOOD. -/
  | updErase (slot : Bool)
  /-- R295: The update engine copies bytes from a device address into a slot. -/
  | updWrite (slot : Bool)
  /-- R295: The update engine applies the image checks and digests to a slot and marks it GOOD. -/
  | updCheck (slot : Bool)
  /-- R295: An update command finishes, sets RESULT and optionally adds to its Bell. -/
  | updCommandEnd
  /-- R313: OPEN opens a session for its endpoint, empties its cache and resets its sequence numbers, or answers INUSE or BUSY. -/
  | openSession
  /-- R313: CLOSE cancels held requests, waits for the outstanding ones, empties the cache and closes the session. -/
  | closeSession
  /-- R313: PING answers OK in BOOT, RUN and HALT and changes nothing. -/
  | ping
  /-- R311: A host RD reads device memory or registers. -/
  | hostRd
  /-- R311: A host WR writes device memory or registers and is recorded in the completion cache. -/
  | hostWr
  /-- R311: A host BADD adds to a Bell. -/
  | hostBadd
  /-- R311: A host BWAIT waits on a Bell. -/
  | hostBwait
  /-- R311: A host QPUSH pushes a payload into a queue. -/
  | hostQpush
  /-- R311: A host QPOP pops a queue entry. -/
  | hostQpop
  /-- R318: WUPD checks a signed weight-update bundle and pushes its descriptor to PCI_WUPD_Q. -/
  | wupd
  /-- R312: A DL request not complete TMO µs after arrival is cancelled and completes TIMEOUT unless it was performed first. -/
  | hostDeadline (s : Fin 16) (reqid : BitVec 32)
  /-- R320: A submission tail write makes the engine consume frames up to the new tail; a misaligned tail sets BADDB. -/
  | pciSqTailWrite (s : Fin 16) (tail : BitVec 32) (wrote : List (Nat × BitVec 8))
  /-- R321: The host's consumed offset frees completion-ring space. -/
  | pciCqHeadWrite (s : Fin 16) (v : BitVec 32)
  /-- R321: A completion, event or heartbeat frame is written to the ring when it has room, the tail is written back and MSI-X is signalled. -/
  | cqFrameWrite (s : Fin 16)
  /-- R321: Writing a vector number of 17–63 signals that MSI-X vector. -/
  | pciMsixSwWrite (v : BitVec 32)
  /-- R316: Every PERIOD ms a heartbeat frame is sent to every subscribed session. -/
  | heartbeat
  /-- R317: The engine pops a body from PCI_EVQ and sends it as an event to every subscribed session. -/
  | eventQueuePop
  /-- R327: PCIE_PERST_N low resets the endpoint and closes every PCI Express session. -/
  | pciePerst
  /-- R327: A Function Level Reset resets the endpoint and closes every PCI Express session. -/
  | functionLevelReset
  /-- R302: A MAC takes a frame whole, applies its acceptance checks and passes the transaction frame to the engine. -/
  | ethFrameReceive (m : Fin 2) (f : EthFrame)
  /-- R304: A received PAUSE frame holds the transmitter. -/
  | ethPauseReceive (m : Fin 2) (quanta : BitVec 16)
  /-- R328: A MAC link down for 100 ms closes that MAC's sessions and counts unsent frames. -/
  | ethLinkDownTimeout (m : Fin 2)
  /-- R324: ETH_CFG.EN going from 0 to 1 applies the MAC configuration. -/
  | ethEnable (m : Fin 2) (v : BitVec 32)
  /-- R324: Writing ETH_MDIO.GO = 1 starts an MDIO management frame. -/
  | mdioFrame (m : Fin 2) (v : BitVec 32)
  /-- R324: The MDIO frame ends, GO reads 0 and DATA holds the read data. -/
  | mdioFrameEnd (m : Fin 2) (data : BitVec 16)
  /-- R323: A read of PCI_CRCERR, PCI_DUP or PCI_BUSY returns the count and clears it. -/
  | pciCounterRead (k : PciCounter)
  /-- R324: A read of an ETH_ counter returns the count and clears it. -/
  | ethCounterRead (m : Fin 2) (k : EthCounter)
  /-- R307: A receiver issues a trigger pulse once TPER has passed and every stream has a free slot, counting CSI_LATE if late. -/
  | csiTriggerPulse (r : Fin 4)
  /-- R308: A frame start packet begins a frame of a stream, or is counted as unsolicited. -/
  | csiFrameStart (r : Fin 4) (h : CsiHeader)
  /-- R306: A long packet line is written to its slot, with CRC, ECC and oversize handling. -/
  | csiLongPacket (r : Fin 4) (h : CsiHeader) (crcOk : Bool) (data : List (BitVec 8))
  /-- R306: At frame end the frame status is written and 1 is added to the READY Bell. -/
  | csiFrameEnd (r : Fin 4) (h : CsiHeader)
  /-- R308: No frame end arrives within FTMO; the frame ends with TRUNC. -/
  | csiFrameTimeout (r : Fin 4) (k : Fin 4)
  /-- R325: A CSI EN going from 0 to 1 applies the configuration and restarts frame numbering. -/
  | csiEnable (r : Fin 4) (v : BitVec 32)
  /-- R325: A read of a CSI_ counter returns the count and clears it. -/
  | csiCounterRead (r : Fin 4) (k : CsiCounter)
  /-- R334: A received character moves into the holding register with its PE, FE and BRK tags. -/
  | uartCharReceived (u : Fin 4) (c : RxChar)
  /-- R336: The receive engine writes the held character to the ring when a slot is free and adds to READY. -/
  | uartRxEngineTake (u : Fin 4)
  /-- R337: The transmitter starts sending entry k once AVAIL has counted it and CTS allows. -/
  | uartTxChar (u : Fin 4)
  /-- R337: The last stop bit of an entry leaves Un_TX and 1 is added to DONE. -/
  | uartTxDone (u : Fin 4)
  /-- R338: Un_CTS_N changes, holding or releasing the transmitter when FLOW is set. -/
  | uartCtsChange (u : Fin 4) (high : Bool)
  /-- R339: In synchronous mode one character is clocked out and one clocked in; bit i of `data` is the level of Un_RX at the
  edge by which Un_SCK returns to the CPOL level for the (i + 1)-th time. -/
  | uartSyncChar (u : Fin 4) (data : BitVec 9)
  /-- R341: Un_RX has been idle for IDLE µs with nothing pending, and the port enters its sleep state. -/
  | uartSleepEntry (u : Fin 4)
  /-- R341: An RX edge or an AVAIL add wakes a sleeping port and adds to the wake Bell. -/
  | uartWake (u : Fin 4) (byRx : Bool)
  /-- R343: A deep-woken port becomes ready within 20 µs, having discarded the waking character. -/
  | deepWakeReady (u : Fin 4) (rxHigh : Bool)
  /-- R345: An EN = 1 write applies the configuration or refuses it with CFGERR. -/
  | uartEnable (u : Fin 4) (v : BitVec 32)
  /-- R347: Clearing EN stops the port at the next character boundary and turns it OFF. -/
  | uartDisable (u : Fin 4)
  /-- R344: A read of a UART_ counter returns the count and clears it. -/
  | uartCounterRead (u : Fin 4) (k : UartCounter)
  /-- R350: H reports the machine state to F; RUN moves F from RSAFE to LIVE, and HALT or SAFE moves it to FSAFE. -/
  | mstateReport
  /-- R350: VFIELD rises above 16.0 V and F starts in RSAFE. -/
  | vfieldRise
  /-- R369: VFIELD below 15.0 V resets F and unpowers its outputs. -/
  | fReset
  /-- R351: VFIELD has been below 17.0 V for 1 ms; F enters FSAFE with cause FUV. -/
  | fuvTimeout
  /-- R351: F takes no valid flit from H for 1 ms and enters FSAFE with cause LINK. -/
  | fLinkTimeout
  /-- R351: FIO_CTL.SAFE moves F to FSAFE with cause CMD. -/
  | fioSafe
  /-- R352: FIO_CTL.REARM returns F from FSAFE to LIVE if no cause is pending and H reports RUN. -/
  | fioRearm
  /-- R364: A write to FIO_WD_KICK restarts the output watchdog period. -/
  | fioWdKick (v : BitVec 32)
  /-- R364: A write of FIO_WD sets the period and restarts the output watchdog. -/
  | fioWdWrite (v : BitVec 32)
  /-- R364: No kick arrives within PERIOD; F enters FSAFE with cause WDOG. -/
  | fioWdExpiry
  /-- R355: A new AO code sets the commanded current, which settles within 500 µs. -/
  | aoCmdWrite (n : Fin 4) (v : BitVec 32)
  /-- R355: Every 100 µs the AO readback of current, headroom and VLOOP is refreshed. -/
  | aoMeasUpdate (n : Fin 4) (i : BitVec 16) (vhead : BitVec 12) (vloop : BitVec 12)
  /-- R356: Low headroom with current short of the command sets COMPLIANCE within 1 ms and writes AO_COMPLIANCE. -/
  | aoComplianceSet (n : Fin 4)
  /-- R356: Headroom at or above 3.0 V for 10 ms without a break clears COMPLIANCE. -/
  | aoComplianceClear (n : Fin 4)
  /-- R357: A command of 1 mA or more with under 50 µA delivered for 10 ms sets OPEN and writes AO_OPEN. -/
  | aoOpenSet (n : Fin 4)
  /-- R357: 50 µA or more for 10 ms clears OPEN. -/
  | aoOpenClear (n : Fin 4)
  /-- R358: A DO command change starts switching within 20 µs at the selected slew; off cancels a pending retry. -/
  | doCmdWrite (v : BitVec 32)
  /-- R359: An overload or short while on limits the current to 1.1 A and sets LIMIT. -/
  | doOverload (n : Fin 8)
  /-- R359: The channel reaches 165 °C and latches off; after the 8th retry it sets FLT and writes DO_LATCHED. -/
  | doLatchOff (n : Fin 8)
  /-- R359: 100 ms after a latch-off, a channel still commanded on turns on again and counts a retry. -/
  | doRetry (n : Fin 8)
  /-- R359: 1 s after a retry without latch-off, RETRY resets and LIMIT clears. -/
  | doRetryReset (n : Fin 8)
  /-- R359: FIO_DO_CLR clears FLT so that the channel follows its command. -/
  | doFaultClear (v : BitVec 32)
  /-- R358: An on channel carrying under 5 mA for 10 ms sets OPENLD. -/
  | doOpenldSet (n : Fin 8)
  /-- R358: 5 mA or more for 10 ms clears OPENLD. -/
  | doOpenldClear (n : Fin 8)
  /-- R358: An off pin above 10 V for 1 ms sets EXT_DRIVE and writes DO_EXT_DRIVE. -/
  | doExtDriveSet (n : Fin 8)
  /-- R358: The pin at or below 10 V for 10 ms clears EXT_DRIVE. -/
  | doExtDriveClear (n : Fin 8)
  /-- R362: An input's sampled state has differed for FILT × 0.1 ms and its filtered state changes. -/
  | diFilteredChange (n : Fin 8)
  /-- R378: Every 1 ms the governor updates the envelope and thermal caps and moves each VID code one step toward its target. -/
  | governorTick (pwr : BitVec 12)
  /-- R395: A SYS_VREQn write stores the requested code, clamped to 50, effective from the next tick. -/
  | vreqWrite (n : Fin 4) (v : BitVec 32)
  /-- R381: Every 125 µs each sensor is sampled and its filtered value is updated and compared. -/
  | sensorSample (samples : List (BitVec 12))
  /-- R389: A read of THM_PEAK returns the peak and clears it. -/
  | thmPeakRead
  /-- R389: A read of THM_SLOWT returns the time in SLOW and clears it. -/
  | thmSlowtRead
  /-- R390: A read of SYS_GOVCNT returns the count and clears it. -/
  | sysGovcntRead
  /-- R132: A read of TWR_WAIT returns the wait count and clears it. -/
  | twrWaitRead (d : Fin 4) (n : Fin 8)
  /-- R132: A read of PLN_DISC returns the discard count and clears it. -/
  | plnDiscRead (d : Fin 4) (n : Fin 8)
  /-- R132: A read of PLN_FOLDFLUSH returns the flush count and clears it. -/
  | plnFoldflushRead (d : Fin 4) (n : Fin 8)
  /-- R157: A read of LNT_STALL returns the stall count and clears it. -/
  | lntStallRead (d : Fin 4) (n : Fin 8)
  /-- R157: A read of LNT_STEPS returns the issue count and clears it. -/
  | lntStepsRead (d : Fin 4) (n : Fin 8)
  /-- R398: A source's record enters the fault log when a slot is free, takes its FSEQ and triggers the error-Bell adds. -/
  | faultRecordLog (i : Nat)
  /-- R400: H pushes a log record into the fault queue once that queue takes it, freeing it under AUTO. -/
  | faultQueueDeliver
  /-- R400: A SYS_FLOG_HEAD write frees records up to the new head, unless automatic freeing is active. -/
  | flogHeadWrite (v : BitVec 32)
  /-- R404: A write to PCI_HB_WORD restarts the machine watchdog and clears the heartbeat STALE condition. -/
  | pciHbWordWrite (v : BitVec 32)
  /-- R404: A write of SYS_WD sets the period and action and restarts the machine watchdog. -/
  | sysWdWrite (v : BitVec 32)
  /-- R404: The machine watchdog expires, writes WDOG_EXPIRED and acts as ACT selects. -/
  | machineWdogExpiry
  /-- R405: SYS_RECOV OP 1 with the key resumes the machine from HALT to RUN, or is refused with REFUSED. -/
  | resumeAction (v : BitVec 32)
  /-- R406: SYS_RECOV OP 2 with the key resets the part as an RST_N pulse does and sets RECOV. -/
  | resetAction (v : BitVec 32)
  /-- R243: During a retrain attempt or the first training, an endpoint's lanes regain lock and deskew (or reset their handshake), and the endpoint sends its RESUME CTRL flit. -/
  | blockLockAcquired (e : Ep)
  /-- R328: A MAC's PHY link goes down, so the transmitter waits and the 100 ms close timer starts, or it comes up, so ETH_STAT.LINK is set and waiting frames are sent. -/
  | ethLinkChange (m : Fin 2) (up : Bool) (speed : BitVec 3)
  /-- R304: The pause time of a received PAUSE frame runs out and the MAC's held transmitter resumes sending. -/
  | pauseTimerExpiry (m : Fin 2)
  /-- R321: The IMOD interval of a session's completion ring ends, and MSI-X vector s is signalled for frames written while it ran. -/
  | msixImodExpiry (s : Fin 16)
  /-- R326: PCIE_PERST_N rises, so the PCI Express endpoint leaves reset and trains its link. -/
  | pciePerstRelease
  /-- R334: After a break, or a deep wake with Un_RX low, Un_RX has been 1 for one bit time and the receiver again looks for a start bit. -/
  | uartRxHighBitTime (u : Fin 4)
  deriving DecidableEq, Repr

end Sys2Proof
end

