-- ==== Sys2Proof/Decode.lean ====
section
/-! DEFINITION. The commands that a word spells by the table's bits. The table gives the bits of no row: the commands are
operations and events of the part, and none is spelt by a word. -/

namespace Sys2Proof

/-- The command that a word of nbits bits spells: the table gives bits to no row, so no word spells one. -/
def decodeTableWord (_nbits _w : Nat) : Option Instr := none

end Sys2Proof
end

