-- ==== Sys2Proof/Config.lean ====
section
/-! DEFINITION. What the spec leaves open: every constant here is opaque, so that no proof can see its value and
every claim holds for each of them. -/

namespace Sys2Proof

/-- Free byte number n (log entry 2): a byte the spec calls unspecified. -/
opaque Config.freeByte : Nat → Byte

/-- Free word number n (log entry 2): a word the spec calls unspecified. -/
opaque Config.freeWord : Nat → Word

/-- Free choice number n (log entry 2): a choice between two outcomes the spec allows. -/
opaque Config.freeBool : Nat → Bool

/-- The byte an LPDDR address reads as when nothing has written it since the contents were last not promised
(11 R272, R273); the first argument counts those losses (log entry 6). -/
opaque Config.lpddrFill : Nat → Nat → Byte

/-- The candidates the part's own algorithms give for the nonlinear functions of 06 R150 in binary32, whose bits the
manual does not publish. A candidate outside the published bound is not taken (log entry 20). -/
opaque Config.exp32 : Word → Word
/-- 06 R150, LN in binary32. -/
opaque Config.ln32 : Word → Word
/-- 06 R150, SIGM in binary32. -/
opaque Config.sigm32 : Word → Word
/-- 06 R150, TANH in binary32. -/
opaque Config.tanh32 : Word → Word
/-- 06 R150, RCP in binary32. -/
opaque Config.rcp32 : Word → Word
/-- 06 R150, RSQRT in binary32. -/
opaque Config.rsqrt32 : Word → Word
/-- 06 R150, EXP in binary16 (in the low half of the word). -/
opaque Config.exp16 : Word → Word
/-- 06 R150, LN in binary16. -/
opaque Config.ln16 : Word → Word
/-- 06 R150, SIGM in binary16. -/
opaque Config.sigm16 : Word → Word
/-- 06 R150, TANH in binary16. -/
opaque Config.tanh16 : Word → Word
/-- 06 R150, RCP in binary16. -/
opaque Config.rcp16 : Word → Word
/-- 06 R150, RSQRT in binary16. -/
opaque Config.rsqrt16 : Word → Word

/-- The word FCLASS writes for an operand: 08 R196 says it classifies a binary32 value and gives no codes
(log entry 21). -/
opaque Config.fclass : Word → Word

/-- The requester port in the ADDR_ERROR record of the update engine: 09 Table 9-6 gives it no port (log entry 22). -/
opaque Config.updPort : Word

/-- Which neighbour of an inexact signed quotient DIV and REM take when an operand is negative: 08 R191 gives no rounding
for them (log entry 43). -/
opaque Config.divAway : Word → Word → Bool

/-- Whether Ed25519 verification checks the equation with the cofactor, as RFC 8032 section 5.1.7 lets it (log entry 44). -/
opaque Config.edCofactor : Bool

/-- The requester port in the ADDR_ERROR record of mover m: 09 Table 9-6 gives the movers no port (log entry 22). -/
opaque Config.moverPort : Nat → Word

/-- The cells of Dome banks whose retention account is spent (04 R104; log entry 52), as any list of cells. -/
opaque Config.decayedBytes : Nat → List (Nat × Byte)

/-- What a C-die whose VCORE moved too fast tells others of its time base and of its faults (16 R376; log entry 23). -/
opaque Config.slewedWord : Nat → Word

/-- The PCI Express Subsystem IDs that an image gives, from the first bytes of its slot (13 R301; log entry 76). -/
opaque Config.subsystemIds : List Byte → BitVec 32

/-- The bytes of a flash slot whose writing was interrupted (12 R295; log entry 2), as any list of cells. -/
opaque Config.slotBytes : Nat → List (Nat × Byte)

end Sys2Proof
end

