-- ==== Sys2Proof/Machine/State.lean ====
section
/-! DEFINITION. The state of one BG-84 package as plain data, and the state after reset. Collections of like units are
lists of (number, unit) pairs with rising numbers; a unit that is not listed is in its reset state. -/

namespace Sys2Proof.Machine

/-- A byte memory: rising addresses, no entry equal to the byte that an unlisted address reads as. -/
abbrev Mem := List Host.Cell

/-- A collection of units by number, numbers rising; an unlisted number holds the collection's reset unit. -/
abbrev Tab (α : Type) := List (Nat × α)

/-- No command ends the model's run with a fault: the BG-84 reports faults as records and enters a machine state
(01 R32, 17 R397), which are next states. The type has no constructor, so nobody raises one: safe. -/
inductive Fault where
  deriving DecidableEq, Repr

/-- The refusals. -/
inductive Refusal where
  /-- Raised by an arm of the dispatch whose command has no meaning in this model yet; safe, since nothing is claimed
  of what the hardware does there. -/
  | notModelled (mnemonic : String)
  deriving DecidableEq, Repr

/-- Machine states, 01 Table 1-10. -/
inductive MState where
  | reset | boot | run | halt | safe
  deriving DecidableEq, Repr, Inhabited

/-- What a unit, a core or an interface waits for or is told by: who issued an operation that is held somewhere.
`remote ep ch tid src addr` is a request that arrived at link endpoint `ep` on channel `ch` (10 R237, R238), with header word 1
and its address, which its response carries back; `boot` is the boot sequencer or an
engine of H that needs no answer. -/
inductive Origin where
  | spire (d n : Nat)
  | frontEnd (d q : Nat)
  | unit (u : UnitRef)
  | host (s : Nat) (reqid : Word)
  | remote (ep ch : Nat) (tid : BitVec 16) (src : Word) (addr : Nat)
  | wupd (s : Nat) (reqid : Word)
  | update
  | faultQueue
  | eventQueue
  /-- a write of the boot sequencer -/
  | bootWrite
  /-- a write of frame n of stream k of CSI-2 receiver r; that of its status names the READY Bell to add to -/
  | camera (r k n : Nat) (ready : Option Nat)
  /-- an entry that serial port u puts into its receive ring, with the Bell named READY to add to -/
  | serialIn (u ready : Nat)
  /-- the next entry of the transmit ring of port u, since its start number gen -/
  | serialOut (u gen : Nat)
  | boot
  deriving DecidableEq, Repr, Inhabited

/-! ### Domes (chapter 4) -/

/-- Bank states, 04 Table 4-2. -/
inductive BankState where
  | blank | prog | standby | active | fault
  deriving DecidableEq, Repr, Inhabited

/-- A command as its unit holds it: the eight words, the SEQ of its entry, and the queue and the die it came from
(09 R214). -/
structure UnitCmd where
  w : List Word := []
  seq : Word := 0
  queue : Nat := 0
  die : Nat := 0
  deriving DecidableEq, Repr, Inhabited

/-- A command that has done its work and whose completion has not been written yet (09 R215). `posted` says that its
record waits in the completion queue's list of pushes. -/
structure Done where
  opc : BitVec 4 := 0
  status : Byte := 0
  counters : Word := 0
  result : Word := 0
  ctl : Word := 0
  seq : Word := 0
  queue : Nat := 0
  die : Nat := 0
  posted : Bool := false
  deriving DecidableEq, Repr, Inhabited

/-- A programming of a bank, from the command's taking until its end (04 R93, R97). One of the boot sequencer's (12 R288) has its
block staged at `src` from the flash at `block` and stays when it has failed; `tries` counts its failures, 9 once its slot
attempt is over. -/
structure PgmJob where
  cmd : UnitCmd := {}
  src : Nat := 0
  digAt : Option Nat := none
  digest : List Byte := []
  boot : Bool := false
  tries : Nat := 0
  block : Nat := 0
  deriving DecidableEq, Repr, Inhabited

/-- One bank of a Dome (04 R82, R88, R103, R104; 12 R288 for the recorded digest). Its weight bytes are in `CDie.domeMem`. -/
structure Bank where
  st : BankState := .blank
  count : Nat := 0
  marginLow : Bool := false
  digest : List Byte := []
  /-- the retention account (R104): samples of 125 us since it started, each weighted by its temperature band -/
  aged : Nat := 0
  job : Option PgmJob := none
  deriving DecidableEq, Repr, Inhabited

/-- A Dome: its banks, the persisted selection bit, its command queue and the command it executes (04 R90, R97-R99). -/
structure Dome where
  b0 : Bank := {}
  b1 : Bank := {}
  sel : Bool := false
  cmdq : BitVec 7 := 0
  /-- the queue in force until the command in execution ends, where `cmdq` has been written meanwhile -/
  cmdqWas : Option (BitVec 7) := none
  cmd : Option UnitCmd := none
  /-- the SWAP or VERIFY in `cmd` waits for programming (R97) -/
  deferred : Bool := false
  /-- the VERIFY in `cmd` runs on the digest engine (R99) -/
  verifying : Bool := false
  doneQ : List Done := []
  deriving DecidableEq, Repr, Inhabited

/-! ### Towers and Plinths (chapter 5) -/

/-- One accumulator (05 R110): sum and error words, the next-segment counter, the term count. -/
structure Acc where
  sum : Word := 0
  err : Word := 0
  next : BitVec 16 := 0
  cnt : Nat := 0
  deriving DecidableEq, Repr, Inhabited

/-- A tagged pair on its way into a Plinth (05 R108, 04 R83): `src` is 0 for the Tower and d + 1 for Dome d. In an int8
pair `hi` is the integer tree sum. -/
structure Pair where
  idx : Nat
  seg : BitVec 16
  hi : Word
  lo : Word
  isInt : Bool
  src : Nat
  deriving DecidableEq, Repr, Inhabited

/-- A chain receive buffer (05 R125): the rows that have arrived, each a list of (sum, err, count). -/
structure ChainBuf where
  chid : BitVec 16
  m : Nat
  n : Nat
  rows : Tab (List (Word × Word × Nat))
  broken : Bool
  deriving DecidableEq, Repr, Inhabited

structure Tower where
  cmdq : BitVec 7 := 0
  /-- the queue in force until the command in execution ends, where `cmdq` has been written meanwhile -/
  cmdqWas : Option (BitVec 7) := none
  flags : BitVec 4 := 0
  wait : Word := 0
  cmd : Option UnitCmd := none
  doneQ : List Done := []
  deriving DecidableEq, Repr, Inhabited

structure Plinth where
  acc : Tab Acc := []
  /-- the rows in INT mode, rising; every other row is in FP mode -/
  intRows : List Nat := []
  held : List Pair := []
  towerPort : List Pair := []
  domePort : List Pair := []
  chainBufs : List ChainBuf := []
  /-- the input that opened a receive buffer last (02 R39) -/
  chainRr : Nat := 0
  cmdq : BitVec 7 := 0
  /-- the queue in force until the command in execution ends, where `cmdq` has been written meanwhile -/
  cmdqWas : Option (BitVec 7) := none
  seed : Word := 0
  /-- the seed with the chip's bits that the generators started from, those that have advanced since, and whether a write
  of the seed waits for the next operation (03 R69, R75) -/
  genSeed : Word := 0
  gens : Tab Word := []
  reseed : Bool := false
  runmax : Word := 0
  longSum : Bool := false
  disc : Word := 0
  foldflush : Word := 0
  cmd : Option UnitCmd := none
  /-- the DRAIN, READT or CHAIN in `cmd` has started and waits for its rows to settle (R113) -/
  settling : Bool := false
  /-- the CHAIN in `cmd` has settled and waits for the incoming tile (R124) -/
  awaiting : Bool := false
  /-- the first row and the number of rows of the DRAIN, READT or CHAIN that runs or has done its work and is not completed
  yet (R119) -/
  read : Option (Nat × Nat) := none
  /-- rows of the outgoing tile that NEXT has not taken yet, rows sent to another chip and not answered, and the status
  and counter word that the CHAIN will complete with (R124) -/
  outRows : List (Nat × List (Word × Word × Nat)) := []
  chainSent : Nat := 0
  chainStat : Byte := 0
  chainCnt : Word := 0
  doneQ : List Done := []
  deriving DecidableEq, Repr, Inhabited

/-! ### Lanterns (chapter 6) -/

/-- The state of an executing RUN (06 R139, R144, R145, R151, R156): `inChain` says that the instruction before had CH = 1;
`lane` holds the next lane-program instruction and how many are left. -/
structure LnRun where
  pc : Nat
  rep : Nat
  p : List Word
  rm : BitVec 3
  sat : Nat
  flush : Nat
  longSum : Bool
  inChain : Bool
  lane : Option (Nat × Nat)
  deriving DecidableEq, Repr, Inhabited

/-- A transaction taken whole (10 R235, R236): sixteen header words and the payload words. -/
structure Txn where
  hdr : List Word
  data : List Word
  deriving DecidableEq, Repr, Inhabited

/-- An address-space access that waits while a RUN executes (06 R158): whose it is, for a REGISTER_WRITE its requester, device
address and value, and for a request that came over a link its endpoint and its transaction. -/
structure HeldAccess where
  who : Origin
  reg : Option (Requester × Nat × Word) := none
  txn : Option (Nat × Txn) := none
  deriving DecidableEq, Repr, Inhabited

structure Lantern where
  /-- word w of tile register tj under number 256 j + w -/
  tile : Tab Word := []
  k : Nat := 0
  cmdq : BitVec 7 := 0
  /-- the queue in force until the command in execution ends, where `cmdq` has been written meanwhile -/
  cmdqWas : Option (BitVec 7) := none
  seed : Word := 0
  genSeed : Word := 0
  gens : Tab Word := []
  reseed : Bool := false
  flags : BitVec 4 := 0
  dz : Bool := false
  stall : Word := 0
  steps : Word := 0
  lastpc : BitVec 12 := 0
  cmd : Option UnitCmd := none
  run : Option LnRun := none
  held : List HeldAccess := []
  /-- the input whose waiting access proceeded last (02 R39) -/
  heldRr : Nat := 0
  doneQ : List Done := []
  deriving DecidableEq, Repr, Inhabited

/-! ### Spires (chapter 8) -/

/-- SPR_STAT.STATE, 08 Table 8-9. -/
inductive SpState where
  | held | running | waiting | halted
  deriving DecidableEq, Repr, Inhabited

/-- What a WAITING Spire waits for (08 R193). -/
inductive SpWaitKind where
  | qpush | qpop | badd | bwait | waitt
  deriving DecidableEq, Repr, Inhabited

/-- A waiting instruction (08 R193, R194; 10 R240): its rd, the payload address, its target or time, its deadline, whether
its target lies on another die, and whether it was abandoned and waits for the target's answer (`abandon` is 0 none, 1 by
TIMER, 2 by RUN = 0, 3 by HALT). -/
structure SpWait where
  kind : SpWaitKind
  rd : Nat
  name : BitVec 16
  addr : Word
  target : Time
  dl : Option Time
  remote : Bool
  abandon : Nat
  deriving DecidableEq, Repr, Inhabited

/-- An access that left local memory (08 R188): the load's destination and kind, the Spire address, the device address,
and the answer once there is one. `size` is 1, 2 or 4 bytes. -/
structure MeshAcc where
  rd : Nat
  isStore : Bool
  signed : Bool
  size : Nat
  addr : Word
  dev : BitVec 48
  value : Word
  /-- it waits at a Lantern whose RUN executes (06 R158) -/
  held : Bool
  answer : Option (Byte × Word)
  deriving DecidableEq, Repr, Inhabited

structure Spire where
  /-- g0-g7 under numbers 0-7, w0-w15 of window k under 8 + 16 k up -/
  regs : Tab Word := []
  pc : Word := 0
  cwp : Nat := 0
  live : Nat := 1
  ie : Bool := false
  xpc : Word := 0
  acause : BitVec 4 := 0
  xcode : Byte := 0
  xcwp : BitVec 3 := 0
  xcause : Word := 0
  xwin : BitVec 3 := 0
  xbase : BitVec 9 := 0
  rm : BitVec 3 := 0
  fflags : BitVec 5 := 0
  farseg : BitVec 17 := 0
  tcmp : Time := 0xFFFF_FFFF_FFFF_FFFF
  dl : Time := 0
  st : SpState := .held
  hcause : BitVec 4 := 0
  runBit : Bool := false
  entry : BitVec 14 := 0
  xbaserst : BitVec 9 := 0
  wtraps : Word := 0
  wait : Option SpWait := none
  mesh : Option MeshAcc := none
  /-- words of local memory written since the last IFLUSH, with a word that a fetch may still return (R189) -/
  stale : List (Nat × Word) := []
  deriving DecidableEq, Repr, Inhabited

/-! ### Bells and queues (chapter 9) -/

/-- A wait held at a Bell (09 R207); `sat` says that an add or a set has satisfied it. -/
structure Waiter where
  who : Origin
  target : Word
  sat : Bool
  deriving DecidableEq, Repr, Inhabited

structure Bell where
  count : Word := 0
  poisoned : Bool := false
  waiters : List Waiter := []
  chips : Byte := 0
  dies : BitVec 6 := 0
  deriving DecidableEq, Repr, Inhabited

/-- A push that waits at a queue (09 R211): body, header words 0 and 1, and who pushed. -/
structure Push where
  who : Origin
  hdr0 : Word
  hdr1 : Word
  body : List Word
  deriving DecidableEq, Repr, Inhabited

/-- The WAIT or RING entry that a queue's front-end holds (09 R213). -/
structure FeHold where
  w : List Word
  seq : Word
  /-- 0 taken, 1 waiting (WAIT held at its Bell, or RING waiting for earlier commands), 2 completion waits in COMPQ, 3 that
  of a malformed entry does, 4 RING's add is on its way to another die or chip -/
  phase : Nat
  /-- the status of an operation that has ended in HALT, on which the front-end acts when the machine runs again -/
  ended : Option Nat := none
  deriving DecidableEq, Repr, Inhabited

structure Queue where
  base : BitVec 19 := 0
  en : Bool := false
  esize : Bool := false
  ldepth : BitVec 4 := 0
  hwm : BitVec 12 := 0
  hwen : Bool := false
  hwbell : Byte := 0
  stopped : Bool := false
  /-- entries held; the oldest has number seq - occ, and entry i lies in slot i mod 2^LDEPTH (R209) -/
  occ : Nat := 0
  seq : Word := 0
  hwcnt : Word := 0
  disc : Word := 0
  pushes : List Push := []
  /-- the input whose waiting push was taken last (02 R39) -/
  rr : Nat := 0
  pops : List Origin := []
  fe : Option FeHold := none
  /-- SEQ of each command passed to the consumer and not completed yet (09 R213) -/
  open_ : List Word := []
  deriving DecidableEq, Repr, Inhabited

/-! ### The per-die fabric registers (chapter 2) and a C-die -/

structure SysDie where
  refclkLost : Bool := false
  speedValid : Bool := false
  /-- the last two aligned 1 us windows in which REFCLK_IN was lost, the later first, and how many windows had passed when the last
  completed one was reported (02 R53) -/
  speedBad : List Nat := []
  speedSeen : Nat := 0
  rate : BitVec 16 := 0
  stallEn : Bool := false
  stallLimit : BitVec 16 := 0
  stallCnt : Word := 0
  stallPort : BitVec 16 := 0
  episodes : List (BitVec 16) := []
  deriving DecidableEq, Repr, Inhabited

/-- Everything a compute die holds (01 Table 1-1). -/
structure CDie where
  sys : SysDie := {}
  vault : Mem := []
  vaultClearing : Bool := true
  /-- Vault words with bit errors, by word number: true for an uncorrectable one (11 R257) -/
  vaultErr : Tab Bool := []
  vcorr : Word := 0
  vaddr : BitVec 25 := 0
  domeMem : Mem := []
  spireMem : Mem := []
  lnPmem : Mem := []
  domes : Tab Dome := []
  towers : Tab Tower := []
  plinths : Tab Plinth := []
  lanterns : Tab Lantern := []
  spires : Tab Spire := []
  bells : Tab Bell := []
  queues : Tab Queue := []
  /-- the die ran outside R376: everything it holds or computes is unspecified until RESET (16 R376) -/
  slewed : Bool := false
  deriving DecidableEq, Repr, Inhabited

/-- What a C-die holds once its VCORE has changed too fast: unspecified as a whole (16 R376, log entry 23). -/
opaque slewedDie : Nat → CDie

/-! ### Naldy link (chapter 10) -/

/-- NLD_EP_STAT.STATE. -/
inductive EpState where
  | down | training | up | closed
  deriving DecidableEq, Repr, Inhabited

/-- A transaction of which pairs are still missing. -/
structure Partial where
  vc : Nat
  hdr : List Word
  data : List Word
  missing : Nat
  deriving DecidableEq, Repr, Inhabited

/-- A flit that waits to be sent: FK, VC and body (10 R232); its SEQ is given when it is sent. The header of a request carries the
request's number with its party, `ask` (0 for every other flit), and takes its TID as it leaves (10 R237). -/
structure TxFlit where
  fk : Nat
  vc : Nat
  ptag : BitVec 5
  body : List Word
  ask : Nat := 0
  deriving DecidableEq, Repr, Inhabited

structure Endp where
  en : Bool := false
  ssc : Bool := false
  st : EpState := .down
  fails : Nat := 0
  erx : Byte := 0
  err : BitVec 5 := 0
  crc : Word := 0
  replay : Word := 0
  retrain : Word := 0
  dup : Word := 0
  cstall : Word := 0
  /-- next SEQ to send, and the flits sent and not acknowledged, oldest first -/
  sseq : Byte := 0
  sent : List (Byte × TxFlit) := []
  sameReplays : Nat := 0
  /-- credits this end holds to send, per channel REQ, RSP, CHN, SYS -/
  credits : List Nat := [0, 0, 0, 0]
  /-- flits of each channel that this end's receive buffer holds -/
  used : List Nat := [0, 0, 0, 0]
  /-- credits freed and not returned yet -/
  owe : List Nat := [0, 0, 0, 0]
  ptag : List (BitVec 5) := [0, 0, 0, 0]
  pair1 : Option TxFlit := none
  sinceAck : Nat := 0
  partials : List Partial := []
  rx : List Txn := []
  txq : List TxFlit := []
  /-- lanes locked in the attempt in progress -/
  locked : Bool := false
  neighbour : Option (BitVec 3) := none
  /-- a CTRL flit that waits for the second half of a pair: 1 an acknowledgement, 2 a NAK, 0 none -/
  ctrl : Nat := 0
  /-- the endpoint has been UP since RST_N -/
  wasUp : Bool := false
  /-- per channel the input whose request or response left last, and the channel of the last flit (02 R39) -/
  rr : List Nat := [0, 0, 0, 0]
  rrVc : Nat := 0
  deriving DecidableEq, Repr, Inhabited

/-- A request to a party (10 R237): channel, TID, who asked here, the request itself; `sent` once its header has left,
from when it has its TID and is outstanding. -/
structure Outst where
  ch : Nat
  tid : BitVec 16
  who : Origin
  txn : Txn
  sent : Bool
  /-- the endpoint it was given to -/
  ep : Nat
  /-- its number among the requests to the party -/
  ask : Nat := 0
  deriving DecidableEq, Repr, Inhabited

/-- One entry of a replay window (10 R238): the response once recorded. -/
structure WinEntry where
  ch : Nat
  tid : BitVec 16
  resp : Option Txn
  /-- duplicates that wait for the response (R238) -/
  dups : Nat
  deriving DecidableEq, Repr, Inhabited

/-- What is kept per sending party: a neighbouring chip (numbers 0-7) or an in-package endpoint (10 R237, R238). -/
structure Party where
  /-- requests given to the party's links so far, sent or not -/
  asked : Nat := 0
  nextTid : List (BitVec 16) := [0, 0, 0, 0]
  outst : List Outst := []
  window : List WinEntry := []
  /-- channel and TID of requests on their way that HALT has stopped (08 R201): taken, they have no effect -/
  void : List (Nat × BitVec 16) := []
  /-- numbers of requests not sent yet which a CANCEL follows as soon as they have left (10 R240, 13 R313) -/
  calledOff : List Nat := []
  deriving DecidableEq, Repr, Inhabited

/-- What the link endpoints of such a die, and what they keep of their parties, then hold, and what those endpoints send (16 R376, log
entry 23). -/
opaque slewedEndp : Nat → Endp
opaque slewedParty : Nat → Party
opaque slewedFlit : Nat → Flit

structure Nld where
  tmaster : Bool := false
  chip : BitVec 3 := 0
  route : Word := 0
  lock : Bool := false
  isoChips : Byte := 0
  isoDies : BitVec 6 := 0
  tofs : Time := 0
  tvalid : Bool := false
  hops : BitVec 3 := 0
  /-- the chip that masters the time, once an exchange has completed (R247) -/
  master : BitVec 3 := 0
  /-- the exchange that this chip answered last and heeds: port, T1, T2 and T3 (R247); those it has begun stand among the requests
  outstanding -/
  tsOpen : Option (Nat × Time × Time × Time) := none
  /-- when NLD_TOFS was set last -/
  tsAt : Time := 0
  eps : Tab Endp := []
  parties : Tab Party := []
  /-- dies of other chips of which an ISOLATED answer has told: chip and die (log entry 74) -/
  farIso : List (Nat × Nat) := []
  /-- operations of other dies and chips that are held here under a deadline (R240) -/
  holds : List (Origin × Time) := []
  deriving DecidableEq, Repr, Inhabited

/-! ### Memory controller and movers (chapter 11) -/

inductive MemState where
  | off | training | ready | failed
  deriving DecidableEq, Repr, Inhabited

/-- A COPY whose rows cross to other dies or chips: the row in flight, whether it waits for its read (1) or its write (2). -/
structure CopyRun where
  row : Nat
  phase : Nat
  /-- the row's bytes, once read -/
  buf : Option (List Byte)
  /-- the status of a request of this row that ended in an error -/
  bad : Nat := 0
  deriving DecidableEq, Repr, Inhabited

structure Mover where
  en : Bool := false
  die : BitVec 2 := 0
  queue : BitVec 7 := 0
  /-- EN, DIE and QUEUE in force until the command in execution ends, where they have been written meanwhile -/
  was : Option (Bool × BitVec 2 × BitVec 7) := none
  last : Byte := 0
  cmd : Option UnitCmd := none
  run : Option CopyRun := none
  doneQ : List Done := []
  deriving DecidableEq, Repr, Inhabited

/-- What one 64-byte burst meets on the LPDDR link (11 R263): a single-bit error, or an error that this many reads in a row
detect and cannot correct (log entry 38). -/
inductive LinkErr where
  | clean | single | failing (reads : Nat)
  deriving DecidableEq, Repr, Inhabited

structure MemCtl where
  cfg : Word := 0
  st : MemState := .off
  reflost : Bool := false
  psize : BitVec 4 := 0
  refm : BitVec 2 := 0
  tfail : BitVec 16 := 0
  rdb : Word := 0
  wrb : Word := 0
  lecc : Word := 0
  /-- LPDDR bytes written since the contents were last not promised; `epoch` counts those losses (R272, R273) -/
  lpddr : Mem := []
  epoch : Nat := 0
  /-- the model's own: what the next bursts meet on the link, in their order; bursts beyond the list meet nothing -/
  linkErrs : List LinkErr := []
  movers : Tab Mover := []
  deriving DecidableEq, Repr, Inhabited

/-! ### Boot (chapter 12) -/

/-- What the flash on the boot interface tells by SFDP (12 R276): the log2 of its density, its octal DDR tables and rates, and
whether it has a 1-1-4 fast read. -/
structure FlashDev where
  present : Bool := false
  dens : Nat := 0
  densPow2 : Bool := true
  /-- SFDP holds an xSPI Profile 1.0 table and a Command Sequences to Change to Octal DDR table; the MHz that the former
  lists; a 1-1-4 fast read in the 4-byte Address Instruction Table -/
  profile1 : Bool := false
  octalSeq : Bool := false
  rates : List Nat := []
  quad : Bool := false
  deriving DecidableEq, Repr, Inhabited

/-- A section entry (12 Table 12-3). -/
structure Section where
  kind : Nat
  param : Nat
  ofs : Nat
  len : Nat
  dest : Nat
  digest : List Byte
  deriving DecidableEq, Repr, Inhabited

/-- One-time programmable memory (12 R282). -/
structure Otp where
  keyhash : List Byte := []
  kvalid : Bool := false
  rbcnt : BitVec 64 := 0
  /-- PCI Express identity (13 Table 13-1) -/
  vendorId : BitVec 16 := 0
  deviceId : BitVec 16 := 0
  deriving DecidableEq, Repr, Inhabited

/-- A write that the boot sequencer has to make: where, the bytes, and whether the image may ask for it (12 R280). -/
structure BootWrite where
  addr : Nat
  data : List Byte
  good : Bool := true
  deriving DecidableEq, Repr, Inhabited

/-- The boot sequencer and the update engine (chapter 12). -/
structure Boot where
  phase : BitVec 4 := 0
  slot : Bool := false
  isOpen : Bool := false
  lskip : Bool := false
  causeA : Byte := 0xFF
  causeB : Byte := 0xFF
  /-- when the slot attempt in progress began -/
  attemptAt : Time := 0
  /-- the section being acted on, its writes still to make, whether one is under way, and the address and status of one that failed -/
  now : Option Section := none
  writes : List BootWrite := []
  wrAsk : Bool := false
  wrBad : Option (Nat × Nat) := none
  /-- banks whose blocks are being staged, and how far the release has come -/
  staged : List (Nat × Nat × Bool) := []
  rel : Nat := 0
  /-- dies whose staging bytes the sequencer has begun to write as zeros (R288) -/
  wiped : Nat := 0
  /-- what the registers that a REGS section has written held before, newest first, where no field's reset value says it (R291): die,
  offset in the register region, value -/
  undo : List (Nat × Nat × Word) := []
  /-- T_halt has been reached: no further programming token is granted (R299) -/
  paused : Bool := false
  /-- the OTP has been read (AUTH) -/
  otpRead : Bool := false
  flashMode : BitVec 2 := 0
  flashMHz : Byte := 0
  flashDens : BitVec 5 := 0
  time : Word := 0
  svn : BitVec 7 := 0
  progs : BitVec 12 := 0
  verifs : BitVec 12 := 0
  /-- the accepted header: SEED, PROVISION, the public key, and the section table -/
  seed : Word := 0
  provision : Bool := false
  pubkey : List Byte := []
  sections : List Section := []
  /-- the next Dome entry (die x 256 + Dome), and the sections still to load -/
  domeAt : Nat := 0
  todo : List Section := []
  later : List Section := []
  recorded : List (Nat × Nat × Bool) := []
  starts : List (Nat × Nat) := []
  fieldApplied : Bool := false
  /-- Spires the booted image started (17 R405) -/
  started : List (Nat × Nat) := []
  updSrc : BitVec 48 := 0
  updOfs : Word := 0
  updLen : Word := 0
  updBellEn : Bool := false
  updBell : BitVec 16 := 0
  updBusy : Option (Nat × Bool) := none
  /-- whether the slot of the command was GOOD before it -/
  updGood : Bool := false
  /-- bytes of SRC read over the links so far, and whether a read is outstanding -/
  updBuf : List Byte := []
  updAsk : Bool := false
  updBad : Bool := false
  goodA : Bool := false
  goodB : Bool := false
  updResult : Byte := 0xFF
  deriving DecidableEq, Repr, Inhabited

/-! ### Host and sensor interfaces (chapter 13) -/

/-- An endpoint that opens sessions (13 R313): the PCI Express function, or a MAC with a source address and a VLAN ID, which an
untagged frame has none of. -/
inductive HostEp where
  | pcie
  | eth (mac : Nat) (src : BitVec 48) (vlan : Option (BitVec 12))
  deriving DecidableEq, Repr, Inhabited

/-- A transaction frame: eight header words and the payload (13 R309). -/
structure Frame where
  h : List Word
  data : List Byte
  deriving DecidableEq, Repr, Inhabited

/-- A frame that waits for the engine, with its endpoint and its arrival (13 R312). -/
structure InFrame where
  ep : HostEp
  f : Frame
  at_ : Time
  deriving DecidableEq, Repr, Inhabited

/-- A request in progress (13 R312, R314): its frame, when it arrived, how many duplicates wait for its completion, and
whether it is an access that waits at its target. -/
structure HostReq where
  reqid : Word
  f : Frame
  arrived : Time
  dups : Nat
  /-- the engine has cancelled it: 0 no, 1 at its deadline, 2 for a close -/
  cancel : Nat
  stalled : Bool := false
  deriving DecidableEq, Repr, Inhabited

/-- A frame that waits to be sent to a session, with the number of the log record it delivers, if it does (17 R400). -/
structure OutFrame where
  f : Frame
  record : Option Word
  deriving DecidableEq, Repr, Inhabited

structure Session where
  owner : Option HostEp := none
  sub : Bool := false
  evseq : Word := 0
  hbseq : Word := 0
  /-- completion cache, oldest insertion first: the request's header, the status and the payload of its completion -/
  cache : List (Frame × Byte × List Byte) := []
  outst : List HostReq := []
  /-- a close in progress: with the CLOSE to answer, or `some none` where no completion is written (R327, R328) -/
  closing : Option (Option Frame) := none
  /-- when that CLOSE arrived -/
  closeAt : Time := 0
  toSend : List OutFrame := []
  sqTail : BitVec 10 := 0
  sqHead : BitVec 10 := 0
  cqBase : BitVec 64 := 0
  cqImod : BitVec 16 := 0
  cqLsize : BitVec 5 := 0
  cqWb : BitVec 64 := 0
  cqHead : BitVec 18 := 0
  /-- the ring in force since the session opened -/
  liveBase : BitVec 64 := 0
  liveImod : BitVec 16 := 0
  liveLsize : BitVec 5 := 0
  liveWb : BitVec 64 := 0
  /-- ring tail, in units of 64 bytes -/
  cqTail : Nat := 0
  imodRun : Bool := false
  msixDue : Bool := false
  deriving DecidableEq, Repr, Inhabited

structure Mac where
  cfg : Word := 0
  mac : BitVec 48 := 0
  etype : BitVec 16 := 0
  /-- the configuration in force since EN went to 1 -/
  liveCfg : Word := 0
  liveMac : BitVec 48 := 0
  liveEtype : BitVec 16 := 0
  link : Bool := false
  speed : BitVec 3 := 0
  mdio : Word := 0
  /-- the management frame that runs -/
  mdioFrame : Word := 0
  rxok : Word := 0
  other : Word := 0
  fcserr : Word := 0
  ovrn : Word := 0
  unsent : Word := 0
  pauseSent : Bool := false
  txHeld : Bool := false
  /-- frames that wait for the transmitter, oldest first, with their destination and VLAN ID -/
  txq : List ((BitVec 48 × Option (BitVec 12)) × OutFrame) := []
  lastOvrn : Option Time := none
  deriving DecidableEq, Repr, Inhabited

/-- A frame that a stream is receiving (13 R306). `write` is false for an unsolicited one; `line` counts the lines that
have come, `lines` those written. -/
structure CsiCur where
  write : Bool
  number : Word
  line : Nat
  lines : Nat
  crcErrs : Nat
  eccs : Nat
  oversize : Bool
  start : Time
  deriving DecidableEq, Repr, Inhabited

/-- CSI_SCFG, CSI_SBASE, CSI_SSLOT, CSI_SLSTR and CSI_SBELL of a stream. -/
structure CsiStreamRegs where
  scfg : Word := 0
  sbase : Word := 0
  sslot : Word := 0
  slstr : Word := 0
  sbell : Word := 0
  deriving DecidableEq, Repr, Inhabited

structure Stream where
  regs : CsiStreamRegs := {}
  /-- the configuration in force since its EN went from 0 to 1 -/
  live : Option CsiStreamRegs := none
  n : Nat := 0
  pulses : Nat := 0
  cur : Option CsiCur := none
  deriving DecidableEq, Repr, Inhabited

/-- CSI_CFG, CSI_TRIG and CSI_TPER of a receiver. -/
structure CsiRegs where
  cfg : Word := 0
  trig : Word := 0
  tper : Word := 0
  deriving DecidableEq, Repr, Inhabited

structure CsiRx where
  regs : CsiRegs := {}
  live : Option CsiRegs := none
  unsol : Word := 0
  late : Word := 0
  eccerr : Word := 0
  lastPulse : Option Time := none
  streams : Tab Stream := []
  deriving DecidableEq, Repr, Inhabited

/-- The host side of H (13). -/
structure HostIf where
  sessions : Tab Session := []
  /-- transaction frames the engine has not taken yet, oldest first -/
  inbox : List InFrame := []
  /-- the submission rings (13 R320), by BAR2 offset -/
  rings : Mem := []
  /-- the MSI-X table of BAR0, by word number (13 Table 13-9, log entry 35) -/
  msixTab : Tab Word := []
  /-- pending bits of the masked vectors that have been signalled -/
  pba : BitVec 64 := 0
  baddb : Bool := false
  sessEn : Word := 0
  evq : Word := 0
  wupdQ : Word := 0
  wupdLast : Word := 0
  /-- sessions and request ids of the accesses that have reached the LPDDR controller and wait there for REFCLK_IN, in the order in which
  they did (11 R260) -/
  stallQ : List (Nat × Word) := []
  /-- WUPD requests waiting for the engine, oldest first (13 R318) -/
  wupds : List (Nat × Word) := []
  /-- bytes of a bundle read so far, whether a read is outstanding, and the status of one that failed -/
  wupdBuf : List Byte := []
  wupdAsk : Bool := false
  wupdBad : Option Byte := none
  /-- the bundle has passed, and its hand-over is being pushed -/
  wupdPush : Bool := false
  hbCtl : BitVec 10 := 0
  hbWord : Word := 0
  /-- PCI_HB_WORD written since the previous heartbeat (13 R316) -/
  hbFresh : Bool := false
  crcerr : Word := 0
  dup : Word := 0
  busy : Word := 0
  tbHi : Word := 0
  perst : Bool := true
  macs : Tab Mac := []
  csi : Tab CsiRx := []
  deriving DecidableEq, Repr, Inhabited

/-! ### Serial ports (chapter 14) -/

inductive UartState where
  | off | active | catch_ | deep
  deriving DecidableEq, Repr, Inhabited

/-- UART_CFG, UART_BAUD, UART_RXRING, UART_TXRING, UART_RXBELL, UART_TXBELL and UART_WAKE as they are in force (14 R344). -/
structure UartCfg where
  cfg : Word := 0
  baud : Word := 0
  rxring : Word := 0
  txring : Word := 0
  rxbell : Word := 0
  txbell : Word := 0
  wake : Word := 0
  deriving DecidableEq, Repr, Inhabited

structure Uart where
  cfg : Word := 0
  baud : Word := 0
  rxring : Word := 0
  txring : Word := 0
  rxbell : Word := 0
  txbell : Word := 0
  wake : Word := 0
  st : UartState := .off
  cfgerr : Bool := false
  held : Option (BitVec 16) := none
  ovrn : Word := 0
  fe : Word := 0
  pe : Word := 0
  brk : Word := 0
  wakes : Word := 0
  rxk : Nat := 0
  txk : Nat := 0
  txBusy : Bool := false
  /-- the receiver waits for Un_RX to be 1 for one bit time (R334, R343) -/
  waitHigh : Bool := false
  /-- a deep wake is in progress (R343) -/
  waking : Bool := false
  ctsHigh : Bool := false
  /-- when the last bit left Un_TX (R340) -/
  lastTx : Option Time := none
  /-- since when Un_RX has been idle (R341) -/
  idleFrom : Time := 0
  /-- the port has been enabled since RESET, so that its pins are driven (R346, R347) -/
  driven : Bool := false
  /-- when HALT came, while a character in progress may still end (R348) -/
  stopAt : Option Time := none
  /-- the configuration as the last accepted EN brought it into force, and the counts of FREE and AVAIL at that moment (R344,
  R346) -/
  live : UartCfg := {}
  freeFrom : Word := 0
  availFrom : Word := 0
  lastOvrn : Option Time := none
  /-- accepted ENs so far; a read of the next transmit entry is under way, and the entry it has brought -/
  gen : Nat := 0
  txAsk : Bool := false
  txGot : Option (BitVec 16) := none
  /-- the port goes OFF once the character being sent has left; EN = 1 written meanwhile acts then (R347, R348; log entry 53) -/
  stopping : Bool := false
  enWait : Bool := false
  /-- from when the receiver has looked for a start bit after a break or a deep wake (R334, R343) -/
  hearFrom : Option Time := none
  deriving DecidableEq, Repr, Inhabited

/-! ### Field die (chapter 15) -/

inductive FState where
  | rsafe | live | fsafe
  deriving DecidableEq, Repr, Inhabited

structure Ao where
  en : Bool := false
  safem : BitVec 2 := 0
  code : BitVec 16 := 0
  meas : BitVec 16 := 0
  vloop : BitVec 12 := 0
  vhead : BitVec 12 := 0
  openLoop : Bool := false
  compliance : Bool := false
  loopuv : Bool := false
  /-- the code the channel regulates to (0 with the source off), R353, R355 -/
  out : BitVec 16 := 0
  deriving DecidableEq, Repr, Inhabited

structure DoCh where
  flt : Bool := false
  ext : Bool := false
  openld : Bool := false
  limit : Bool := false
  retry : Nat := 0
  /-- latched off by its temperature, awaiting the retry or with FLT -/
  off : Bool := false
  /-- the state commanded in the present F state: by FIO_DO_CMD, or the safe value -/
  on : Bool := false
  deriving DecidableEq, Repr, Inhabited

structure DiCh where
  type3 : Bool := false
  filt : Byte := 0
  state : Bool := false
  /-- when the filtered state last changed, or F started (R362) -/
  changed : Time := 0
  deriving DecidableEq, Repr, Inhabited

structure FDie where
  powered : Bool := true
  st : FState := .rsafe
  cause : BitVec 3 := 0
  pend : BitVec 6 := 0
  report : MState := .reset
  /-- machine states that H has entered and not reported to F yet, oldest first (R350) -/
  reports : List MState := []
  vfield : BitVec 12 := 0
  wd : BitVec 10 := 0
  /-- when the output watchdog last restarted (R364) -/
  wdFrom : Time := 0
  /-- the time base has stood since then, so that F's own oscillator is ahead of it (R349; log entry 27) -/
  wdLoose : Bool := false
  /-- cause CMD has arisen in BOOT, where F stays in RSAFE (R351, R366; log entry 70) -/
  cmdDue : Bool := false
  /-- F started again after its link was isolated: it stays in RSAFE (R368, R369; DEDUCED, log entry 29) -/
  lone : Bool := false
  ao : Tab Ao := []
  doCmd : Byte := 0
  doSafe : BitVec 16 := 0
  doSlew : BitVec 16 := 0
  dout : Tab DoCh := []
  di : Tab DiCh := []
  /-- the time base has stood since that channel's filtered state changed (R349, R362; log entry 27) -/
  diLoose : Byte := 0
  edge : BitVec 16 := 0
  evt : Word := 0
  deriving DecidableEq, Repr, Inhabited

/-! ### Supplies and heat (chapter 16) -/

/-- One threshold of a sensor (16 R383): its flag and the lengths of the present runs at or above it and at or below it
minus 4 degrees. -/
structure Thresh where
  flag : Bool := false
  above : Nat := 0
  below : Nat := 0
  deriving DecidableEq, Repr, Inhabited

structure Sensor where
  /-- the last samples, newest first, at most 8 -/
  samples : List (BitVec 12) := []
  filt : BitVec 12 := 0
  valid : Bool := false
  warn : Thresh := {}
  slow : Thresh := {}
  halt : Thresh := {}
  deriving DecidableEq, Repr, Inhabited

structure Power where
  /-- rails within tolerance after power-up; rails below their brown-out threshold -/
  powered : Bool := false
  good : Bool := false
  low : List Rail := []
  rstN : Bool := false
  rstOutN : Bool := false
  /-- levels of the balls TEST0-TEST3 (18 R416), as they were last given -/
  test : BitVec 4 := 0
  /-- widths in ns of the pulses with which the next events at filtered inputs come, oldest first; an event past their end is a level that
  stays (16 R388, log entry 11) -/
  pulses : List Nat := []
  /-- SYS_RSTCAUSE -/
  rstcause : BitVec 14 := 1
  limit : BitVec 7 := 0
  unmet : Bool := false
  pwr : BitVec 12 := 0
  vreq : List (BitVec 6) := [30, 30, 30, 30]
  /-- the requests as the governor took them at its last tick (16 R395) -/
  vreqOn : List (BitVec 6) := [30, 30, 30, 30]
  vapp : List (BitVec 6) := [30, 30, 30, 30]
  /-- SYS_VREQn has been written since RESET was left (R377) -/
  asked : List Bool := [false, false, false, false]
  capE : List Nat := [50, 50, 50, 50]
  capT : List Nat := [50, 50, 50, 50]
  govcnt : Word := 0
  slew : BitVec 12 := 0
  sensors : Tab Sensor := []
  peak : BitVec 12 := 0x800
  slowt : Word := 0
  /-- the millisecond of the time base that THM_SLOWT last counted -/
  slowMs : Option Nat := none
  deriving DecidableEq, Repr, Inhabited

/-! ### Faults (chapter 17) -/

/-- A record held at its source (17 R399), with whatever must be added to Bells when it is logged. -/
structure HeldRec where
  w : List Word
  deriving DecidableEq, Repr, Inhabited

/-- The rate limit of one agent's ADDR_ERROR records (17 R399): when it last made a record, and how many events since
then wait to be counted in the next one. -/
structure AddrLimit where
  agent : Nat
  last : Time
  waiting : Nat
  deriving DecidableEq, Repr, Inhabited

structure Faults where
  /-- the 256 slots of SYS_FLOG, by slot -/
  log : Tab (List Word) := []
  head : Word := 0
  tail : Word := 0
  held : List HeldRec := []
  addrLimits : List AddrLimit := []
  auto : Bool := false
  qEn : Bool := false
  qDie : BitVec 2 := 0
  qQueue : BitVec 7 := 0
  bellEn : Bool := false
  bell : BitVec 16 := 0
  /-- the next record for the fault queue, and the next to offer to the host -/
  qNext : Word := 0
  hostNext : Word := 0
  fesc : Bool := false
  hkind : BitVec 16 := 0
  hmask : BitVec 6 := 0
  wdAct : BitVec 2 := 0
  wdPeriod : BitVec 16 := 0
  wdFrom : Time := 0
  refused : Bool := false
  deriving DecidableEq, Repr, Inhabited

/-- What the block sends out: the model's own record of it (log entry 3). -/
inductive Output where
  /-- data returned by a register read -/
  | read (v : Word)
  /-- a frame, or a pad header, written to session s's ring in host memory, and the new tail written back (13 R321) -/
  | cqFrame (s : Nat) (addr : BitVec 64) (f : Frame)
  | cqPad (s : Nat) (addr : BitVec 64)
  | cqTail (s : Nat) (addr : BitVec 64) (tail : Nat)
  /-- a frame sent by a MAC: addresses, the VLAN ID of its tag if it has one, EtherType and the transaction frame -/
  | macFrame (m : Nat) (dst src : BitVec 48) (vlan : Option (BitVec 12)) (etype : BitVec 16) (f : Frame)
  | pause (m : Nat) (quanta : BitVec 16)
  | mdio (m : Nat) (v : Word)
  | msix (v : Nat)
  | trigger (r : Nat) (high : Bool) (us : Nat)
  /-- a character sent: its entry, and the levels of Un_TX bit by bit (in IrDA by sixteenths of a bit) -/
  | txChar (u : Nat) (entry : BitVec 16) (line : List Bool)
  /-- a character clocked in synchronous mode: its entry, and Un_SCK and Un_TX by half periods -/
  | syncChar (u : Nat) (entry : BitVec 16) (halves : List (Bool × Bool))
  | flit (e : Ep) (f : Flit)
  | resume (e : Ep) (erx : Byte) (credits : List Nat) (chip : BitVec 3)
  | iso (p : Nat) (chip : BitVec 3)
  deriving DecidableEq, Repr, Inhabited

/-- The whole state. -/
structure State where
  pending : List Instr := []
  free : Nat := 0
  outputs : List Output := []
  mstate : MState := .reset
  tb : Time := 0
  /-- REFCLK_IN edges have started this time base since RST_N was released; REFCLK_IN counts as present -/
  tbStarted : Bool := false
  refclk : Bool := true
  c0 : CDie := {}
  c1 : CDie := {}
  c2 : CDie := {}
  c3 : CDie := {}
  hsys : SysDie := {}
  /-- captured high words, by requester and source (02 R49; 10 R250) -/
  shadows : Tab Word := []
  /-- programming current tokens: the banks waiting, in order of arrival, and the banks that hold one (04 R94) -/
  tokenWait : List (Nat × Nat × Bool) := []
  tokenHeld : List (Nat × Nat × Bool) := []
  nld : Nld := {}
  mem : MemCtl := {}
  flash : Mem := []
  flashDev : FlashDev := {}
  otp : Otp := {}
  boot : Boot := {}
  host : HostIf := {}
  uarts : Tab Uart := []
  f : FDie := {}
  power : Power := {}
  faults : Faults := {}
  deriving DecidableEq, Repr

/-- The machine with its supplies off or in RESET since power-on (01 R32, 16 R390, 17 R407): every field at its reset
value. Dome records, OTP and flash are nonvolatile and hold what the log entries 7 and 8 say. -/
def State.reset : State := {}

end Sys2Proof.Machine
end

