-- ==== Sys2Proof/Machine/Bits.lean ====
section
/-! DEFINITION. Bit fields, byte order, the byte memory and the collections of units. -/

namespace Sys2Proof.Machine

/-! ### Collections by number -/

/-- Unit k of a collection, the reset unit where none is listed. -/
def tabGet {α : Type} (d : α) : Tab α → Nat → α
  | [], _ => d
  | (j, v) :: t, k => if j = k then v else tabGet d t k

/-- The collection with unit k replaced. -/
def tabSet {α : Type} : Tab α → Nat → α → Tab α
  | [], k, v => [(k, v)]
  | (j, u) :: t, k, v =>
    if k = j then (k, v) :: t
    else if k < j then (k, v) :: (j, u) :: t
    else (j, u) :: tabSet t k v

/-- The entry listed under k, if one is. -/
def tabFind? {α : Type} : Tab α → Nat → Option α
  | [], _ => none
  | (j, v) :: t, k => if j = k then some v else tabFind? t k

/-! ### Byte memory in canonical form -/

/-- The byte at address a; `fill` is what an unlisted address reads as. -/
def memRead (fill : Byte) : Mem → Nat → Byte
  | [], _ => fill
  | (b, v) :: t, a => if b = a then v else if a < b then fill else memRead fill t a

/-- The memory with the byte at address a written; a byte equal to `fill` is not listed. -/
def memWrite (fill : Byte) : Mem → Nat → Byte → Mem
  | [], a, v => if v = fill then [] else [(a, v)]
  | (b, u) :: t, a, v =>
    if a = b then (if v = fill then t else (a, v) :: t)
    else if a < b then (if v = fill then (b, u) :: t else (a, v) :: (b, u) :: t)
    else (b, u) :: memWrite fill t a v

/-- Every entry lies above a, addresses rise, and none equals what an unlisted address reads as. -/
def memWfFrom (fill : Byte) : Nat → Mem → Bool
  | _, [] => true
  | lo, (b, v) :: t => decide (lo ≤ b) && decide (v ≠ fill) && memWfFrom fill (b + 1) t

/-- The canonical form of a memory. -/
def memWf (fill : Byte) (m : Mem) : Bool := memWfFrom fill 0 m

/-- n bytes from address a up out of entries none of which lies below a. -/
def memWalk (fill : Byte) : Mem → Nat → Nat → List Byte
  | _, _, 0 => []
  | [], a, n + 1 => fill :: memWalk fill [] (a + 1) n
  | (b, v) :: t, a, n + 1 => if b = a then v :: memWalk fill t (a + 1) n else fill :: memWalk fill ((b, v) :: t) (a + 1) n

/-- The entries below a, and those from a up. -/
def memBelow (m : Mem) (a : Nat) : Mem := m.filter (fun c => decide (c.1 < a))
def memFrom (m : Mem) (a : Nat) : Mem := m.filter (fun c => decide (a ≤ c.1))

/-- n bytes from address a up. -/
def memBytes (fill : Byte) (m : Mem) (a n : Nat) : List Byte := memWalk fill (memFrom m a) a n

/-- The entries that bytes from address a up come to. -/
def memCells (fill : Byte) : Nat → List Byte → Mem
  | _, [] => []
  | a, b :: bs => if b = fill then memCells fill (a + 1) bs else (a, b) :: memCells fill (a + 1) bs

/-- Bytes written from address a up. -/
def memPut (fill : Byte) (m : Mem) (a : Nat) (bs : List Byte) : Mem :=
  memBelow m a ++ memCells fill a bs ++ memFrom m (a + bs.length)

/-! ### Memory whose unlisted bytes are unspecified (LPDDR, log entry 6): every written byte is listed -/

/-- The byte listed at address a. -/
def memFind? : Mem → Nat → Option Byte
  | [], _ => none
  | (b, v) :: t, a => if b = a then some v else if a < b then none else memFind? t a

/-- The byte at address a listed. -/
def memList : Mem → Nat → Byte → Mem
  | [], a, v => [(a, v)]
  | (b, u) :: t, a, v =>
    if a = b then (a, v) :: t else if a < b then (a, v) :: (b, u) :: t else (b, u) :: memList t a v

/-- Addresses rise. -/
def memRises : Nat → Mem → Bool
  | _, [] => true
  | lo, (b, _) :: t => decide (lo ≤ b) && memRises (b + 1) t

/-! ### Little-endian values, 00 R428 -/

/-- The number that bytes hold, the lowest address first. -/
def leNat : List Byte → Nat
  | [] => 0
  | b :: bs => b.toNat + 256 * leNat bs

/-- n bytes of a number, the lowest first. -/
def natLe : Nat → Nat → List Byte
  | 0, _ => []
  | n + 1, v => BitVec.ofNat 8 v :: natLe n (v / 256)

/-- A word from four bytes. -/
def leWord (bs : List Byte) : Word := BitVec.ofNat 32 (leNat bs)

/-- The four bytes of a word. -/
def wordLe (w : Word) : List Byte := natLe 4 w.toNat

/-- Bytes cut into words; a rest of fewer than four is dropped. -/
def toWords : Nat → List Byte → List Word
  | 0, _ => []
  | n + 1, bs => leWord (bs.take 4) :: toWords n (bs.drop 4)

/-- The bytes of words. -/
def ofWords : List Word → List Byte
  | [] => []
  | w :: ws => wordLe w ++ ofWords ws

/-! ### Fields -/

/-- Bits [hi:lo] of a word as a number (00 R6). -/
def field (w : Word) (hi lo : Nat) : Nat := w.toNat / 2 ^ lo % 2 ^ (hi + 1 - lo)

/-- Bit i of a word. -/
def bit (w : Word) (i : Nat) : Bool := w.toNat / 2 ^ i % 2 = 1

/-- Word i of a command, 0 beyond its end. -/
def wordAt (ws : List Word) (i : Nat) : Word := ws.getD i 0

/-- 1 or 0. -/
def b2n (b : Bool) : Nat := if b then 1 else 0

/-- A word from a number. -/
def w32 (n : Nat) : Word := BitVec.ofNat 32 n

/-- Two words as one 64-bit value, the lower word first (00 R428). -/
def joinTime (lo hi : Word) : Time := hi ++ lo

def loWord (t : Time) : Word := t.extractLsb' 0 32
def hiWord (t : Time) : Word := t.extractLsb' 32 32

/-- The value as a signed number. -/
def signed (w n : Nat) : Int := if n % 2 ^ w < 2 ^ (w - 1) then (n % 2 ^ w : Nat) else (n % 2 ^ w : Nat) - (2 ^ w : Nat)

/-- A counter that saturates at 0xFFFF_FFFF. -/
def satAdd (c : Word) (n : Nat) : Word := if c.toNat + n ≥ 0xFFFF_FFFF then 0xFFFF_FFFF else w32 (c.toNat + n)

/-- Numbers from a up, n of them. -/
def countFrom (a : Nat) : Nat → List Nat
  | 0 => []
  | n + 1 => a :: countFrom (a + 1) n

/-- 0 to n - 1. -/
def upTo (n : Nat) : List Nat := countFrom 0 n

/-- The list with entry i replaced. -/
def listSet {α : Type} (l : List α) (i : Nat) (v : α) : List α := l.set i v

end Sys2Proof.Machine
end

