-- ==== Sys2Proof/Machine/Crc.lean ====
section
/-! DEFINITION. The two checks: CRC-32C of a transaction frame (13 R309) and CRC-16 of a flit (10 R232). -/

namespace Sys2Proof.Machine

/-- n shifts of a reflected CRC register, low bit out. -/
def crcShift (poly : Nat) : Nat → Nat → Nat
  | 0, c => c
  | n + 1, c => crcShift poly n (if c % 2 = 1 then (c / 2) ^^^ poly else c / 2)

def crc32cFrom : Nat → List Byte → Nat
  | c, [] => c
  | c, b :: bs => crc32cFrom (crcShift 0x82F63B78 8 (c ^^^ b.toNat)) bs

/-- CRC-32C: polynomial 0x1EDC_6F41 reflected, initial value and final XOR of all ones (13 R309). -/
def crc32c (bs : List Byte) : Word := w32 (crc32cFrom 0xFFFFFFFF bs ^^^ 0xFFFFFFFF)

/-- n shifts of a 16-bit CRC register, high bit out, polynomial 0x1021. -/
def crc16Shift : Nat → Nat → Nat
  | 0, c => c
  | n + 1, c => crc16Shift n (if c / 32768 % 2 = 1 then (c * 2 % 65536) ^^^ 0x1021 else c * 2 % 65536)

def crc16From : Nat → List Byte → Nat
  | c, [] => c
  | c, b :: bs => crc16From (crc16Shift 8 (c ^^^ (b.toNat * 256))) bs

/-- CRC-16 with initial value 0xFFFF, no reflection and no final XOR. -/
def crc16 (bs : List Byte) : Nat := crc16From 0xFFFF bs

end Sys2Proof.Machine
end

