-- ==== Sys2Proof/Machine/Flags.lean ====
section
/-! DEFINITION. The exceptions of an IEEE operation, the flag words they go to, and the per-operation counters. -/

namespace Sys2Proof.Machine

/-- The five IEEE 754 exceptions an operation raises (03 R65). -/
structure Exc where
  nv : Bool := false
  dz : Bool := false
  ov : Bool := false
  uf : Bool := false
  nx : Bool := false
  deriving DecidableEq, Repr, Inhabited

def excNone : Exc := {}
def excNv : Exc := { nv := true }
def excDz : Exc := { dz := true }

/-- Both operations' exceptions. -/
def excOr (a b : Exc) : Exc :=
  { nv := a.nv || b.nv, dz := a.dz || b.dz, ov := a.ov || b.ov, uf := a.uf || b.uf, nx := a.nx || b.nx }

/-- FCSR[4:0]: NV, DZ, OF, UF, NX from the highest bit down (08 Table 8-8). -/
def excFcsr (e : Exc) : BitVec 5 :=
  BitVec.ofNat 5 (16 * b2n e.nv + 8 * b2n e.dz + 4 * b2n e.ov + 2 * b2n e.uf + b2n e.nx)

/-- Flags of 03 Table 3-7: INV, OVF, UNF, INX from bit 3 down. -/
abbrev TFlags := BitVec 4

def fINV : TFlags := 8
def fOVF : TFlags := 4
def fUNF : TFlags := 2
def fINX : TFlags := 1

/-- The flags of R76 that an IEEE operation of a Lantern sets; divide-by-zero goes to LNT_STAT.DZ (06 R148). -/
def excTensor (e : Exc) : TFlags :=
  BitVec.ofNat 4 (8 * b2n e.nv + 4 * b2n e.ov + 2 * b2n e.uf + b2n e.nx)

/-- What an operation adds to its flag register and its counter word (03 R76, R77): flags, saturations, flushes, and
whether an IEEE divide-by-zero occurred. -/
structure Tally where
  flags : TFlags := 0
  sat : Nat := 0
  flush : Nat := 0
  dz : Bool := false
  deriving DecidableEq, Repr, Inhabited

def tallyAdd (a b : Tally) : Tally :=
  { flags := a.flags ||| b.flags, sat := a.sat + b.sat, flush := a.flush + b.flush, dz := a.dz || b.dz }

def tallyFlags (f : TFlags) : Tally := { flags := f }

/-- A nonzero value was flushed: UNF and one flush (03 R66). -/
def tallyFlush : Tally := { flags := fUNF, flush := 1 }

/-- The counter word, both counters saturating at 0xFFFF (03 Table 3-8). -/
def counterWord (sat flush : Nat) : Word := w32 (min sat 0xFFFF * 65536 + min flush 0xFFFF)

end Sys2Proof.Machine
end

