-- ==== Sys2Proof/Machine/Float.lean ====
section
/-! DEFINITION. IEEE 754-2019 binary32 and binary16 arithmetic on bit patterns, exact before one rounding (03 R65). -/

namespace Sys2Proof.Machine

/-- An interchange format: exponent bits and trailing significand bits. -/
structure FFmt where
  eb : Nat
  mb : Nat
  deriving DecidableEq, Repr

def b32 : FFmt := ⟨8, 23⟩
def b16 : FFmt := ⟨5, 10⟩

/-- A floating-point datum: a NaN (signalling or quiet), an infinity, or the exact value (-1)^s · m · 2^e. -/
inductive FVal where
  | nan (sig : Bool)
  | inf (s : Bool)
  | fin (s : Bool) (m : Nat) (e : Int)
  deriving DecidableEq, Repr, Inhabited

def fBias (f : FFmt) : Nat := 2 ^ (f.eb - 1) - 1
/-- Least normal exponent. -/
def fEmin (f : FFmt) : Int := 1 - (fBias f : Int)
def fEmax (f : FFmt) : Int := fBias f
def fSignBit (f : FFmt) (s : Bool) : Nat := b2n s * 2 ^ (f.eb + f.mb)
def fInf (f : FFmt) (s : Bool) : Nat := fSignBit f s + (2 ^ f.eb - 1) * 2 ^ f.mb
def fMaxFin (f : FFmt) (s : Bool) : Nat := fInf f s - 1
def fZero (f : FFmt) (s : Bool) : Nat := fSignBit f s
/-- The default NaN: 0x7FC0_0000 in binary32, 0x7E00 in binary16 (03 R65). -/
def fNaN (f : FFmt) : Nat := fInf f false + 2 ^ (f.mb - 1)

/-- The datum of a bit pattern. -/
def unpack (f : FFmt) (x : Nat) : FVal :=
  let s := x / 2 ^ (f.eb + f.mb) % 2 = 1
  let ex := x / 2 ^ f.mb % 2 ^ f.eb
  let fr := x % 2 ^ f.mb
  if ex = 2 ^ f.eb - 1 then (if fr = 0 then .inf s else .nan (fr < 2 ^ (f.mb - 1)))
  else if ex = 0 then .fin s fr (fEmin f - f.mb)
  else .fin s (2 ^ f.mb + fr) ((ex : Int) - fBias f - f.mb)

def isNaN (f : FFmt) (x : Nat) : Bool := match unpack f x with | .nan _ => true | _ => false
def isSig (f : FFmt) (x : Nat) : Bool := match unpack f x with | .nan s => s | _ => false
def isInf (f : FFmt) (x : Nat) : Bool := match unpack f x with | .inf _ => true | _ => false
def isFinite (f : FFmt) (x : Nat) : Bool := match unpack f x with | .fin _ _ _ => true | _ => false
def isZero (f : FFmt) (x : Nat) : Bool := match unpack f x with | .fin _ 0 _ => true | _ => false
def fSign (f : FFmt) (x : Nat) : Bool := x / 2 ^ (f.eb + f.mb) % 2 = 1
/-- A subnormal: nonzero, below the least normal magnitude. -/
def isSub (f : FFmt) (x : Nat) : Bool := decide (x / 2 ^ f.mb % 2 ^ f.eb = 0) && decide (x % 2 ^ f.mb ≠ 0)

/-- The NaN with its quiet bit set. -/
def quiet (f : FFmt) (x : Nat) : Nat := if x / 2 ^ (f.mb - 1) % 2 = 1 then x else x + 2 ^ (f.mb - 1)

/-! ### Rounding attributes, 06 R148 -/

/-- Whether the magnitude n + rem/2^sh (0 ≤ rem < 2^sh) of sign s rounds up to n + 1 under attribute rm: 0 ties to even,
1 ties away, 2 toward positive, 3 toward negative, 4 toward zero. -/
def roundsUp (rm : Nat) (s : Bool) (n rem sh : Nat) : Bool :=
  if rm = 0 then decide (2 * rem > 2 ^ sh) || (decide (2 * rem = 2 ^ sh) && decide (n % 2 = 1))
  else if rm = 1 then decide (2 * rem ≥ 2 ^ sh)
  else if rm = 2 then !s && decide (rem ≠ 0)
  else if rm = 3 then s && decide (rem ≠ 0)
  else false

/-- m · 2^e rounded to a multiple of 2^q: the multiple, and whether it is inexact. -/
def roundQuantum (rm : Nat) (s : Bool) (m : Nat) (e q : Int) : Nat × Bool :=
  if q ≤ e then (m * 2 ^ (e - q).toNat, false)
  else
    let sh := (q - e).toNat
    let n := m / 2 ^ sh
    let rem := m % 2 ^ sh
    (if roundsUp rm s n rem sh then n + 1 else n, rem ≠ 0)

/-- The exponent of the highest bit of m · 2^e, for m > 0. -/
def topExp (m : Nat) (e : Int) : Int := (Nat.log2 m : Int) + e

/-- The result an overflow of sign s gives under rm. -/
def overflowBits (f : FFmt) (rm : Nat) (s : Bool) : Nat :=
  if rm = 4 || (rm = 2 && s) || (rm = 3 && !s) then fMaxFin f s else fInf f s

/-- (-1)^s · m · 2^e in format f, rounded once; tininess is detected after rounding (03 R65). -/
def roundTo (f : FFmt) (rm : Nat) (s : Bool) (m : Nat) (e : Int) : Nat × Exc :=
  if m = 0 then (fZero f s, excNone)
  else
    let E := topExp m e
    let q := (if E < fEmin f then fEmin f else E) - f.mb
    let r := roundQuantum rm s m e q
    let u := roundQuantum rm s m e (E - f.mb)
    let tiny := decide ((u.1 : Int) < 2 ^ (f.mb + 1)) && decide (E < fEmin f)
      || decide (E + 1 < fEmin f)
    let n := r.1
    if n < 2 ^ f.mb then
      (fSignBit f s + n, { uf := r.2, nx := r.2 })
    else
      let n' := if n = 2 ^ (f.mb + 1) then 2 ^ f.mb else n
      let q' := if n = 2 ^ (f.mb + 1) then q + 1 else q
      let ex := q' + f.mb + fBias f
      if ex > 2 * fBias f then (overflowBits f rm s, { ov := true, nx := true })
      else (fSignBit f s + ex.toNat * 2 ^ f.mb + (n' - 2 ^ f.mb), { uf := tiny && r.2, nx := r.2 })

/-- The default NaN with invalid. -/
def fInvalid (f : FFmt) : Nat × Exc := (fNaN f, excNv)

/-- The NaN rule of 03 R65: the first NaN operand, quieted; a signalling one signals invalid. -/
def nanResult (f : FFmt) : List Nat → Nat × Exc
  | [] => fInvalid f
  | x :: xs =>
    if isNaN f x then (quiet f x, { nv := isSig f x || xs.any (isSig f) })
    else
      let r := nanResult f xs
      (r.1, r.2)

/-- An exact signed sum m1·2^e1 + m2·2^e2 as a sign, a magnitude and an exponent. -/
def exactSum (s1 : Bool) (m1 : Nat) (e1 : Int) (s2 : Bool) (m2 : Nat) (e2 : Int) : Bool × Nat × Int :=
  let e := if e1 ≤ e2 then e1 else e2
  let a : Int := (m1 * 2 ^ (e1 - e).toNat : Nat)
  let b : Int := (m2 * 2 ^ (e2 - e).toNat : Nat)
  let t : Int := (if s1 then -a else a) + (if s2 then -b else b)
  (decide (t < 0), t.natAbs, e)

/-- The sign of a sum that is exactly zero. -/
def zeroSumSign (rm : Nat) (s1 s2 : Bool) : Bool := if s1 = s2 then s1 else rm = 3

def addVals (f : FFmt) (rm : Nat) (s1 : Bool) (m1 : Nat) (e1 : Int) (s2 : Bool) (m2 : Nat) (e2 : Int) : Nat × Exc :=
  let t := exactSum s1 m1 e1 s2 m2 e2
  if t.2.1 = 0 then (fZero f (zeroSumSign rm s1 s2), excNone) else roundTo f rm t.1 t.2.1 t.2.2

def fAdd (f : FFmt) (rm x y : Nat) : Nat × Exc :=
  match unpack f x, unpack f y with
  | .fin s1 m1 e1, .fin s2 m2 e2 => addVals f rm s1 m1 e1 s2 m2 e2
  | .inf s1, .inf s2 => if s1 = s2 then (fInf f s1, excNone) else fInvalid f
  | .inf s, .fin _ _ _ => (fInf f s, excNone)
  | .fin _ _ _, .inf s => (fInf f s, excNone)
  | _, _ => nanResult f [x, y]

/-- The sign changed, also of a NaN. -/
def fNeg (f : FFmt) (x : Nat) : Nat := if fSign f x then x - 2 ^ (f.eb + f.mb) else x + 2 ^ (f.eb + f.mb)
def fAbs (f : FFmt) (x : Nat) : Nat := x % 2 ^ (f.eb + f.mb)

def fSub (f : FFmt) (rm x y : Nat) : Nat × Exc :=
  if isNaN f x || isNaN f y then nanResult f [x, y] else fAdd f rm x (fNeg f y)

def fMul (f : FFmt) (rm x y : Nat) : Nat × Exc :=
  match unpack f x, unpack f y with
  | .fin s1 m1 e1, .fin s2 m2 e2 => roundTo f rm (s1 != s2) (m1 * m2) (e1 + e2)
  | .inf s1, .inf s2 => (fInf f (s1 != s2), excNone)
  | .inf s1, .fin s2 m _ => if m = 0 then fInvalid f else (fInf f (s1 != s2), excNone)
  | .fin s1 m _, .inf s2 => if m = 0 then fInvalid f else (fInf f (s1 != s2), excNone)
  | _, _ => nanResult f [x, y]

/-- x + y and x · y in binary32 for an exact integer x and a datum y, rounded once to nearest-even. -/
def fAddInt (x : Int) (y : Nat) : Nat × Exc :=
  match unpack b32 y with
  | .fin s m e => addVals b32 0 (decide (x < 0)) x.natAbs 0 s m e
  | .inf s => (fInf b32 s, excNone)
  | .nan _ => nanResult b32 [y]

def fMulInt (x : Int) (y : Nat) : Nat × Exc :=
  match unpack b32 y with
  | .fin s m e => roundTo b32 0 (decide (x < 0) != s) (x.natAbs * m) e
  | .inf s => if x = 0 then fInvalid b32 else (fInf b32 (decide (x < 0) != s), excNone)
  | .nan _ => nanResult b32 [y]

/-- Zero times infinity. -/
def zeroTimesInf (f : FFmt) (x y : Nat) : Bool := (isZero f x && isInf f y) || (isInf f x && isZero f y)

/-- x · y + z with one rounding; zero times infinity signals invalid even with a quiet NaN addend (03 R65). -/
def fFma (f : FFmt) (rm x y z : Nat) : Nat × Exc :=
  if isNaN f x || isNaN f y || isNaN f z then
    let r := nanResult f [x, y, z]
    (r.1, { nv := r.2.nv || zeroTimesInf f x y })
  else if zeroTimesInf f x y then fInvalid f
  else
    match unpack f x, unpack f y, unpack f z with
    | .fin s1 m1 e1, .fin s2 m2 e2, .fin s3 m3 e3 => addVals f rm (s1 != s2) (m1 * m2) (e1 + e2) s3 m3 e3
    | .fin _ _ _, .fin _ _ _, .inf s => (fInf f s, excNone)
    | _, _, .inf s =>
      if (fSign f x != fSign f y) = s then (fInf f s, excNone) else fInvalid f
    | _, _, _ => (fInf f (fSign f x != fSign f y), excNone)

def fDiv (f : FFmt) (rm x y : Nat) : Nat × Exc :=
  match unpack f x, unpack f y with
  | .fin s1 m1 e1, .fin s2 m2 e2 =>
    if m2 = 0 then (if m1 = 0 then fInvalid f else (fInf f (s1 != s2), excDz))
    else
      let k := f.mb + 4 + Nat.log2 m2
      let n := m1 * 2 ^ k
      roundTo f rm (s1 != s2) (2 * (n / m2) + b2n (decide (n % m2 ≠ 0))) (e1 - e2 - k - 1)
  | .inf _, .inf _ => fInvalid f
  | .inf s1, .fin s2 _ _ => (fInf f (s1 != s2), excNone)
  | .fin s1 _ _, .inf s2 => (fZero f (s1 != s2), excNone)
  | _, _ => nanResult f [x, y]

/-- The integer square root, from bit i down: the largest r + j, j < 2^(i+1), whose square is at most n. -/
def isqrtFrom (n : Nat) : Nat → Nat → Nat
  | 0, r => if (r + 1) * (r + 1) ≤ n then r + 1 else r
  | i + 1, r => isqrtFrom n i (if (r + 2 ^ (i + 1)) * (r + 2 ^ (i + 1)) ≤ n then r + 2 ^ (i + 1) else r)

def isqrt (n : Nat) : Nat := isqrtFrom n (Nat.log2 n / 2 + 1) 0

def fSqrt (f : FFmt) (rm x : Nat) : Nat × Exc :=
  match unpack f x with
  | .fin s m e =>
    if m = 0 then (x, excNone)
    else if s then fInvalid f
    else
      let k := 2 * (f.mb + 4) + (if e % 2 = 0 then 0 else 1)
      let n := m * 2 ^ k
      let r := isqrt n
      roundTo f rm false (2 * r + b2n (decide (r * r ≠ n))) ((e - k) / 2 - 1)
  | .inf s => if s then fInvalid f else (x, excNone)
  | .nan _ => nanResult f [x]

/-! ### Comparison, minimum, maximum -/

/-- x < y for data that are no NaN; the two zeros are equal. -/
def ltVal (a b : FVal) : Bool :=
  match a, b with
  | .fin s1 m1 e1, .fin s2 m2 e2 =>
    let e := if e1 ≤ e2 then e1 else e2
    let u : Int := (m1 * 2 ^ (e1 - e).toNat : Nat)
    let v : Int := (m2 * 2 ^ (e2 - e).toNat : Nat)
    decide ((if s1 then -u else u) < (if s2 then -v else v))
  | .inf s1, .inf s2 => s1 && !s2
  | .inf s, _ => s
  | _, .inf s => !s
  | _, _ => false

def fLt (f : FFmt) (x y : Nat) : Bool := ltVal (unpack f x) (unpack f y)

/-- The quiet predicates: the truth, and invalid for a signalling NaN operand only. -/
def cmpExc (f : FFmt) (x y : Nat) : Exc := { nv := isSig f x || isSig f y }
def unordered (f : FFmt) (x y : Nat) : Bool := isNaN f x || isNaN f y
def fCeq (f : FFmt) (x y : Nat) : Bool := !unordered f x y && !fLt f x y && !fLt f y x
def fClt (f : FFmt) (x y : Nat) : Bool := !unordered f x y && fLt f x y
def fCle (f : FFmt) (x y : Nat) : Bool := !unordered f x y && !fLt f y x

/-- minimumNumber and maximumNumber: a NaN yields to a number, -0 orders below +0. -/
def fMin (f : FFmt) (x y : Nat) : Nat × Exc :=
  if isNaN f x && isNaN f y then nanResult f [x, y]
  else if isNaN f x then (y, cmpExc f x y)
  else if isNaN f y then (x, cmpExc f x y)
  else if fLt f x y then (x, excNone)
  else if fLt f y x then (y, excNone)
  else (if fSign f x then x else y, excNone)

def fMax (f : FFmt) (x y : Nat) : Nat × Exc :=
  if isNaN f x && isNaN f y then nanResult f [x, y]
  else if isNaN f x then (y, cmpExc f x y)
  else if isNaN f y then (x, cmpExc f x y)
  else if fLt f x y then (y, excNone)
  else if fLt f y x then (x, excNone)
  else (if fSign f x then y else x, excNone)

/-! ### Conversions -/

/-- A float rounded to an integer under rm: the integer and whether it is inexact. -/
def toInt (rm : Nat) (s : Bool) (m : Nat) (e : Int) : Int × Bool :=
  let r := roundQuantum rm s m e 0
  ((if s then -(r.1 : Int) else (r.1 : Int)), r.2)

/-- FCVT.W.S and FCVT.WU.S: NaN gives 0, an out-of-range value the limit of its sign, both with NV alone (08 R190). -/
def fToInt (rm : Nat) (lo hi : Int) (x : Nat) : Int × Exc :=
  match unpack b32 x with
  | .nan _ => (0, excNv)
  | .inf s => (if s then lo else hi, excNv)
  | .fin s m e =>
    let r := toInt rm s m e
    if r.1 < lo then (lo, excNv) else if hi < r.1 then (hi, excNv) else (r.1, { nx := r.2 })

def intToF (f : FFmt) (rm : Nat) (v : Int) : Nat × Exc :=
  roundTo f rm (decide (v < 0)) v.natAbs 0

/-- A conversion between the long formats (03 Table 3-4, rule L). A NaN keeps its leading payload bits and is quieted
(DESIGN CHOICE, log entry 79). -/
def fToF (src dst : FFmt) (rm x : Nat) : Nat × Exc :=
  match unpack src x with
  | .fin s m e => if m = 0 then (fZero dst s, excNone) else roundTo dst rm s m e
  | .inf s => (fInf dst s, excNone)
  | .nan sig =>
    let q := quiet src x
    let fr := q % 2 ^ src.mb
    (fInf dst (fSign src x) + (if src.mb ≤ dst.mb then fr * 2 ^ (dst.mb - src.mb) else fr / 2 ^ (src.mb - dst.mb)),
      { nv := sig })

end Sys2Proof.Machine
end

