-- ==== Sys2Proof/Machine/Operands.lean ====
section
/-! DEFINITION. Operand forms: the short formats, the tree sum, the rounding lanes, conversions between formats, the
Plinth's compensated arithmetic and the running maximum (chapter 3; 05 R114). -/

namespace Sys2Proof.Machine

/-- The formats of 03 Table 3-1, W23 apart. -/
inductive NFmt where
  | v8 | g8 | b16 | b32 | i8 | i16 | i32
  deriving DecidableEq, Repr, Inhabited

/-- NCTL (03 Table 3-5). -/
structure NCtl where
  ovm : Bool
  sr : Bool
  iwrap : Bool
  deriving DecidableEq, Repr

def nctlOf (w : Word) : NCtl := { ovm := bit w 3, sr := bit w 2, iwrap := bit w 1 }

/-- Bytes of one element in memory. -/
def nfSize : NFmt → Nat
  | .v8 | .g8 | .i8 => 1
  | .b16 | .i16 => 2
  | .b32 | .i32 => 4

def nfIsInt : NFmt → Bool
  | .i8 | .i16 | .i32 => true
  | _ => false

def nfIsShort : NFmt → Bool
  | .v8 | .g8 => true
  | _ => false

/-- Width of an integer format in bits. -/
def nfBits (f : NFmt) : Nat := 8 * nfSize f

/-! ### V8 and G8 (R57, R58) -/

/-- Mantissa bits and bias of a short format. -/
def shortMant (f : NFmt) : Nat := if f = .v8 then 3 else 2
def shortBias (f : NFmt) : Nat := if f = .v8 then 8 else 16

/-- The value of a code; the no-number is a quiet NaN. -/
def shortVal (f : NFmt) (x : Nat) : FVal :=
  let s := x / 128 % 2 = 1
  let c := x % 128
  let e := c / 2 ^ shortMant f
  let m := c % 2 ^ shortMant f
  if c = 127 then .nan false
  else if e = 0 then .fin s 0 0
  else .fin s (2 ^ shortMant f + m) ((e : Int) - shortBias f - shortMant f)

/-- The value of an element of any format. -/
def elemVal (f : NFmt) (x : Nat) : FVal :=
  match f with
  | .v8 | .g8 => shortVal f x
  | .b16 => unpack b16 (x % 65536)
  | .b32 => unpack b32 x
  | .i8 => let v := signed 8 x; .fin (decide (v < 0)) v.natAbs 0
  | .i16 => let v := signed 16 x; .fin (decide (v < 0)) v.natAbs 0
  | .i32 => let v := signed 32 x; .fin (decide (v < 0)) v.natAbs 0

/-! ### Flushing (R66) -/

/-- Whether a nonzero value lies below the least normal magnitude 2^emin. -/
def belowNormal (m : Nat) (e emin : Int) : Bool := decide (m ≠ 0) && decide (topExp m e < emin)

/-- A binary32 pattern flushed. -/
def flush32 (x : Nat) : Nat × Tally := if isSub b32 x then (fZero b32 (fSign b32 x), tallyFlush) else (x, {})

/-- A value flushed as its format's subnormals are. -/
def flushVal (emin : Int) (v : FVal) : FVal × Tally :=
  match v with
  | .fin s m e => if belowNormal m e emin then (.fin s 0 0, tallyFlush) else (v, {})
  | _ => (v, {})

/-! ### The rounding generator (R68, R69) -/

def lfsrShift (s : Nat) : Nat :=
  let fb := (s / 2 ^ 31 + s / 2 ^ 21 + s / 2 + s) % 2
  (2 * s + fb) % 2 ^ 32

def lfsrSteps : Nat → Nat → Nat
  | 0, s => s
  | n + 1, s => lfsrSteps n (lfsrShift s)

/-- The state after lfsr_next12; its low 12 bits are the number drawn. -/
def lfsrNext12 (s : Word) : Word := w32 (lfsrSteps 12 s.toNat)

def laneIndex (chip die unit lane : Nat) : Nat := chip * 16384 + die * 4096 + unit * 512 + lane

/-- The state a generator is seeded with (R69). -/
def genInit (seed : Word) (index : Nat) : Word :=
  let s := seed ^^^ w32 index
  if s = 0 then 0xFFFF_FFFF else s

/-! ### Writing a short format (R67, R70) -/

/-- A result that overflows its short format (R70). -/
def shortOverflow (nc : NCtl) (s : Bool) : Nat × Tally :=
  (if nc.ovm then 0x7F else 0x7E + 128 * b2n s, { flags := fOVF ||| fINX, sat := 1 })

/-- Whether the magnitude n + rem/2^sh rounds up: nearest-even, or stochastically with the twelve bits r. -/
def shortUp (sr : Bool) (r n rem sh : Nat) : Bool :=
  if sr then decide (rem * 4096 / 2 ^ sh + r ≥ 4096) else roundsUp 0 false n rem sh

/-- (-1)^s · m · 2^e, m > 0, rounded to the quantum 2^q: the multiple and whether it is inexact. -/
def shortQuantum (sr : Bool) (r : Nat) (m : Nat) (e q : Int) : Nat × Bool :=
  if q ≤ e then (m * 2 ^ (e - q).toNat, false)
  else
    let sh := (q - e).toNat
    let n := m / 2 ^ sh
    let rem := m % 2 ^ sh
    (if shortUp sr r n rem sh then n + 1 else n, rem ≠ 0)

/-- A flushed value written in a short format (R67). -/
def roundShort (f : NFmt) (nc : NCtl) (r : Nat) (v : FVal) : Nat × Tally :=
  match v with
  | .nan _ => (0x7F, {})
  | .inf s => shortOverflow nc s
  | .fin s m e =>
    if m = 0 then (128 * b2n s, {})
    else
      let mb := shortMant f
      let E := topExp m e
      let q := shortQuantum nc.sr r m e (E - mb)
      let n := if q.1 = 2 ^ (mb + 1) then 2 ^ mb else q.1
      let x := (if q.1 = 2 ^ (mb + 1) then E + 1 else E) + shortBias f
      if x ≤ 0 then (128 * b2n s, tallyFlush)
      else
        let code := x.toNat * 2 ^ mb + (n - 2 ^ mb)
        if code ≥ 127 then shortOverflow nc s
        else (code + 128 * b2n s, if q.2 then tallyFlags fINX else {})

/-! ### Integers (R70) -/

def intLo (w : Nat) : Int := -(2 ^ (w - 1) : Nat)
def intHi (w : Nat) : Int := (2 ^ (w - 1) : Nat) - 1

/-- An integer as the pattern of a w-bit integer; only its low bits are kept. -/
def intBits (w : Nat) (v : Int) : Nat := (v % (2 ^ w : Nat)).toNat

/-- Integer narrowing: the limit, or the low bits with IWRAP. -/
def narrow (w : Nat) (nc : NCtl) (v : Int) : Nat × Tally :=
  if v < intLo w ∨ intHi w < v then
    if nc.iwrap then (intBits w v, tallyFlags (fOVF ||| fINX))
    else (intBits w (if v < 0 then intLo w else intHi w), { flags := fOVF ||| fINX, sat := 1 })
  else (intBits w v, {})

/-- A floating value into an integer of w bits (rule I of Table 3-4). -/
def valToInt (w : Nat) (nc : NCtl) (r : Nat) (v : FVal) : Nat × Tally :=
  match v with
  | .nan _ => (0, tallyFlags fINV)
  | .inf s => (intBits w (if s then intLo w else intHi w), tallyFlags fINV)
  | .fin s m e =>
    let q := shortQuantum nc.sr r m e 0
    let i : Int := if s then -(q.1 : Int) else q.1
    let o := narrow w nc i
    if intLo w ≤ i ∧ i ≤ intHi w ∧ q.2 then (o.1, tallyFlags fINX) else o

/-! ### Conversions (R73, Table 3-4) -/

/-- Rules R and I of Table 3-4, the ones that advance a generator while SR = 1 (R68). -/
def convDraws (src dst : NFmt) : Bool :=
  if src = dst then false
  else match src, dst with
    | .g8, .v8 => false
    | _, .v8 | _, .g8 => true
    | .v8, .i8 | .v8, .i16 | .v8, .i32 => true
    | .g8, .i8 | .g8, .i16 | .g8, .i32 => true
    | .b16, .i8 | .b16, .i16 | .b16, .i32 => true
    | .b32, .i8 | .b32, .i16 | .b32, .i32 => true
    | _, _ => false

/-- The least normal exponent of a source that R66 flushes, for a conversion between src and dst. -/
def convSource (src dst : NFmt) (x : Nat) : FVal × Tally :=
  if dst = .v8 || dst = .g8 || dst = .i8 then
    match src with
    | .b16 => flushVal (fEmin b16) (elemVal src x)
    | .b32 => flushVal (fEmin b32) (elemVal src x)
    | _ => (elemVal src x, {})
  else (elemVal src x, {})

/-- The exact integer an integer element holds. -/
def elemInt (src : NFmt) (x : Nat) : Int := signed (nfBits src) x

/-- A short value in a long format: exact, but G8 below the binary16 normal range is flushed (R73); the no-number
becomes the default NaN (log entry 24). -/
def shortToLong (dst : FFmt) (v : FVal) : Nat × Tally :=
  match v with
  | .nan _ => (fNaN dst, {})
  | .inf s => (fInf dst s, {})
  | .fin s m e => if belowNormal m e (fEmin dst) then (fZero dst s, tallyFlush) else ((roundTo dst 0 s m e).1, {})

/-- One element converted: the pattern of the result and what it adds to flags and counters. `rm` is the rounding
attribute for rule L, `r` the twelve bits drawn. -/
def convert (src dst : NFmt) (nc : NCtl) (rm r x : Nat) : Nat × Tally :=
  if src = dst then (x % 2 ^ nfBits src, {})
  else
    let v := convSource src dst x
    match dst with
    | .v8 | .g8 =>
      let o := roundShort dst nc r v.1
      (o.1, tallyAdd v.2 o.2)
    | .i8 | .i16 | .i32 =>
      if nfIsInt src then narrow (nfBits dst) nc (elemInt src x)
      else
        let o := valToInt (nfBits dst) nc r v.1
        (o.1, tallyAdd v.2 o.2)
    | .b16 | .b32 =>
      let df := if dst = .b16 then b16 else b32
      match src with
      | .v8 | .g8 => shortToLong df v.1
      | .b16 => let o := fToF b16 df rm (x % 65536); (o.1, tallyFlags (excTensor o.2))
      | .b32 => let o := fToF b32 df rm x; (o.1, tallyFlags (excTensor o.2))
      | _ => let o := intToF df rm (elemInt src x); (o.1, tallyFlags (excTensor o.2))

/-! ### The adder tree (R62) -/

/-- One operand of a product with its scale byte. -/
structure TOp where
  v : FVal
  k : Nat
  deriving DecidableEq, Repr

/-- A scaled product: no-number, infinity or exact value, and what forming it counts. -/
def treeProduct (a b : TOp) : FVal × Tally :=
  if a.k = 255 ∨ b.k = 255 then (.nan false, tallyFlags fINV)
  else match a.v, b.v with
    | .fin s1 m1 e1, .fin s2 m2 e2 =>
      let s := s1 != s2
      let m := m1 * m2
      let e := e1 + e2 + a.k + b.k - 254
      if m = 0 then (.fin s 0 0, {})
      else if topExp m e < -126 then (.fin s 0 0, tallyFlush)
      else if topExp m e ≥ 128 then (.inf s, tallyFlags fOVF)
      else (.fin s m e, {})
    | _, _ => (.nan false, {})

def treeProducts : List (TOp × TOp) → List FVal × Tally
  | [] => ([], {})
  | p :: ps =>
    let a := treeProduct p.1 p.2
    let r := treeProducts ps
    (a.1 :: r.1, tallyAdd a.2 r.2)

def valIsNaN : FVal → Bool
  | .nan _ => true
  | _ => false

def valIsInf (s : Bool) : FVal → Bool
  | .inf t => t == s
  | _ => false

/-- The largest exponent of a nonzero product. -/
def treeTop : List FVal → Option Int
  | [] => none
  | .fin _ m e :: ps =>
    if m = 0 then treeTop ps
    else match treeTop ps with
      | none => some (topExp m e)
      | some t => some (max t (topExp m e))
  | _ :: ps => treeTop ps

/-- The products floored to multiples of 2^g and added: the multiple. -/
def treeFloor (g : Int) : List FVal → Int
  | [] => 0
  | .fin s m e :: ps =>
    let n : Int :=
      if g ≤ e then (if s then -1 else 1) * (m * 2 ^ (e - g).toNat : Nat)
      else (if s then -(m : Int) else m) / (2 ^ (g - e).toNat : Nat)
    n + treeFloor g ps
  | _ :: ps => treeFloor g ps

/-- An exact value n · 2^e as a binary32 pattern, flushed when subnormal. The value is representable (R62). -/
def exact32 (n e : Int) : Nat × Tally :=
  if n = 0 then (0, {})
  else if belowNormal n.natAbs e (-126) then (fZero b32 (decide (n < 0)), tallyFlush)
  else ((roundTo b32 0 (decide (n < 0)) n.natAbs e).1, {})

/-- The pair (hi, lo) of a sum n · 2^g. -/
def treePair (n g : Int) : Nat × Nat × Tally :=
  let r := roundTo b32 0 (decide (n < 0)) n.natAbs g
  match unpack b32 r.1 with
  | .fin s m e =>
    let h := flush32 r.1
    let base := if e ≤ g then e else g
    let hv : Int := (if s then -1 else 1) * (m * 2 ^ (e - base).toNat : Nat)
    let lo := exact32 (n * (2 ^ (g - base).toNat : Nat) - hv) base
    (h.1, lo.1, tallyAdd h.2 lo.2)
  | _ => (r.1, 0, tallyFlags fOVF)

/-- tree_sum: the pair and what it adds to flags and counters. -/
def treeSum (ops : List (TOp × TOp)) : Nat × Nat × Tally :=
  let r := treeProducts ops
  let ps := r.1
  let pinf := ps.any (valIsInf false)
  let ninf := ps.any (valIsInf true)
  if ps.any valIsNaN then (fNaN b32, 0, r.2)
  else if pinf && ninf then (fNaN b32, 0, tallyAdd r.2 (tallyFlags fINV))
  else if pinf then (fInf b32 false, 0, r.2)
  else if ninf then (fInf b32 true, 0, r.2)
  else match treeTop ps with
    | none => (fZero b32 (ps.all (fun v => decide (v = .fin true 0 0))), 0, r.2)
    | some E =>
      let p := treePair (treeFloor (E - 24) ps) (E - 24)
      (p.1, p.2.1, tallyAdd r.2 p.2.2)

/-- The exact sum of int8 products (R61). -/
def intTree : List (Nat × Nat) → Int
  | [] => 0
  | (a, b) :: ps => signed 8 a * signed 8 b + intTree ps

/-! ### Plinth arithmetic (05 R114, R124; R72) -/

/-- A binary32 step of a Plinth: nearest-even; OVF and INV as R72 and R114 say, with the NaN written as the default
(DESIGN CHOICE where R114 and R122 do not say so, log entry 79). -/
def plStep (r : Nat × Exc) (x y : Nat) : Nat × Tally :=
  if isNaN b32 r.1 then (fNaN b32, if isNaN b32 x || isNaN b32 y then {} else tallyFlags fINV)
  else if isInf b32 r.1 && isFinite b32 x && isFinite b32 y then (r.1, tallyFlags fOVF)
  else (r.1, {})

/-- A binary32 sum of error terms, flushed; overflow and invalid set the flags of R76. -/
def plErr (x y : Nat) : Nat × Tally :=
  let r := fAdd b32 0 x y
  let f := flush32 r.1
  (f.1, tallyAdd (plStep r x y).2 f.2)

/-- fl32 of a sum with flushing (R72). -/
def flAdd (x y : Nat) : Nat × Tally :=
  let a := plStep (fAdd b32 0 x y) x y
  let f := flush32 a.1
  (f.1, tallyAdd a.2 f.2)

/-- fl32 of a product with flushing (R72). -/
def flMul (x y : Nat) : Nat × Tally :=
  let a := plStep (fMul b32 0 x y) x y
  let f := flush32 a.1
  (f.1, tallyAdd a.2 f.2)

/-- fl32 of an int32 plus or times a binary32 value, with flushing (05 R121, R122). -/
def flAddInt (x : Int) (y : Nat) : Nat × Tally :=
  let a := plStep (fAddInt x y) 0 y
  let f := flush32 a.1
  (f.1, tallyAdd a.2 f.2)

def flMulInt (x : Int) (y : Nat) : Nat × Tally :=
  let a := plStep (fMulInt x y) 0 y
  let f := flush32 a.1
  (f.1, tallyAdd a.2 f.2)

/-- fl32 of an int32 (R72). -/
def flInt (x : Nat) : Nat := (intToF b32 0 (signed 32 x)).1

/-- The error of fl32(x + y) = s: s + e = x + y exactly. -/
def twoSumErr (s x y : Nat) : Nat :=
  let b := (fSub b32 0 s x).1
  (fAdd b32 0 (fSub b32 0 x (fSub b32 0 s b).1).1 (fSub b32 0 y b).1).1

/-- fold on the sum and error words (05 R114). -/
def foldWords (sum err hi lo : Nat) : Nat × Nat × Tally :=
  let s := plStep (fAdd b32 0 sum hi) sum hi
  if isFinite b32 s.1 then
    let e := twoSumErr s.1 sum hi
    let f1 := plErr e lo
    let f2 := plErr err f1.1
    let f3 := flush32 s.1
    (f3.1, f2.1, tallyAdd s.2 (tallyAdd f1.2 (tallyAdd f2.2 f3.2)))
  else (s.1, 0, s.2)

/-- The combination of a chain position (05 R124). The error of two_sum is added unflushed (DESIGN CHOICE, log entry 79). -/
def chainWords (inSum inErr sum err : Nat) : Nat × Nat × Tally :=
  let s := plStep (fAdd b32 0 inSum sum) inSum sum
  if isFinite b32 s.1 then
    let e := twoSumErr s.1 inSum sum
    let f1 := plErr inErr err
    let f2 := plErr f1.1 e
    let f3 := flush32 s.1
    (f3.1, f2.1, tallyAdd s.2 (tallyAdd f1.2 (tallyAdd f2.2 f3.2)))
  else (s.1, 0, s.2)

/-- The larger of two running maxima of magnitudes (R72); none when a NaN. -/
def runMax (m v : Nat) : Nat :=
  if isNaN b32 v then m else if fLt b32 m (fAbs b32 v) then fAbs b32 v else m

end Sys2Proof.Machine
end

