-- ==== Sys2Proof/Machine/Ops.lean ====
section
/-! DEFINITION. The named operations over the units of the package: reaching a die and its units, free values, output,
time, and sending requests and responses over the Naldy link (chapters 1, 2 and 10). -/

namespace Sys2Proof.Machine

/-! ### Free values and outputs (log entries 2, 3) -/

def drawByte (s : State) : Byte × State := (Config.freeByte s.free, { s with free := s.free + 1 })
def drawWord (s : State) : Word × State := (Config.freeWord s.free, { s with free := s.free + 1 })
def drawBool (s : State) : Bool × State := (Config.freeBool s.free, { s with free := s.free + 1 })

/-- n free bytes from free number k up. -/
def freeBytes (k n : Nat) : List Byte := (countFrom k n).map Config.freeByte

/-- n unspecified bytes drawn. -/
def drawBytes (s : State) (n : Nat) : List Byte × State := (freeBytes s.free n, { s with free := s.free + n })

def output (s : State) (o : Output) : State := { s with outputs := o :: s.outputs }

/-- Data returned by a register read. -/
def outRead (s : State) (v : Word) : State := output s (.read v)

/-- Software reaches the registers. In RESET nothing runs, and in SAFE only H's reporting of its status does (01 Table 1-10; 12
R293; 13 R326). -/
def regsUp (s : State) : Bool := decide (s.mstate ≠ .reset) && decide (s.mstate ≠ .safe)

/-! ### Time (02 R46, R47) -/

/-- The time base after one REFCLK_IN edge (02 R47). -/
def tbNext (t : Time) : Time := if t = 0xFFFF_FFFF_FFFF_FFFA then 0 else t + 10

/-- Whether the time base counts (02 R51, R52). -/
def tbRuns (s : State) : Bool := s.tbStarted && s.refclk && decide (s.mstate ≠ .reset)

/-- The endpoints of the external ports. -/
def isExt (e : Nat) : Bool := decide (17 ≤ e) && decide (e < 21)

/-- Credits that a flit must find to leave: one; inside the package the first half of a pair leaves only with those of both,
since nothing may pass between them (10 R235; log entry 54). -/
def creditsFor (ext : Bool) (f : TxFlit) : Nat := if !ext && decide (f.fk = 3) then 2 else 1

/-- A flit of an UP endpoint waits for credits of its channel (10 R234). -/
def epStalled (ext : Bool) (v : Endp) : Bool :=
  decide (v.st = .up) && v.txq.any (fun f => decide (v.credits.getD f.vc 0 < creditsFor ext f))

/-- The link counters of waiting flits after one tick (10 Table 10-9). -/
def stallTick (l : Tab Endp) : Tab Endp :=
  l.map (fun e => (e.1, if epStalled (isExt e.1) e.2 then { e.2 with cstall := satAdd e.2.cstall 1 } else e.2))

/-- Nanoseconds since time t. -/
def since (s : State) (t : Time) : Nat := (s.tb - t).toNat

/-! ### Dies and units (01 R24) -/

def cd (s : State) (d : Nat) : CDie :=
  match d with
  | 0 => s.c0
  | 1 => s.c1
  | 2 => s.c2
  | _ => s.c3

/-- Die d replaced as it stands. -/
def putCd (s : State) (d : Nat) (c : CDie) : State :=
  match d with
  | 0 => { s with c0 := c }
  | 1 => { s with c1 := c }
  | 2 => { s with c2 := c }
  | _ => { s with c3 := c }

/-- A memory put into the canonical form of fill byte f. -/
def memNorm (f : Byte) : Mem → Mem
  | [] => []
  | (a, v) :: t => memWrite f (memNorm f t) a v

/-- An unspecified die (16 R376, log entry 23): any contents, its memories in canonical form. -/
def freeDie (k : Nat) : CDie :=
  let c := slewedDie k
  { c with
    vault := memNorm 0 c.vault, domeMem := memNorm 0 c.domeMem, spireMem := memNorm 0 c.spireMem,
    lnPmem := memNorm 0 c.lnPmem, slewed := true }

/-- Die d changed. On a die whose VCORE moved too fast, whatever it then holds is unspecified (16 R376). -/
def setCd (s : State) (d : Nat) (c : CDie) : State :=
  if (cd s d).slewed then { putCd s d (freeDie s.free) with free := s.free + 1 } else putCd s d c

/-- Every C-die changed in one way. -/
def mapDies (s : State) (f : CDie → CDie) : State := [0, 1, 2, 3].foldl (fun t d => setCd t d (f (cd t d))) s

/-- What die d gives out as a word: an unspecified one after its VCORE has moved too fast (16 R376). -/
def dieSays (s : State) (d : Nat) (w : Word) : Word × State := if d < 4 ∧ (cd s d).slewed then drawWord s else (w, s)

def dome (s : State) (d n : Nat) : Dome := tabGet {} (cd s d).domes n
def setDome (s : State) (d n : Nat) (v : Dome) : State :=
  setCd s d { cd s d with domes := tabSet (cd s d).domes n v }
def tower (s : State) (d n : Nat) : Tower := tabGet {} (cd s d).towers n
def setTower (s : State) (d n : Nat) (v : Tower) : State :=
  setCd s d { cd s d with towers := tabSet (cd s d).towers n v }
def plinth (s : State) (d n : Nat) : Plinth := tabGet {} (cd s d).plinths n
def setPlinth (s : State) (d n : Nat) (v : Plinth) : State :=
  setCd s d { cd s d with plinths := tabSet (cd s d).plinths n v }
def lantern (s : State) (d n : Nat) : Lantern := tabGet {} (cd s d).lanterns n
def setLantern (s : State) (d n : Nat) (v : Lantern) : State :=
  setCd s d { cd s d with lanterns := tabSet (cd s d).lanterns n v }
def spire (s : State) (d n : Nat) : Spire := tabGet {} (cd s d).spires n
def setSpire (s : State) (d n : Nat) (v : Spire) : State :=
  setCd s d { cd s d with spires := tabSet (cd s d).spires n v }
def bell (s : State) (d n : Nat) : Bell := tabGet {} (cd s d).bells n
def setBell (s : State) (d n : Nat) (v : Bell) : State :=
  setCd s d { cd s d with bells := tabSet (cd s d).bells n v }
def queue (s : State) (d q : Nat) : Queue := tabGet {} (cd s d).queues q
def setQueue (s : State) (d q : Nat) (v : Queue) : State :=
  setCd s d { cd s d with queues := tabSet (cd s d).queues q v }
def mover (s : State) (m : Nat) : Mover := tabGet {} s.mem.movers m
def setMover (s : State) (m : Nat) (v : Mover) : State :=
  { s with mem := { s.mem with movers := tabSet s.mem.movers m v } }
def session (s : State) (n : Nat) : Session := tabGet {} s.host.sessions n
def setSession (s : State) (n : Nat) (v : Session) : State :=
  { s with host := { s.host with sessions := tabSet s.host.sessions n v } }
def mac (s : State) (m : Nat) : Mac := tabGet {} s.host.macs m
def setMac (s : State) (m : Nat) (v : Mac) : State :=
  { s with host := { s.host with macs := tabSet s.host.macs m v } }
def csiRx (s : State) (r : Nat) : CsiRx := tabGet {} s.host.csi r
def setCsiRx (s : State) (r : Nat) (v : CsiRx) : State :=
  { s with host := { s.host with csi := tabSet s.host.csi r v } }
def uart (s : State) (u : Nat) : Uart := tabGet {} s.uarts u
def setUart (s : State) (u : Nat) (v : Uart) : State := { s with uarts := tabSet s.uarts u v }
def ao (s : State) (n : Nat) : Ao := tabGet {} s.f.ao n
def setAo (s : State) (n : Nat) (v : Ao) : State := { s with f := { s.f with ao := tabSet s.f.ao n v } }
def doCh (s : State) (n : Nat) : DoCh := tabGet {} s.f.dout n
def setDoCh (s : State) (n : Nat) (v : DoCh) : State := { s with f := { s.f with dout := tabSet s.f.dout n v } }
def diCh (s : State) (n : Nat) : DiCh := tabGet {} s.f.di n
def setDiCh (s : State) (n : Nat) (v : DiCh) : State := { s with f := { s.f with di := tabSet s.f.di n v } }
def sensor (s : State) (i : Nat) : Sensor := tabGet {} s.power.sensors i

/-- The SYS_ fabric registers of die d, 4 for H. -/
def sysDie (s : State) (d : Nat) : SysDie := if d < 4 then (cd s d).sys else s.hsys
def setSysDie (s : State) (d : Nat) (v : SysDie) : State :=
  if d < 4 then setCd s d { cd s d with sys := v } else { s with hsys := v }

def uNum : UnitRef → Nat × Nat
  | .dome d n => (d, n)
  | .tower d n => (d, n)
  | .plinth d n => (d, n)
  | .lantern d n => (d, n)
  | .mover m => (4, m)

/-! ### Arbitration (02 R39) -/

/-- The input served next in round-robin order: the lowest above the one served last, else the lowest of all. -/
def nextInput (last : Nat) (ks : List Nat) : Nat :=
  match (ks.filter (fun k => decide (last < k))).min? with
  | some k => k
  | none => ks.min?.getD 0

/-! ### Addresses (01 R25) -/

def addrChip (a : Nat) : Nat := a / 2 ^ 45 % 8
def addrDie (a : Nat) : Nat := a / 2 ^ 41 % 16
def addrOff (a : Nat) : Nat := a % 2 ^ 41
def devAddr (chip die off : Nat) : Nat := chip * 2 ^ 45 + die * 2 ^ 41 + off
def ownChip (s : State) : Nat := s.nld.chip.toNat

/-- Chip, die and number of a 16-bit name (08 R192). -/
def nameChip (w : Nat) : Nat := w / 2 ^ 13 % 8
def nameDie (w : Nat) : Nat := w / 2 ^ 9 % 16

/-- The route table's mask of external ports towards chip c (10 R231). -/
def routeMask (s : State) (c : Nat) : Nat := s.nld.route.toNat / 2 ^ (4 * c) % 16

/-- A chip of the configured topology (10 R231). -/
def chipPresent (s : State) (c : Nat) : Bool := decide (c = ownChip s) || decide (routeMask s c ≠ 0)

def chipIsolated (s : State) (c : Nat) : Bool := decide (c ≠ ownChip s) && s.nld.isoChips.getLsbD c
def dieIsolated (s : State) (k : Nat) : Bool := s.nld.isoDies.getLsbD k

/-- Whether dies a and b of this package reach each other: neither is isolated, or they are one die (10 R245). -/
def diesJoined (s : State) (a b : Nat) : Bool := decide (a = b) || (!dieIsolated s a && !dieIsolated s b)

/-- Whether a name breaks R192: a bit outside its fields, a die above 3, an absent chip. `bits` is 8 for a Bell and 7 for
a queue. -/
def nameBad (s : State) (w bits : Nat) : Bool :=
  decide (w % 2 ^ 9 ≥ 2 ^ bits) || decide (nameDie w > 3) || !chipPresent s (nameChip w)

/-- A target on chip c and die k, seen from die a of this chip, is isolated (01 R27, 09 R226). -/
def targetIsolated (s : State) (a c k : Nat) : Bool :=
  if c = ownChip s then !diesJoined s a k else chipIsolated s c || !diesJoined s a 4

/-! ### Link endpoints (10 Table 10-1) -/

def epCode : Ep → Nat
  | .c d e => 3 * d.val + e.val
  | .h e => 12 + e.val
  | .ext p => 17 + p.val
  | .f => 21

def endp (s : State) (e : Nat) : Endp := tabGet {} s.nld.eps e

/-- Endpoint e is on a C-die whose VCORE has moved too fast, so that whatever it then holds is unspecified (16 R376). -/
def epSlewed (s : State) (e : Nat) : Bool := decide (e < 12) && (cd s (e / 3)).slewed

def setEndp (s : State) (e : Nat) (v : Endp) : State :=
  { s with
    free := s.free + (epSlewed s e).toNat,
    nld := { s.nld with eps := tabSet s.nld.eps e (if epSlewed s e then slewedEndp (3 * s.free + e % 3) else v) } }

/-- The endpoints of dies whose VCORE has moved too fast, drawn again as time passes (16 R376). -/
def slewTick (s : State) : State :=
  if (upTo 4).any (fun d => (cd s d).slewed) then
    { s with
      free := s.free + 4,
      nld := { s.nld with
        eps := s.nld.eps.map (fun e => (e.1, if epSlewed s e.1 then slewedEndp (3 * s.free + e.1) else e.2)) } }
  else s

/-- What a step does when no command waits: a REFCLK_IN edge passes (log entry 4). -/
def idleTick (s : State) : State :=
  if tbRuns s then slewTick { s with tb := tbNext s.tb, nld := { s.nld with eps := stallTick s.nld.eps } } else s

/-- Receive buffers of an endpoint in flits, per channel REQ, RSP, CHN, SYS (10 Table 10-4). -/
def epBuffers (e : Nat) : List Nat :=
  if isExt e then [512, 512, 128, 32] else if e = 16 ∨ e = 21 then [16, 16, 0, 8] else [128, 128, 64, 16]

/-- The sending party behind endpoint e: the neighbouring chip, or the die at the far end of an in-package link. -/
def partyOf (s : State) (e : Nat) : Option Nat :=
  if isExt e then (endp s e).neighbour.map (·.toNat) else some (8 + e)

def party (s : State) (p : Nat) : Party := tabGet {} s.nld.parties p

/-- Party p is what an endpoint of such a die keeps of its far end. -/
def partySlewed (s : State) (p : Nat) : Bool := decide (8 ≤ p) && epSlewed s (p - 8)

def setParty (s : State) (p : Nat) (v : Party) : State :=
  { s with
    free := s.free + (partySlewed s p).toNat,
    nld := { s.nld with
      parties := tabSet s.nld.parties p (if partySlewed s p then slewedParty (3 * s.free + (p - 8) % 3) else v) } }

/-- The ports of a mask in ascending order. -/
def maskPorts (m : Nat) : List Nat := (upTo 4).filter (fun p => m / 2 ^ p % 2 = 1)

def portUp (s : State) (p : Nat) : Bool := decide ((endp s (17 + p)).st = .up)

/-- The first UP port from the k-th of the list on, wrapping round (10 R231). -/
def firstUp (s : State) (ps : List Nat) (k : Nat) : Option Nat := (ps.drop k ++ ps.take k).find? (portUp s)

/-- A port that retrains and keeps its neighbour: requests wait there while no port is UP. -/
def portTrains (s : State) (p : Nat) : Bool :=
  decide ((endp s (17 + p)).st = .training) && (endp s (17 + p)).neighbour.isSome

/-- The other end of an in-package link (Table 10-1). -/
def epPeer (e : Nat) : Nat :=
  if e < 12 then (if e % 3 = 0 then 12 + e / 3 else if e % 3 = 1 then 3 * ((e / 3 + 3) % 4) + 2 else 3 * ((e / 3 + 1) % 4) + 1)
  else if e < 16 then 3 * (e - 12) else if e = 16 then 21 else 16

/-- The die on which an endpoint lies, and the die at its far end (Table 10-1). -/
def epDie (e : Nat) : Nat := if e < 12 then e / 3 else if e = 21 then 5 else 4
def epFar (e : Nat) : Nat :=
  if e < 12 then (if e % 3 = 0 then 4 else if e % 3 = 1 then (e / 3 + 3) % 4 else (e / 3 + 1) % 4)
  else if e < 16 then e - 12 else if e = 16 then 5 else 4

/-- The endpoint of die a that leads to die k of the package (Table 10-2): a neighbour's own link, else the one to or from H. -/
def epToward (a k : Nat) : Nat :=
  if a = 4 then (if k < 4 then 12 + k else 16)
  else if a = 5 then 21
  else if k = (a + 1) % 4 then 3 * a + 2
  else if k = (a + 3) % 4 then 3 * a + 1
  else 3 * a

/-- An endpoint that sends, now or once it has been trained. -/
def epOpen (s : State) (e : Nat) : Bool := decide ((endp s e).st = .up) || decide ((endp s e).st = .training)

/-- The k-th port of the list if it is UP, else the next UP one, else one that retrains (10 R231). -/
def pickPort (s : State) (ps : List Nat) (k : Nat) : Option Nat :=
  match firstUp s ps k with
  | some p => some p
  | none => (ps.drop k ++ ps.take k).find? (portTrains s)

/-- The port that the flow of a request from port `src` to address a of chip c takes (10 R231). -/
def flowPort (s : State) (src a c : Nat) : Option Nat :=
  let ps := maskPorts (routeMask s c)
  if ps.length = 0 then none
  else pickPort s ps ((src ^^^ (a / 2 ^ 12 % 65536)) % ps.length)

/-- The endpoint of die `die` by which a request from port `src` to address a leaves (R230, R231): towards its die in the package, on
H to the flow's external port for another chip, and to H for that chip on any other die. -/
def nextEp (s : State) (die src a : Nat) : Option Nat :=
  let c := addrChip a
  if decide (die = 4) && decide (c ≠ ownChip s) then (flowPort s src a c).map (17 + ·)
  else
    let e := epToward die (if c = ownChip s then addrDie a else 4)
    if epOpen s e then some e else none

/-! ### Transactions (10 Tables 10-5, 10-6) -/

def kRD : Nat := 1
def kWR : Nat := 2
def kBADD : Nat := 3
def kBWAIT : Nat := 4
def kQPUSH : Nat := 5
def kQPOP : Nat := 6
def kCANCEL : Nat := 7
def kCHN : Nat := 8
def kCHBRK : Nat := 9
def kTSYNC : Nat := 10
def kISO : Nat := 11
def kRSP : Nat := 15
/-- H's report of the machine state to F, for which Table 10-6 has no kind (DESIGN CHOICE, log entry 82). -/
def kREPORT : Nat := 12

/-- The channel of a kind: 0 REQ, 1 RSP, 2 CHN, 3 SYS. -/
def kindVc (k : Nat) : Nat :=
  if k = kRSP then 1 else if k = kCHN ∨ k = kCHBRK then 2
  else if k = kBWAIT ∨ k = kCANCEL ∨ k = kTSYNC ∨ k = kISO ∨ k = kREPORT then 3 else 0

def kindListed (k : Nat) : Bool := decide (1 ≤ k ∧ k ≤ 11) || decide (k = 15)

/-- Whether endpoint e takes a header of kind k on channel vc: the kinds of Table 10-6, and F the reports of H (log entry 82). -/
def kindTaken (e k vc : Nat) : Bool := kindListed k || (decide (e = 21) && decide (k = kREPORT) && decide (vc = 3))

def txnKind (t : Txn) : Nat := field (wordAt t.hdr 0) 31 28
def txnTry (t : Txn) : Bool := bit (wordAt t.hdr 0) 27
def txnDl (t : Txn) : Bool := bit (wordAt t.hdr 0) 26
def txnTid (t : Txn) : BitVec 16 := (wordAt t.hdr 0).extractLsb' 0 16
def txnAddr (t : Txn) : Nat := (wordAt t.hdr 2).toNat + 2 ^ 32 * field (wordAt t.hdr 3) 15 0
def txnHops (t : Txn) : Nat := field (wordAt t.hdr 4) 31 29
def txnLen (t : Txn) : Nat := field (wordAt t.hdr 4) 12 0
def txnOperand (t : Txn) : Word := wordAt t.hdr 5
def txnDeadline (t : Txn) : Time := joinTime (wordAt t.hdr 6) (wordAt t.hdr 7)
def txnSrcPort (t : Txn) : Nat := field (wordAt t.hdr 1) 31 16

/-- The payload of a transaction: inline when it has at most 32 bytes. -/
def txnBytes (t : Txn) : List Byte :=
  if txnLen t ≤ 32 then (ofWords (t.hdr.drop 8)).take (txnLen t) else (ofWords t.data).take (txnLen t)

/-- Pairs that follow the header (10 R236). -/
def txnPairs (kind len : Nat) : Nat := if kind = kRD then 0 else if len ≤ 32 then 0 else (len + 127) / 128

def padTo (n : Nat) (ws : List Word) : List Word := (ws ++ List.replicate n 0).take n

/-- What a request asks, before it has a TID. -/
structure Ask where
  kind : Nat
  tryB : Bool := false
  dl : Option Time := none
  src : Nat := 0
  die : Nat := 4
  addr : Nat
  len : Nat := 0
  operand : Word := 0
  word6 : Word := 0
  payload : List Byte := []
  deriving Repr

/-- The transaction of a request with a TID. -/
def mkTxn (s : State) (q : Ask) (tid : BitVec 16) (hops : Nat) : Txn :=
  let dl := q.dl.getD 0
  let inl := if q.payload.length ≤ 32 then toWords 8 (q.payload ++ List.replicate 32 0) else []
  { hdr := padTo 16 ([w32 (q.kind * 2 ^ 28 + b2n q.tryB * 2 ^ 27 + b2n q.dl.isSome * 2 ^ 26 + tid.toNat),
      w32 (q.src * 2 ^ 16 + ownChip s * 2 ^ 13 + q.die * 2 ^ 9), w32 q.addr, w32 (q.addr / 2 ^ 32),
      w32 (hops * 2 ^ 29 + q.len), q.operand, if q.dl.isSome then loWord dl else q.word6,
      if q.dl.isSome then hiWord dl else 0] ++ inl),
    data := if q.payload.length ≤ 32 then []
      else toWords (32 * txnPairs q.kind q.len) (q.payload ++ List.replicate 128 0) }

/-- The flits of pairs, 32 words each; a pair gets its tag as it leaves. -/
def pairFlits (vc : Nat) : Nat → List Word → List TxFlit
  | 0, _ => []
  | n + 1, ws =>
    { fk := 3, vc := vc, ptag := 0, body := padTo 16 (ws.take 16) }
      :: { fk := 4, vc := vc, ptag := 0, body := padTo 16 ((ws.drop 16).take 16) }
      :: pairFlits vc n (ws.drop 32)

/-- A transaction's flits (10 R232, R235); a request's header carries its number with its party. -/
def txnFlits (t : Txn) (ask : Nat) : List TxFlit :=
  let vc := kindVc (txnKind t)
  { fk := 2, vc := vc, ptag := 0, body := padTo 16 t.hdr, ask := ask } :: pairFlits vc (txnPairs (txnKind t) (txnLen t)) t.data

/-- A transaction's flits put at the end of what endpoint e has to send; `ask` is 0 but for a request that takes a TID. -/
def putTxn (s : State) (e : Nat) (t : Txn) (ask : Nat) : State :=
  setEndp s e { endp s e with txq := (endp s e).txq ++ txnFlits t ask }

/-! ### Taking a transaction (R234, R235) -/

/-- The oldest transaction of a channel, if it is of kind k. -/
def nextTxn (v : Endp) (k : Nat) : Option Txn :=
  match v.rx.find? (fun t => decide (kindVc (txnKind t) = kindVc k)) with
  | some t => if txnKind t = k then some t else none
  | none => none

/-- The oldest transaction of a channel removed. -/
def dropTxn (vc : Nat) : List Txn → List Txn
  | [] => []
  | t :: ts => if kindVc (txnKind t) = vc then ts else t :: dropTxn vc ts

/-- A transaction leaves its receive buffer; its credits can be returned. -/
def takeTxn (s : State) (e : Nat) (t : Txn) : State :=
  let v := endp s e
  let vc := kindVc (txnKind t)
  let n := 1 + 2 * txnPairs (txnKind t) (txnLen t)
  setEndp s e { v with
    rx := dropTxn vc v.rx, used := listSet v.used vc (v.used.getD vc 0 - n), owe := listSet v.owe vc (v.owe.getD vc 0 + n) }

/-! ### Sending a transaction -/

/-- A response or a CANCEL, which has its TID already. -/
def sendTxn (s : State) (e : Nat) (t : Txn) : State := putTxn s e t 0

/-- Kinds that a response answers (10 Table 10-6). -/
def kindAnswered (k : Nat) : Bool := decide (k ≠ kCANCEL) && decide (k ≠ kISO)

/-- Requests outstanding to a party on a channel (10 R237). -/
def outstOn (p : Party) (ch : Nat) : Nat := (p.outst.filter (fun o => decide (o.ch = ch) && o.sent)).length

/-- A request to party p put into the list to send of endpoint e, where it waits for the limit of R237, for credits and for its turn
(10 R231); it is numbered on its channel as it leaves (10 R237). -/
def sendAs (s : State) (e p : Nat) (who : Origin) (t : Txn) : State :=
  let k := txnKind t
  let pa := party s p
  let s1 := setParty s p { pa with
    asked := pa.asked + 1,
    outst := if kindAnswered k then pa.outst ++ [⟨kindVc k, 0, who, t, false, e, pa.asked + 1⟩] else pa.outst }
  putTxn s1 e t (pa.asked + 1)

/-- Bytes from an address on, cut into the payloads of requests: at most 4,096 bytes each (10 R236). -/
def cutBytes : Nat → Nat → List Byte → List (Nat × List Byte)
  | 0, _, _ => []
  | k + 1, a, bs => if bs = [] then [] else (a, bs.take 4096) :: cutBytes k (a + 4096) (bs.drop 4096)

def pieces (a : Nat) (bs : List Byte) : List (Nat × List Byte) := cutBytes (bs.length / 4096 + 1) a bs

/-- A request to another die or chip, given to the first link of its route; only an external port counts a hop (10 R230, R231).
None while the link is DOWN or closed, or no port towards the chip knows its neighbour. -/
def sendAsk (s : State) (q : Ask) (who : Origin) : Option State :=
  match nextEp s q.die q.src q.addr with
  | none => none
  | some e => (partyOf s e).map (fun p => sendAs s e p who (mkTxn s q 0 (b2n (isExt e))))

/-- The endpoint that carries a response to what arrived at endpoint e (10 R231): that one, or on an external port its
fallback. -/
def replyEp (s : State) (e : Nat) : Option Nat :=
  if isExt e then
    let ps := (upTo 4).filter (fun p => decide ((endp s (17 + p)).neighbour = (endp s e).neighbour))
    (pickPort s (ps.filter (fun p => decide (17 + p ≥ e)) ++ ps.filter (fun p => decide (17 + p < e))) 0).map (17 + ·)
  else if (endp s e).st = .up ∨ (endp s e).st = .training then some e else none

/-- A response: the request's TID, header word 1 and address, the status and the data (10 R239, log entry 26). -/
def mkRsp (tid : BitVec 16) (src : Word) (addr st : Nat) (data : List Byte) : Txn :=
  let inl := if data.length ≤ 32 then toWords 8 (data ++ List.replicate 32 0) else []
  { hdr := padTo 16 ([w32 (kRSP * 2 ^ 28 + tid.toNat), src, w32 addr, w32 (addr / 2 ^ 32), w32 data.length,
      w32 st, 0, 0] ++ inl),
    data := if data.length ≤ 32 then [] else toWords (32 * txnPairs kRSP data.length) (data ++ List.replicate 128 0) }

def sendTimes (s : State) (e : Nat) (t : Txn) : Nat → State
  | 0 => s
  | n + 1 => sendTimes (sendTxn s e t) e t n

/-- The response to a request that arrived at endpoint e, recorded in the replay window where the request is recorded
there (10 R238), and sent once for it and once for each duplicate that waited. -/
def respond (s : State) (e : Nat) (tid : BitVec 16) (src : Word) (addr ch st : Nat) (data : List Byte) : State :=
  let t := mkRsp tid src addr st data
  match partyOf s e with
  | none => s
  | some p =>
    let pa := party s p
    let here := fun (w : WinEntry) => decide (w.ch = ch) && decide (w.tid = tid) && w.resp.isNone
    let dups := match pa.window.find? here with
      | some w => w.dups
      | none => 0
    let win := pa.window.map (fun w => if here w then { w with resp := some t, dups := 0 } else w)
    let s1 := setParty s p { pa with window := win }
    match replyEp s1 e with
    | none => s1
    | some o => sendTimes s1 o t (dups + 1)

end Sys2Proof.Machine
end

