-- ==== Sys2Proof/Machine/BellOps.lean ====
section
/-! DEFINITION. Bells: counting, adding, setting and holding waits (09 section 9.1.1), and the register access words of
the statuses of 10 Table 10-7. -/

namespace Sys2Proof.Machine

/-! ### Statuses (10 Table 10-7) -/

def stOK : Nat := 0
def stADDR : Nat := 1
def stRDONLY : Nat := 2
def stISOLATED : Nat := 3
def stPOISONED : Nat := 4
def stFULL : Nat := 5
def stNOTREADY : Nat := 6
def stTIMEOUT : Nat := 7
def stNONAME : Nat := 8
def stCANCELLED : Nat := 9

/-- The status of 08 Table 8-5 with the same name (10 R239). -/
def spStatus (st : Nat) : Nat :=
  if st = stOK then 0 else if st = stFULL then 1 else if st = stNOTREADY then 2 else if st = stTIMEOUT then 3
  else if st = stPOISONED then 4 else if st = stISOLATED then 5 else 6

/-! ### Counting (R205) -/

/-- The Bell has counted at least v. -/
def counted (count v : Word) : Bool := decide ((count - v).toNat < 2 ^ 31)

/-- Every waiter that the count satisfies marked (R207). -/
def markWaiters (b : Bell) : Bell :=
  { b with waiters := b.waiters.map (fun w => if counted b.count w.target then { w with sat := true } else w) }

/-- The Bell after an add of v (R204, R205). -/
def bellAdded (b : Bell) (v : Word) : Bell := markWaiters { b with count := b.count + v }

/-- The Bell after a set to v (R204, R206). -/
def bellStored (b : Bell) (v : Word) : Bell := markWaiters { b with count := v }

/-- An add to Bell n of die d; a poisoned Bell refuses it (R228). -/
def addBell (s : State) (d n : Nat) (v : Word) : State :=
  if (bell s d n).poisoned then s else setBell s d n (bellAdded (bell s d n) v)

/-- A set of Bell n of die d; a poisoned Bell discards it (R228). -/
def storeBell (s : State) (d n : Nat) (v : Word) : State :=
  if (bell s d n).poisoned then s else setBell s d n (bellStored (bell s d n) v)

/-- A waiter held at a Bell. -/
def holdWait (s : State) (d n : Nat) (who : Origin) (target : Word) : State :=
  setBell s d n { bell s d n with waiters := (bell s d n).waiters ++ [⟨who, target, false⟩] }

/-- A waiter withdrawn from a Bell. -/
def dropWait (s : State) (d n : Nat) (who : Origin) : State :=
  setBell s d n { bell s d n with waiters := (bell s d n).waiters.filter (fun w => decide (w.who ≠ who)) }

/-- The device address of the first register of the Bell or queue that a name names (10 R231). -/
def bellAddr (w : Nat) : Nat := devAddr (nameChip w) (nameDie w) (0x500000000 + w % 256 * 0x100)
def queueAddr (w : Nat) : Nat := devAddr (nameChip w) (nameDie w) (0x600000000 + w % 128 * 0x200)

/-- A name names something on die `die` of this chip. -/
def nameOn (s : State) (die w : Nat) : Bool := decide (nameChip w = ownChip s) && decide (nameDie w = die)

/-- 1 added to the Bell of a name by hardware of die `die` at port `src`, without an answer: nothing happens when the
name is bad, the party isolated or the Bell poisoned. A Bell of another die or chip is reached over the links (10 R230). -/
def addNamed (s : State) (die src : Nat) (w : Nat) (v : Word) (who : Origin) : State :=
  if nameBad s w 8 || targetIsolated s die (nameChip w) (nameDie w) then s
  else if nameOn s die w then addBell s (nameDie w) (w % 256) v
  else (sendAsk s { kind := kBADD, src := src, die := die, addr := bellAddr w, operand := v } who).getD s

end Sys2Proof.Machine
end

