-- ==== Sys2Proof/Machine/MemOps.lean ====
section
/-! DEFINITION. The Vault with its error-correcting code (11 R257) and the memories of a C-die as stored. -/

namespace Sys2Proof.Machine

def vaultSize : Nat := 0x1800000

/-- The bank of the line at a Vault offset, and its line index within that bank (R254). -/
def vaultBank (a : Nat) : Nat := (a / 2 ^ 6 % 64) ^^^ (a / 2 ^ 12 % 64)
def vaultLine (a : Nat) : Nat := a / 2 ^ 12 % 2 ^ 13

/-- Vault words with errors among those that n bytes from `off` touch. -/
def vaultErrIn (c : CDie) (off n : Nat) : List (Nat × Bool) :=
  c.vaultErr.filter (fun e => decide (off < 8 * e.1 + 8) && decide (8 * e.1 < off + n))

/-- The offset of the first uncorrectable word among the errors. -/
def vaultBad (es : List (Nat × Bool)) : Option Nat := (es.find? (fun e => e.2)).map (8 * ·.1)

/-- The errors corrected on the way: counted, the last one's offset kept (R257); which of several is the last is the order of the
list (DESIGN CHOICE, log entry 38). -/
def vaultCorrect (c : CDie) (es : List (Nat × Bool)) : CDie :=
  match es.getLast? with
  | none => c
  | some e => { c with vcorr := satAdd c.vcorr es.length, vaddr := BitVec.ofNat 25 (8 * e.1) }

/-- Whether a word that n bytes from `off` touch is only partly covered, so that its write reads it first (R255). -/
def vaultPartial (off n : Nat) (e : Nat × Bool) : Bool := decide (8 * e.1 < off) || decide (off + n < 8 * e.1 + 8)

/-- What a Vault access comes to: the offset of an uncorrectable word, or the die after it. With an uncorrectable word among those of the
access nothing is corrected and counted (DESIGN CHOICE, log entry 38). -/
def vaultLoad (c : CDie) (off n : Nat) : Except Nat (List Byte × CDie) :=
  let es := vaultErrIn c off n
  match vaultBad es with
  | some o => .error o
  | none => .ok (memBytes 0 c.vault off n, vaultCorrect c es)

/-- Bytes stored: words wholly covered get new check bits; of the others the read half may correct or fail (R257). -/
def vaultStore (c : CDie) (off : Nat) (bs : List Byte) : Except Nat CDie :=
  let es := vaultErrIn c off bs.length
  let ps := es.filter (vaultPartial off bs.length)
  match vaultBad ps with
  | some o => .error o
  | none =>
    let c1 := vaultCorrect c ps
    .ok { c1 with
      vault := memPut 0 c1.vault off bs,
      vaultErr := c1.vaultErr.filter (fun e => !decide (e ∈ es)) }

/-- Whole 8-byte words stored by hardware that owns them: a queue's ring and its like. -/
def vaultWords (c : CDie) (off : Nat) (ws : List Word) : CDie :=
  match vaultStore c off (ofWords ws) with
  | .ok c1 => c1
  | .error _ => c

/-- Bytes of LPDDR (log entry 6). -/
def lpRead (m : MemCtl) (a : Nat) : Byte := (memFind? m.lpddr a).getD (Config.lpddrFill m.epoch a)

def lpBytes (m : MemCtl) (a : Nat) : Nat → List Byte
  | 0 => []
  | n + 1 => lpRead m a :: lpBytes m (a + 1) n

def lpPut (l : Mem) (a : Nat) : List Byte → Mem
  | [] => l
  | b :: bs => lpPut (memList l a b) (a + 1) bs

/-- 64-byte bursts that n bytes from a take. -/
def bursts (a n : Nat) : Nat := if n = 0 then 0 else (a + n - 1) / 64 - a / 64 + 1

/-! ### The address mapping (R259) -/

/-- Bits hi down to lo of a number. -/
def natBits (x hi lo : Nat) : Nat := x / 2 ^ lo % 2 ^ (hi + 1 - lo)

/-- The channel of an H offset. -/
def lpChannel (a : Nat) : Nat := natBits a 11 8 ^^^ natBits a 19 16

/-- The channel-local address L. -/
def lpLocal (a : Nat) : Nat := natBits a 34 12 * 256 + a % 256

/-- Whether MEM_CFG.GEN selects LPDDR5X, and RANKS2 two ranks. -/
def isLp5 (m : MemCtl) : Bool := bit m.cfg 16
def hasRanks2 (m : MemCtl) : Bool := bit m.cfg 17

/-- Bank, burst within the page and byte within the burst. -/
def lpBank (m : MemCtl) (a : Nat) : Nat :=
  let l := lpLocal a
  if isLp5 m then natBits l 14 11 ^^^ natBits l 18 15 else natBits l 13 11 ^^^ natBits l 16 14
def lpBurst (a : Nat) : Nat := natBits (lpLocal a) 10 6
def lpByte (a : Nat) : Nat := lpLocal a % 64

/-- Populated LPDDR bytes: 4 GiB for code 1 up to 32 GiB for code 4, none for 0 (11 Table 11-9). -/
def lpSize (m : MemCtl) : Nat := if m.psize = 0 then 0 else 2 ^ (31 + m.psize.toNat)

/-- The number of bits of L: a channel holds a sixteenth of the populated bytes. -/
def lpLocalBits (m : MemCtl) : Nat := 27 + m.psize.toNat

/-- Rank and row of an H offset below the populated size: with two ranks the rank is the top bit of L (R259). -/
def lpRank (m : MemCtl) (a : Nat) : Nat :=
  if hasRanks2 m then lpLocal a / 2 ^ (lpLocalBits m - 1) % 2 else 0
def lpRow (m : MemCtl) (a : Nat) : Nat :=
  natBits (lpLocal a) (lpLocalBits m - (if hasRanks2 m then 2 else 1)) (if isLp5 m then 15 else 14)

/-! ### The LPDDR link (R263) -/

/-- Link ECC is on: LECC with LPDDR5X. -/
def linkEcc (m : MemCtl) : Bool := bit m.cfg 31 && isLp5 m

/-- The first of a transfer's bursts that a fourth read cannot correct. -/
def linkLost (es : List LinkErr) : Option Nat :=
  es.findIdx? (fun e => match e with
    | .failing n => decide (4 ≤ n)
    | _ => false)

/-- Single-bit errors corrected. -/
def linkFixed (es : List LinkErr) : Nat := (es.filter (fun e => decide (e = .single))).length

/-- The controller after k bursts have crossed the link. -/
def linkPast (m : MemCtl) (k : Nat) : MemCtl := { m with linkErrs := m.linkErrs.drop k }

end Sys2Proof.Machine
end

