-- ==== Sys2Proof/Machine/HostOps.lean ====
section
/-! DEFINITION. Frames to the host and the requests in progress (chapter 13): building and sending frames over a
completion ring or a MAC, events, and completing a request. -/

namespace Sys2Proof.Machine

/-! ### Frames (R309) -/

def frFT (f : Frame) : Nat := field (wordAt f.h 0) 31 28
def frSess (f : Frame) : Nat := field (wordAt f.h 0) 27 24
def frKind (f : Frame) : Nat := field (wordAt f.h 0) 23 16
def frTry (f : Frame) : Bool := bit (wordAt f.h 0) 15
def frDl (f : Frame) : Bool := bit (wordAt f.h 0) 14
def frLen (f : Frame) : Nat := field (wordAt f.h 0) 12 0
def frReqid (f : Frame) : Word := wordAt f.h 1
def frAddr (f : Frame) : Nat := (wordAt f.h 2).toNat + 2 ^ 32 * field (wordAt f.h 3) 15 0
def frTmo (f : Frame) : Nat := field (wordAt f.h 3) 31 16
def frOperand (f : Frame) : Word := wordAt f.h 4

/-- The CRC of a frame: header bytes 0-27 and the payload. -/
def frCrc (f : Frame) : Word := crc32c (ofWords (padTo 7 f.h) ++ f.data)

/-- A frame as it is sent now: time stamp and CRC in place. -/
def sealFrame (s : State) (f : Frame) : Frame :=
  let g : Frame := { f with h := padTo 6 f.h ++ [loWord s.tb, 0] }
  { g with h := padTo 7 g.h ++ [frCrc g] }

/-- Requests that session n has outstanding, and how many more it may have. -/
def sessOut (s : State) (n : Nat) : Nat := (session s n).outst.length
def sessFree (s : State) (n : Nat) : Nat := 64 - sessOut s n

/-- The completion of request f. -/
def completion (s : State) (f : Frame) (st : Nat) (data : List Byte) : Frame :=
  { h := [w32 (2 * 2 ^ 28 + frSess f * 2 ^ 24 + frKind f * 2 ^ 16 + data.length), frReqid f, wordAt f.h 2,
      w32 (field (wordAt f.h 3) 15 0), 0, w32 (st * 2 ^ 24 + sessFree s (frSess f)), 0, 0],
    data := data }

/-! ### Event delivery in one order (R317) -/

/-- Whether a session gets events and heartbeats: it is open, also while its CLOSE waits, unless its endpoint has gone (R316,
R327, R328). -/
def subscribed (v : Session) : Bool := v.owner.isSome && v.sub && decide (v.closing ≠ some none)

/-- Event frames of session n that wait to be sent. -/
def evWaiting (s : State) (n : Nat) : Nat :=
  let isEv := fun (f : Frame) => decide (frFT f = 3) && decide (frSess f = n)
  ((session s n).toSend.filter (fun o => isEv o.f)).length
    + ((mac s 0).txq.filter (fun o => isEv o.2.f)).length + ((mac s 1).txq.filter (fun o => isEv o.2.f)).length

/-- An event frame goes to session n only when no subscribed session has more events waiting: a session that cannot take
its frames stalls the events of all. Other frames go when their own turn comes. -/
def maySend (s : State) (f : Frame) : Bool :=
  if frFT f = 3 then
    s.host.sessions.all (fun e => !subscribed e.2 || decide (evWaiting s e.1 ≤ evWaiting s (frSess f)))
  else true

/-! ### Sending -/

/-- Whether MAC m can transmit: enabled, its link up, not held by PAUSE, out of reset (R304, R328). -/
def macReady (s : State) (m : Nat) : Bool :=
  let v := mac s m
  bit v.liveCfg 31 && v.link && !v.txHeld && decide (s.mstate ≠ .safe) && decide (s.mstate ≠ .reset)

/-- The first frame of MAC m's list that may be sent, taken out. -/
def takeSendable (s : State) : List ((BitVec 48 × Option (BitVec 12)) × OutFrame) →
    Option (((BitVec 48 × Option (BitVec 12)) × OutFrame) × List ((BitVec 48 × Option (BitVec 12)) × OutFrame))
  | [] => none
  | o :: os =>
    if maySend s o.2.f then some (o, os)
    else (takeSendable s os).map (fun r => (r.1, o :: r.2))

/-- One waiting frame sent by MAC m, if it can send one: from its station address, with the endpoint's tag and its own EtherType
(R302). -/
def macSendOne (s : State) (m : Nat) : State :=
  if macReady s m then
    match takeSendable s (mac s m).txq with
    | none => s
    | some (o, rest) =>
      output (setMac s m { mac s m with txq := rest })
        (.macFrame m o.1.1 (mac s m).liveMac o.1.2 (mac s m).liveEtype (sealFrame s o.2.f))
  else s

def macSends : Nat → State → State
  | 0, s => s
  | k + 1, s => macSends k (macSendOne (macSendOne s 0) 1)

/-- Everything the MACs can send now. -/
def macFlush (s : State) : State := macSends ((mac s 0).txq.length + (mac s 1).txq.length) s

/-- A frame for session number n handed to an endpoint: onto the session's completion ring, or to a MAC. -/
def sendTo (s : State) (ep : HostEp) (n : Nat) (f : Frame) (record : Option Word) : State :=
  match ep with
  | .pcie => setSession s n { session s n with toSend := (session s n).toSend ++ [⟨f, record⟩] }
  | .eth m dst vlan => setMac s m { mac s m with txq := (mac s m).txq ++ [((dst, vlan), ⟨f, record⟩)] }

/-- An answer to request f through the endpoint it came by. -/
def reply (s : State) (ep : HostEp) (f : Frame) (st : Nat) (data : List Byte) : State :=
  macFlush (sendTo s ep (frSess f) (completion s f st data) none)

/-- A frame of type ft to every subscribed session: 3 an event, which takes and advances EVSEQ; 4 a heartbeat, HBSEQ. -/
def sendAll (s : State) (ft kind : Nat) (data : List Byte) (record : Option Word) : List (Nat × Session) → State
  | [] => s
  | (n, v) :: rest =>
    match v.owner with
    | some ep =>
      if subscribed v then
        let seq := if ft = 3 then (session s n).evseq else (session s n).hbseq
        let f : Frame := ⟨[w32 (ft * 2 ^ 28 + n * 2 ^ 24 + kind * 2 ^ 16 + data.length), seq, 0, 0, 0, 0, 0, 0], data⟩
        let s1 := setSession s n (if ft = 3 then { session s n with evseq := seq + 1 }
          else { session s n with hbseq := seq + 1 })
        sendAll (sendTo s1 ep n f record) ft kind data record rest
      else sendAll s ft kind data record rest
    | none => sendAll s ft kind data record rest

def sendEvent (s : State) (kind : Nat) (data : List Byte) (record : Option Word) : State :=
  sendAll s 3 kind data record s.host.sessions

/-- Host delivery is enabled: some session takes events (17 R400). -/
def hostOn (s : State) : Bool := s.host.sessions.any (fun e => subscribed e.2)

/-! ### MSI-X (R321, Table 13-9) -/

/-- Word k of the MSI-X table; a vector is masked at reset (log entry 35). -/
def msixWord (s : State) (k : Nat) : Word := tabGet (if k % 4 = 3 then 1 else 0) s.host.msixTab k

/-- Whether session n's transport is Ethernet. -/
def onEthernet (v : Session) : Bool :=
  match v.owner with
  | some (.eth _ _ _) => true
  | _ => false

/-- Vector k signalled: a masked one becomes pending. The vector of a session whose transport is Ethernet is never signalled. -/
def msixSend (s : State) (k : Nat) : State :=
  if s.host.perst then s
  else if k < 16 ∧ onEthernet (session s k) then s
  else if bit (msixWord s (4 * k + 3)) 0 then { s with host := { s.host with pba := s.host.pba ||| BitVec.ofNat 64 (2 ^ k) } }
  else output s (.msix k)

/-- Bits of a word of the table that are not reserved: the address is one of a word, vector control holds the mask alone. -/
def msixBits (k : Nat) : Word := if k % 4 = 0 then 0xFFFF_FFFC else if k % 4 = 3 then 1 else 0xFFFF_FFFF

/-- A word of the table written; a vector that is pending is signalled when its mask is cleared. -/
def msixTabSet (s : State) (k : Nat) (x : Word) : State :=
  let s1 := { s with host := { s.host with msixTab := tabSet s.host.msixTab k (x &&& msixBits k) } }
  let v := k / 4
  if k % 4 = 3 ∧ !bit x 0 ∧ s.host.pba.getLsbD v then
    msixSend { s1 with host := { s1.host with pba := s1.host.pba &&& ~~~(BitVec.ofNat 64 (2 ^ v)) } } v
  else s1

/-! ### Records on their way to the host (17 R400) -/

def logCount (s : State) : Nat := (s.faults.tail - s.faults.head).toNat

/-- A delivery pointer never lies behind the oldest record. -/
def clipNext (s : State) (p : Word) : Word :=
  if (s.faults.tail - p).toNat > logCount s then s.faults.head else p

/-- The undelivered record of a list that stands first in the log, or i. -/
def earliest (s : State) (i : Word) (rs : List Word) : Word :=
  rs.foldl (fun j r => if (r - s.faults.head).toNat < (j - s.faults.head).toNat then r else j) i

/-- Records whose frames no session that takes events has been sent: once there is none, they wait to be offered again. -/
def rewindHost (s : State) (rs : List Word) : State :=
  if hostOn s then s
  else { s with faults := { s.faults with hostNext := earliest s (clipNext s s.faults.hostNext) rs } }

/-- Records in frames that wait to be sent to session n. -/
def unsentTo (s : State) (n : Nat) : List Word :=
  let ofMac := fun (m : Nat) => (mac s m).txq.filterMap (fun o => if frSess o.2.f = n then o.2.record else none)
  (session s n).toSend.filterMap (·.record) ++ ofMac 0 ++ ofMac 1

/-! ### Requests (R312, R314) -/

def hRD : Nat := 0x10
def hWR : Nat := 0x11
def hBADD : Nat := 0x12
def hBWAIT : Nat := 0x13
def hQPUSH : Nat := 0x14
def hQPOP : Nat := 0x15
def hWUPD : Nat := 0x20

/-- Statuses of 13 Table 13-7 beyond those of 10 Table 10-7. -/
def hsBUSY : Nat := 0x20
def hsNOSESSION : Nat := 0x21
def hsBADFRAME : Nat := 0x22
def hsNOTRUN : Nat := 0x23
def hsINUSE : Nat := 0x24
def hsSIG : Nat := 0x25
def hsREPLAY : Nat := 0x26
def hsDIGEST : Nat := 0x27

/-- Whether an offset lies in a die's register blocks. -/
def regOff (off : Nat) : Bool := decide (0xF00000000 ≤ off) && decide (off < 0xF01000000)

/-- Kinds recorded in the completion cache (Table 13-6). -/
def frRecorded (f : Frame) : Bool :=
  decide (frKind f ∈ [hWR, hBADD, hQPUSH, hQPOP, hWUPD])
    || (decide (frKind f = hRD) && decide (addrDie (frAddr f) ≤ 5) && regOff (addrOff (frAddr f)))

def cacheInsert (c : List (Frame × Byte × List Byte)) (e : Frame × Byte × List Byte) : List (Frame × Byte × List Byte) :=
  let c1 := c ++ [e]
  if c1.length ≥ 257 then c1.drop 1 else c1

/-- n copies of an answer. -/
def replyTimes (s : State) (ep : HostEp) (f : Frame) (st : Nat) (data : List Byte) : Nat → State
  | 0 => s
  | n + 1 => replyTimes (reply s ep f st data) ep f st data n

end Sys2Proof.Machine
end

