-- ==== Sys2Proof/Machine/FaultOps.lean ====
section
/-! DEFINITION. Fault records, the fault log and its consumers (chapter 17, sections 17.1.1 and 17.1.2). -/

namespace Sys2Proof.Machine

/-! ### Records (R396) -/

def sevWarn : Nat := 1
def sevFatal : Nat := 2

/-- Source kinds beyond those of 09 Table 9-1. -/
def skSpire : Nat := 1
def skDome : Nat := 2
def skTower : Nat := 3
def skPlinth : Nat := 4
def skLantern : Nat := 5
def skFront : Nat := 6
def skEngine : Nat := 7
def skLink : Nat := 8
def skField : Nat := 9
def skSensor : Nat := 10
def skDie : Nat := 11

/-- Unit numbers of the engines of H in records and entry headers: the spec gives none, so each has one of its own, beside the
movers' 0-7 (PRESUMED, log entry 34). -/
def euBoot : Nat := 8
def euUpdate : Nat := 9
def euHost : Nat := 10
def euMemory : Nat := 11
def euWatchdog : Nat := 12
def euMac (m : Nat) : Nat := 16 + m
def euCsi (r : Nat) : Nat := 20 + r
def euUart (u : Nat) : Nat := 24 + u

/-- The identity of a source: its kind, chip, die and unit (word 1 without ACT). -/
def srcWord (s : State) (sk die unit : Nat) : Word :=
  w32 (sk * 2 ^ 24 + ownChip s * 2 ^ 13 + die * 2 ^ 9 + unit)

/-- A C-die whose VCORE moved too fast: its time base and the figures that it reports are unspecified (16 R376, log entry 23). -/
def toldFree (s : State) (die : Nat) : Bool := decide (die < 4) && (cd s die).slewed

/-- A fault record before it has its log index. -/
def mkRec (s : State) (sev act : Nat) (src : Word) (kind : Nat) (d5 d6 d7 : Word) : List Word :=
  [w32 (3 * 2 ^ 28 + sev * 2 ^ 26 + kind), w32 (act * 2 ^ 29 + src.toNat), 0]
    ++ (if toldFree s (field src 12 9) then (upTo 5).map (fun i => Config.slewedWord (8 * s.free + i))
      else [loWord s.tb, hiWord s.tb, d5, d6, d7])

def recSource (r : List Word) : Word := wordAt r 1 &&& 0x1FFF_FFFF
def recKind (r : List Word) : Nat := field (wordAt r 0) 15 0
def recDie (r : List Word) : Nat := field (wordAt r 1) 12 9
def recRepeat (r : List Word) : Nat := field (wordAt r 0) 23 16

/-- n further events merged into a record, saturating at 255 (R399). -/
def recMerge (r : List Word) (n : Nat) : List Word :=
  listSet r 0 (w32 ((wordAt r 0).toNat - recRepeat r * 2 ^ 16 + min 255 (recRepeat r + n) * 2 ^ 16))

/-! ### Delivery and freeing (R400) -/

def logRecord (s : State) (i : Word) : List Word := tabGet (List.replicate 8 0) s.faults.log (i.toNat % 256)

/-- Records not yet offered to the host are offered, oldest first, while a session takes events. -/
def offerHost : Nat → State → State
  | 0, s => s
  | k + 1, s =>
    let i := clipNext s s.faults.hostNext
    if hostOn s && decide (i ≠ s.faults.tail) then
      let s1 := sendEvent s 1 (ofWords (logRecord s i)) (some i)
      offerHost k { s1 with faults := { s1.faults with hostNext := i + 1 } }
    else { s with faults := { s.faults with hostNext := i } }

/-- No frame that delivers record i to a session that takes events still waits. -/
def noneWaits (s : State) (i : Word) : Bool :=
  s.host.sessions.all (fun e => !subscribed e.2 || decide (i ∉ unsentTo s e.1))

/-- Whether the oldest record has reached every enabled consumer. -/
def headDelivered (s : State) : Bool :=
  (!s.faults.qEn || decide (clipNext s s.faults.qNext ≠ s.faults.head))
    && (!hostOn s || (decide (clipNext s s.faults.hostNext ≠ s.faults.head) && noneWaits s s.faults.head))

/-- AUTO frees records delivered to every enabled consumer; in SAFE nothing frees them (R400, R411). -/
def autoFree : Nat → State → State
  | 0, s => s
  | k + 1, s =>
    if s.faults.auto && (s.faults.qEn || hostOn s) && decide (s.faults.head ≠ s.faults.tail) && headDelivered s
        && decide (s.mstate ≠ .safe) then
      autoFree k { s with faults := { s.faults with head := s.faults.head + 1 } }
    else s

/-- What can move towards the host moves: offers, MAC frames, freed records. -/
def settleHost (s : State) : State := autoFree 256 (macFlush (offerHost 256 s))

/-! ### Requests of the host that complete (13 R312-R314) -/

/-- A session whose close has nothing left to wait for ends (R313, R327, R328); records that only it held up are freed (17 R400). -/
def closeIfDone (s : State) (n : Nat) : State :=
  let v := session s n
  match v.closing with
  | none => s
  | some c =>
    if v.outst = [] then
      let s1 := rewindHost (setSession s n { v with owner := none, sub := false, cache := [], closing := none }) (unsentTo s n)
      settleHost (match v.owner, c with
        | some ep, some f => reply s1 ep f stOK []
        | _, _ => s1)
    else s

/-- The request of session n with that ID completes: answered as often as it was asked, recorded, and the session closed
if it waited for that. -/
def hostComplete (s : State) (n : Nat) (reqid : Word) (st : Nat) (data : List Byte) : State :=
  let v := session s n
  match v.outst.find? (fun o => decide (o.reqid = reqid)) with
  | none => s
  | some o =>
    let st1 := if st = stCANCELLED ∧ o.cancel = 1 then stTIMEOUT else st
    let cache := if frRecorded o.f then cacheInsert v.cache ({ o.f with data := [] }, BitVec.ofNat 8 st1, data) else v.cache
    let s1 := setSession s n { v with outst := v.outst.filter (fun x => decide (x.reqid ≠ reqid)), cache := cache }
    let s2 := match v.owner, v.closing with
      | some _, some none => s1
      | some ep, _ => replyTimes s1 ep o.f st1 data (o.dups + 1)
      | none, _ => s1
    closeIfDone s2 n

/-! ### The log (R398, R399, R401) -/

/-- A record taken into the log: it gets its index, and the error Bells are added to. -/
def logTake (s : State) (r : List Word) : State :=
  let i := s.faults.tail
  let s1 := { s with faults := { s.faults with
    log := tabSet s.faults.log (i.toNat % 256) (listSet r 2 i), tail := i + 1 } }
  let d := recDie r
  let s2 := if d < 4 then addNamed s1 4 0x401 (ownChip s * 2 ^ 13 + d * 2 ^ 9 + 255) 1 .faultQueue else s1
  let s3 := if s.faults.bellEn then addNamed s2 4 0x401 s.faults.bell.toNat 1 .faultQueue else s2
  settleHost s3

/-- Whether a source already holds a record. -/
def holdsRecord (s : State) (src : Word) : Bool := s.faults.held.any (fun h => decide (recSource h.w = src))

/-- A record held at its source, merged into one of its kind there. -/
def holdRecord : List HeldRec → List Word → List HeldRec
  | [], r => [⟨r⟩]
  | h :: t, r =>
    if recSource h.w = recSource r ∧ recKind h.w = recKind r then ⟨recMerge h.w (1 + recRepeat r)⟩ :: t
    else h :: holdRecord t r

/-- A source writes a record: into the log, or held while the log is full or an earlier record of the source waits (R399); none in RESET
(R411). A record of a C-die or of F enters H's log at once, since section 10 has no transaction for it (DESIGN CHOICE, log entry 5). -/
def raise (s0 : State) (r : List Word) : State :=
  let s := if toldFree s0 (recDie r) then { s0 with free := s0.free + 1 } else s0
  if s.mstate = .reset then s0
  else if decide (logCount s < 256) && !holdsRecord s (recSource r) then logTake s r
  else { s with faults := { s.faults with held := holdRecord s.faults.held r } }

/-- The oldest record held at a source. -/
def heldOf (s : State) (src : Word) : Option Nat := s.faults.held.findIdx? (fun h => decide (recSource h.w = src))

/-- Records held at a source enter the log in their order, as far as it has room. -/
def logHeldOf : Nat → State → Word → State
  | 0, s, _ => s
  | n + 1, s, src =>
    match heldOf s src with
    | none => s
    | some i =>
      match s.faults.held[i]? with
      | none => s
      | some h =>
        if logCount s < 256 then
          logHeldOf n (logTake { s with faults := { s.faults with held := s.faults.held.eraseIdx i } } h.w) src
        else s

/-- The record of a fault that halts the machine or ends its boot: while the log has room it enters, behind the records its
source still holds, before the machine state changes (R398, R402). -/
def raiseFirst (s : State) (r : List Word) : State :=
  if s.mstate = .reset then s else raise (logHeldOf s.faults.held.length s (recSource r)) r

/-! ### Halting faults (R402, R412) -/

def hcTHERMAL : Nat := 0
def hcREFCLK : Nat := 1
def hcVAULT : Nat := 2
def hcMEM : Nat := 3
def hcWDOG : Nat := 4
def hcSPIRE : Nat := 5

/-- The record of a halting fault, and in RUN and HALT its bit in SYS_HCAUSE. -/
def haltNote (s : State) (bitNo : Nat) (r : List Word) : State :=
  let s1 := raiseFirst s r
  if s.mstate = .run ∨ s.mstate = .halt then
    let f := s1.faults
    { s1 with faults := { f with
      hkind := if f.hmask = 0 then BitVec.ofNat 16 (recKind r) else f.hkind,
      hmask := f.hmask ||| BitVec.ofNat 6 (2 ^ bitNo) } }
  else s1

/-- The record of an uncorrectable error at an offset of the Vault of die d (11 R257). -/
def vaultRec (s : State) (d off : Nat) (port : Word) : List Word :=
  mkRec s sevFatal 3 (srcWord s skDie d 0) 0x0050 (w32 off) port 0

/-- A WARN record without action. -/
def warn (s : State) (src : Word) (kind : Nat) (d5 d6 d7 : Word) : State :=
  raise s (mkRec s sevWarn 0 src kind d5 d6 d7)

/-- Numbers of the agents of this package, which their shadows (02 R49) and their ADDR_ERROR rate limits (17 R399) go by. -/
def spireReq (d n : Nat) : Nat := d * 32 + n
def bootReq : Nat := 128
def hostReq : Nat := 129
def moverReq (m : Nat) : Nat := 130 + m
def updReq : Nat := 138
def csiReq (r : Nat) : Nat := 140 + r
def uartReq (u : Nat) : Nat := 144 + u

/-- The entry of an agent in the list of rate limits changed. -/
def setLimits (s : State) (l : List AddrLimit) : State := { s with faults := { s.faults with addrLimits := l } }

/-- An address error by an agent, which `agent` numbers: one record in 1 ms, the others counted in the next one (R399). -/
def addrError (s : State) (agent : Nat) (src : Word) (port : Word) (addr : Nat) : State :=
  let ls := s.faults.addrLimits
  let r := mkRec s sevWarn 0 src 0x0001 (w32 addr) (w32 (addr / 2 ^ 32)) port
  if s.mstate = .reset then s
  else
    match ls.find? (fun l => decide (l.agent = agent)) with
    | some l =>
      if since s l.last < 1000000 then
        setLimits s (ls.map (fun x => if x.agent = agent then { x with waiting := x.waiting + 1 } else x))
      else
        raise (setLimits s (ls.map (fun x => if x.agent = agent then ⟨agent, s.tb, 0⟩ else x))) (recMerge r l.waiting)
    | none => raise (setLimits s (ls ++ [⟨agent, s.tb, 0⟩])) r

/-- A Spire's mesh port (09 Table 9-6), and the source in its records. -/
def spirePort (n : Nat) : Nat := 0x40 + n
def spireSrc (s : State) (d n : Nat) : Word := srcWord s skSpire d n

/-- An access of a Spire at device address a ended with a status: an address error or a store to a read-only target is recorded
(R399). -/
def accessRec (s : State) (d n st a : Nat) : State :=
  if st = stADDR ∨ st = stRDONLY then addrError s (spireReq d n) (spireSrc s d n) (w32 (spirePort n)) a else s

end Sys2Proof.Machine
end

