-- ==== Sys2Proof/Machine/FieldOps.lean ====
section
/-! DEFINITION. The field die's states and outputs: what a channel does in each state, and how F enters RSAFE, LIVE and
FSAFE (chapter 15, R350-R360). -/

namespace Sys2Proof.Machine

/-! ### Safe causes (Table 15-2) -/

def fcHALT : Nat := 1
def fcBOOTFAIL : Nat := 2
def fcCMD : Nat := 3
def fcLINK : Nat := 4
def fcWDOG : Nat := 5
def fcFUV : Nat := 6

/-- Causes that persist while their condition does; CMD and WDOG are events. -/
def fcPersists (k : Nat) : Bool := decide (k ≠ fcCMD) && decide (k ≠ fcWDOG)

def pendBit (k : Nat) : BitVec 6 := BitVec.ofNat 6 (2 ^ (k - 1))

/-- The H-F link has come up: before, F is out of reach (R367; 10 R251). -/
def fLinked (s : State) : Bool := (endp s 16).wasUp && (endp s 21).wasUp

/-- F answers: it has its supply, is out of reset and its link to H stands. -/
def fReached (s : State) : Bool := s.f.powered && diesJoined s 4 5 && fLinked s && decide (s.mstate ≠ .reset)

/-! ### Channels -/

/-- The code an enabled AO channel regulates to when commanded (R355). -/
def aoCommand (v : Ao) : BitVec 16 := if v.en then (if v.code.toNat > 48000 then 48000 else v.code) else 0

/-- The code of the safe value that SAFEM selects (R353, R357). -/
def aoSafe (v : Ao) : BitVec 16 :=
  if !v.en then 0
  else match v.safem.toNat with
    | 0 => 0
    | 1 => 7200
    | 2 => 42000
    | _ => v.out

/-- Whether a DO channel's switch conducts. -/
def doOn (v : DoCh) : Bool := v.on && !v.off && !v.flt

/-- A DO channel commanded on or off (R358, R359). -/
def doTurn (v : DoCh) (b : Bool) : DoCh :=
  if b = v.on then v
  else if b then { v with on := true, ext := v.ext && v.flt }
  else { v with on := false, openld := false, retry := 0, off := v.off && v.flt, limit := v.limit && v.flt }

/-- The safe value of DO channel n (R360). -/
def doSafeOn (s : State) (n : Nat) : Bool :=
  let k := s.f.doSafe.toNat / 2 ^ (2 * n) % 4
  decide (k = 1) || (decide (k = 2) && (doCh s n).on)

def setOuts (s : State) (a : Nat → Ao) (d : Nat → DoCh) : State :=
  { s with f := { s.f with ao := (upTo 4).map (fun n => (n, a n)), dout := (upTo 8).map (fun n => (n, d n)) } }

/-- Every channel at its safe value (R353). -/
def outsSafe (s : State) : State :=
  setOuts s (fun n => { ao s n with out := aoSafe (ao s n) }) (fun n => doTurn (doCh s n) (doSafeOn s n))

/-- Every channel at its present command (R352). -/
def outsLive (s : State) : State :=
  setOuts s (fun n => { ao s n with out := aoCommand (ao s n) })
    (fun n => doTurn (doCh s n) (decide (s.f.doCmd.toNat / 2 ^ n % 2 = 1)))

/-! ### States -/

/-- F goes LIVE: the outputs take their commands and the output watchdog restarts. -/
def fLive (s : State) : State :=
  let s1 := outsLive s
  { s1 with f := { s1.f with st := .live, cause := 0, cmdDue := false, wdFrom := s.tb, wdLoose := false } }

/-- The FIELD_SAFE record of an entry to FSAFE (17 R410). -/
def fSafeRec (s : State) (k : Nat) : List Word :=
  mkRec s sevWarn 2 (srcWord s skDie 5 0) 0x0084 (w32 k) (w32 s.f.pend.toNat) 0

/-- The machine is in RESET or BOOT. F is in RSAFE then and its outputs stay in the reset safe state, as R366, 12 R291 and 01
Table 1-10 have it against the safe causes that Table 15-1 lists for RSAFE: a cause acts once the machine has left BOOT (DEDUCED,
log entry 70). -/
def fBoots (s : State) : Bool := decide (s.f.st = .rsafe) && decide (s.mstate = .reset ∨ s.mstate = .boot)

/-- A safe cause arises on F (R351): the first one takes the outputs to their safe values. F that started again behind an isolated
link stays in RSAFE (R368, R369). In BOOT F stays there too (`fBoots`): a cause that persists stands in PEND, and CMD is kept. -/
def fSafe (s : State) (k : Nat) : State :=
  if !s.f.powered || s.f.lone then s
  else
    let s1 := { s with f := { s.f with
      pend := if fcPersists k then s.f.pend ||| pendBit k else s.f.pend
      cmdDue := s.f.cmdDue || (fBoots s && decide (k = fcCMD)) } }
    if s.f.st = .fsafe || fBoots s then s1
    else
      let s2 := outsSafe s1
      let s3 := { s2 with f := { s2.f with st := .fsafe, cause := BitVec.ofNat 3 k } }
      if decide (k ∈ [fcCMD, fcWDOG, fcFUV]) && fReached s3 then raise s3 (fSafeRec s3 k) else s3

/-- A persisting cause has gone. -/
def fCauseGone (s : State) (k : Nat) : State := { s with f := { s.f with pend := s.f.pend &&& ~~~(pendBit k) } }

/-- F has taken a valid flit from H. -/
def fTakes (s : State) : State := fCauseGone s fcLINK

/-- Whether the field supply is still below 17 V while FUV is pending: it is not F that decides (log entry 27). -/
def fSupplySeen (s : State) : State :=
  if s.f.pend.getLsbD 5 then
    let (b, s1) := drawBool s
    if b then s1 else fCauseGone s1 fcFUV
  else s

/-- The machine runs: F in RSAFE goes LIVE, or to FSAFE where it has lost H since or its supply has been too low since before (log entry
70). -/
def fRun (s : State) : State :=
  if s.f.st = .rsafe then
    let s1 := fSupplySeen s
    if s1.f.pend = 0 then fLive s1 else fSafe s1 (if s1.f.pend.getLsbD 3 then fcLINK else fcFUV)
  else s

/-- F leaves BOOT's reset safe state with the cause CMD that has arisen there (log entry 70). -/
def fCmdDue (s : State) : State :=
  let s1 := { s with f := { s.f with cmdDue := false } }
  if s.f.cmdDue then fSafe s1 fcCMD else s1

/-- F acts on a report of H (R350, R351). -/
def fReport (s : State) (m : MState) : State :=
  let s1 := { s with f := { s.f with report := m } }
  let s2 := fCauseGone (fCauseGone s1 fcHALT) fcBOOTFAIL
  match m with
  | .halt => fSafe (fCmdDue s2) fcHALT
  | .safe => fSafe (fCmdDue s2) fcBOOTFAIL
  | .run => fRun (fCmdDue s2)
  | _ => s2

/-- The states as a report codes them, and back (DESIGN CHOICE, log entry 82). -/
def reportCode (m : MState) : Nat :=
  match m with
  | .reset => 0
  | .boot => 1
  | .run => 2
  | .halt => 3
  | .safe => 4
def reportOf (k : Nat) : Option MState := [MState.reset, .boot, .run, .halt, .safe][k]?

/-- The oldest report put into what H sends to F, over the SYS channel. -/
def sendReport (s : State) (m : MState) : State :=
  sendTxn s 16 (mkTxn s { kind := kREPORT, addr := devAddr (ownChip s) 5 0, operand := w32 (reportCode m) } 0 0)

/-- The machine has left BOOT and no report of it can reach F: one that lost H there enters FSAFE with LINK (R368, log entry 70). -/
def fLost (s : State) (m : MState) : State :=
  if s.f.pend.getLsbD 3 ∧ s.f.st = .rsafe ∧ m ≠ .reset ∧ m ≠ .boot then fSafe s fcLINK else s

/-! ### Requests from H -/

/-- REARM (R352): F in FSAFE goes LIVE when H last reported RUN and no cause is pending. -/
def fRearm (s : State) : State :=
  if s.f.st = .fsafe then
    let s1 := fSupplySeen s
    if s1.f.report = .run ∧ s1.f.pend = 0 then fLive s1 else s1
  else s

/-- FIO_CTL as a write leaves it: SAFE wins over REARM. -/
def fioCtlWrite (s : State) (v : Word) : State :=
  if bit v 1 then fSafe s fcCMD else if bit v 0 then fRearm s else s

/-- What a request from H makes F do: the request is a valid flit that F takes (R351). In SAFE nothing sends any (01 Table 1-10). -/
def fAsked (s : State) (g : State → State) : State := if fReached s && regsUp s then g (fTakes s) else s

/-- FIO_CTL.SAFE = 1, or what has its effect (R351; 17 R404). -/
def fOrderedSafe (s : State) : State := fAsked s (fun t => fioCtlWrite t 2)

end Sys2Proof.Machine
end

