-- ==== Sys2Proof/Machine/SpireOps.lean ====
section
/-! DEFINITION. A Spire's registers, windows and local memory, how an operation it waits for ends, and how it halts
(chapter 8). -/

namespace Sys2Proof.Machine

/-! ### Registers (R179, R180) -/

/-- The place of specifier r under window k in the register file. -/
def regIdx (k r : Nat) : Nat := if r < 8 then r else 8 + 16 * k + (r - 8)

/-- Register r; g0 reads 0. -/
def spReg (v : Spire) (r : Nat) : Word := if r = 0 then 0 else tabGet 0 v.regs (regIdx v.cwp r)

/-- Register r written; a write to g0 is discarded. -/
def spSet (v : Spire) (r : Nat) (x : Word) : Spire :=
  if r = 0 then v else { v with regs := tabSet v.regs (regIdx v.cwp r) x }

def xstatWord (v : Spire) : Word := w32 (v.acause.toNat * 65536 + v.xcode.toNat * 256 + v.xcwp.toNat)

/-! ### Local memory (R187, R189) -/

def locSize : Nat := 0x10000
def locAt (n a : Nat) : Nat := n * locSize + a

/-- The word of local memory at an aligned address, or 0 where the address lies outside it. -/
def locWord (c : CDie) (n a : Nat) : Word := leWord (memBytes 0 c.spireMem (locAt n a) 4)

def locBytes (c : CDie) (n a k : Nat) : List Byte := memBytes 0 c.spireMem (locAt n a) k

/-- The words that k bytes from a touch, with what they hold: a fetch may return them until IFLUSH. -/
def staleWords (c : CDie) (n a k : Nat) : List (Nat × Word) :=
  if k = 0 then []
  else (countFrom (a / 4) ((a + k - 1) / 4 + 1 - a / 4)).map (fun j => (4 * j, locWord c n (4 * j)))

/-- Whether fetches of a Spire go on, so that writes to its memory may be seen late. -/
def spFetches (v : Spire) : Bool := decide (v.st = .running) || decide (v.st = .waiting)

/-- Bytes written into the local memory of Spire n of a die, which lie inside it. -/
def locPut (c : CDie) (n a : Nat) (bs : List Byte) : CDie :=
  let v := tabGet {} c.spires n
  let sp := if spFetches v then
      tabSet c.spires n { v with
        stale := v.stale ++ (staleWords c n a bs.length).filter (fun e => !decide (e ∈ v.stale)) }
    else c.spires
  { c with spireMem := memPut 0 c.spireMem (locAt n a) bs, spires := sp }

/-- Whether k bytes from a lie wholly in local memory. -/
def inLocal (a k : Nat) : Bool := decide (a + k ≤ locSize)

/-- Bytes written into the local memory of Spire n of die d. -/
def putLocal (s : State) (d n a : Nat) (bs : List Byte) : State := setCd s d (locPut (cd s d) n a bs)

/-! ### Starting (R199) -/

/-- A HELD or HALTED Spire started at its entry; any other is left alone. HCAUSE reads 0 again, none (DEDUCED, log entry 71). -/
def spireStart (v : Spire) : Spire :=
  if v.st = .held ∨ v.st = .halted then
    { v with
      st := .running, runBit := true, hcause := 0, pc := w32 (v.entry.toNat * 4), cwp := 0, live := 1, ie := false, rm := 0,
      fflags := 0, tcmp := 0xFFFF_FFFF_FFFF_FFFF, xbase := v.xbaserst, wait := none, mesh := none }
  else v

/-- Spires started, each given by die and number. -/
def startSpires (s : State) : List (Nat × Nat) → State
  | [] => s
  | p :: ps => startSpires (setSpire s p.1 p.2 (spireStart (spire s p.1 p.2))) ps

/-- A Spire whose RUN was set while the machine was not in RUN: it reads 1 from then on, and the Spire starts as RUN is entered
(DEDUCED, log entry 57). -/
def spireArm (v : Spire) : Spire := if v.st = .held ∨ v.st = .halted then { v with runBit := true } else v

/-- A Spire that waits so, started. -/
def startArmed (v : Spire) : Spire := if v.runBit then spireStart v else v

/-- Every Spire that waits so, started: the machine enters RUN. -/
def startAllArmed (s : State) : State :=
  mapDies s (fun c => { c with spires := c.spires.map (fun e => (e.1, startArmed e.2)) })

/-! ### Halting and the end of a wait (R193, R194, R199, R201) -/

/-- A Spire halted, with its cause; hardware clears RUN. -/
def haltSpire (v : Spire) (hc : BitVec 4) : Spire :=
  { v with st := .halted, hcause := hc, runBit := false, wait := none, mesh := none }

/-- The waiting instruction of Spire n completes with a status of 10 Table 10-7; a QPOP that was performed delivers the
entry. An operation cancelled at the Spire's own wish ends as that wish says: TIMER with the instruction still to be issued, RUN = 0
and HALT with the Spire halted before it. A wait abandoned by HALT that its target can no longer answer, as its ports have closed, has
no effect either (R201). -/
def spireDone (s : State) (d n : Nat) (st : Nat) (data : List Byte) : State :=
  let v := spire s d n
  match v.wait with
  | none => s
  | some w =>
    if st = stCANCELLED ∧ w.abandon = 1 then setSpire s d n { v with wait := none, st := .running }
    else if (st = stCANCELLED ∧ w.abandon ≥ 2) ∨ (st = stISOLATED ∧ w.abandon = 3) then setSpire s d n (haltSpire v (if w.abandon = 2 then 2 else 5))
    else
      let s1 := if w.kind = .qpop ∧ st = stOK then putLocal s d n w.addr.toNat data else s
      let v1 := spSet { spire s1 d n with wait := none, st := .running, pc := v.pc + 4 } w.rd
        (w32 (if st = stCANCELLED then 3 else spStatus st))
      setSpire s1 d n (if w.abandon ≥ 2 then haltSpire v1 (if w.abandon = 2 then 2 else 5) else v1)

/-- The data or the acknowledgement of an access that left local memory has come back (R188): it waits for its delivery. -/
def meshAnswer (s : State) (d n : Nat) (st : Nat) (value : Word) : State :=
  let v := spire s d n
  match v.mesh with
  | none => s
  | some m => setSpire s d n { v with mesh := some { m with held := false, answer := some (BitVec.ofNat 8 st, value) } }

/-- A loaded value: the low bytes of what came back, sign- or zero-extended (08 Table 8-7). -/
def loadExt (size : Nat) (sgn : Bool) (x : Word) : Word :=
  if size = 4 then x
  else
    let v := x.toNat % 2 ^ (8 * size)
    w32 (if sgn ∧ v ≥ 2 ^ (8 * size - 1) then 2 ^ 32 - 2 ^ (8 * size) + v else v)

/-- An access without error completes: a load writes its register. -/
def meshDone (v : Spire) (m : MeshAcc) (x : Word) : Spire :=
  let v1 := { v with mesh := none, pc := v.pc + 4 }
  if m.isStore then v1 else spSet v1 m.rd (loadExt m.size m.signed x)

/-- A Spire stopped by the machine's HALT (R201): an access that its target has taken is complete. One whose operation another die
may hold stays WAITING until that die answers the CANCEL (10 R240). -/
def spireHalts (v : Spire) : Spire :=
  if v.wait.map (·.abandon) = some 3 then v
  else if v.st = .running ∨ v.st = .waiting then
    match v.mesh with
    | some m =>
      match m.answer with
      | some (st, x) => haltSpire (if st = 0 then meshDone v m x else v) 5
      | none => haltSpire v 5
    | none => haltSpire v 5
  else v

end Sys2Proof.Machine
end

