-- ==== Sys2Proof/Machine/QueueOps.lean ====
section
/-! DEFINITION. Queues: entering and taking entries, completion records, and how an operation on
a Bell or a queue answers whoever asked for it (chapter 9). -/

namespace Sys2Proof.Machine

/-! ### Entries (R209-R211, R216) -/

def queDepth (q : Queue) : Nat := 2 ^ q.ldepth.toNat
def queEntry (q : Queue) : Nat := if q.esize then 64 else 32

/-- Vault offset of entry number i. -/
def queSlot (q : Queue) (i : Word) : Nat := q.base.toNat * 64 + i.toNat % queDepth q * queEntry q

/-- A ring lies wholly inside the Vault. -/
def queInVault (q : Queue) : Bool := decide (q.base.toNat * 64 + queDepth q * queEntry q ≤ vaultSize)

/-- STATE of QUE_STAT: 0 DISABLED, 1 RUN, 2 STOPPED. -/
def queState (q : Queue) : Nat := if !q.en then 0 else if q.stopped then 2 else 1

def queRoom (q : Queue) : Bool := q.en && decide (q.occ < queDepth q)

/-- Header of an entry (Table 9-1). -/
def entryHeader (s : State) (hdr0 hdr1 seq : Word) : List Word :=
  [hdr0, hdr1, seq, loWord s.tb, hiWord s.tb, 0, 0, 0]

/-- The push raises the occupancy to HWM (R216); at HWM = 2^LDEPTH nothing is counted either (DESIGN CHOICE, log entry 80). -/
def atHwm (q : Queue) : Bool :=
  q.hwen && decide (q.hwm ≠ 0) && decide (q.hwm.toNat < queDepth q) && decide (q.occ + 1 = q.hwm.toNat)

/-- The queue writes an entry: QUE_SEQ and the occupancy advance, and a crossing of HWM rings its Bell. Where
rings overlap the bytes last written stand (DESIGN CHOICE, log entry 80). -/
def enterEntry (s : State) (d q : Nat) (hdr0 hdr1 : Word) (body : List Word) : State :=
  let v := queue s d q
  let ws := if v.esize then entryHeader s hdr0 hdr1 v.seq ++ padTo 8 body else padTo 8 body
  let s1 := setCd s d (vaultWords (cd s d) (queSlot v v.seq) ws)
  let s2 := setQueue s1 d q { v with
    seq := v.seq + 1, occ := v.occ + 1, hwcnt := if atHwm v then satAdd v.hwcnt 1 else v.hwcnt }
  if atHwm v then addBell s2 d v.hwbell.toNat 1 else s2

/-- The number of the oldest entry. -/
def queHead (q : Queue) : Word := q.seq - w32 q.occ

/-- The oldest entry of a queue as its ring holds it, or the Vault offset whose error cannot be corrected. -/
def readEntry (c : CDie) (q : Queue) : Except Nat (List Byte × CDie) := vaultLoad c (queSlot q (queHead q)) (queEntry q)

/-- The oldest entry taken from the queue: OCC falls as it is taken, by a front-end that then holds a WAIT or RING too (DEDUCED, log entry
51). -/
def popEntry (s : State) (d q : Nat) : Except Nat (List Byte × State) :=
  match readEntry (cd s d) (queue s d q) with
  | .error o => .error o
  | .ok (bs, c) =>
    let s1 := setCd s d c
    .ok (bs, setQueue s1 d q { queue s d q with occ := (queue s d q).occ - 1 })

/-! ### Completion records (R214) -/

/-- A completion record. -/
def compRecord (s : State) (kind unit die : Nat) (st opc : Nat) (ctl counters result seq : Word) : List Word :=
  [w32 (2 * 2 ^ 28 + kind * 2 ^ 24 + unit * 2 ^ 16 + ownChip s * 2 ^ 13 + die * 2 ^ 9 + st),
    w32 (opc * 2 ^ 16 + field ctl 15 0), counters, result, loWord s.tb, hiWord s.tb, seq, 0]

/-- Fields of a completion word: BELL, BELLEN, COMPQ, TAG (04 Table 4-4, word 5). -/
def ctlBell (w : Word) : Nat := field w 31 24
def ctlBellEn (w : Word) : Bool := bit w 23
def ctlCompq (w : Word) : Nat := field w 22 16

/-- Header words of an entry that hardware pushes. -/
def hdrRecord : Word := 0x2000_0000
def hdrPush : Word := 0x1000_0000
def hdrSource (s : State) (kind die unit : Nat) : Word :=
  w32 (kind * 2 ^ 16 + ownChip s * 2 ^ 13 + die * 2 ^ 9 + unit)

/-! ### The queue front-end's own entries (R213, R227) -/

/-- BELL of a done entry or command added to, when BELLEN is set (R213, R215). -/
def ringCtl (s : State) (d : Nat) (ctl : Word) : State := if ctlBellEn ctl then addBell s d (ctlBell ctl) 1 else s

/-- The entry that the front-end holds is done with: the Bell rings unless the entry was malformed. -/
def feFinish (s : State) (d q : Nat) : State :=
  match (queue s d q).fe with
  | none => s
  | some h =>
    let s1 := setQueue s d q { queue s d q with fe := none }
    if h.phase = 3 then s1 else ringCtl s1 d (wordAt h.w 7)

/-- The front-end's completion record with a status, put to COMPQ; `phase` 2, or 3 for a malformed entry. -/
def feComplete (s : State) (d q : Nat) (st phase : Nat) : State :=
  match (queue s d q).fe with
  | none => s
  | some h =>
    let ctl := wordAt h.w 7
    let r := compRecord s skFront q d st (field (wordAt h.w 0) 31 28) ctl 0 0 h.seq
    let s1 := setQueue s d q { queue s d q with fe := some { h with phase := phase } }
    let c := ctlCompq ctl
    setQueue s1 d c { queue s1 d c with
      pushes := (queue s1 d c).pushes ++ [⟨.frontEnd d q, hdrRecord, hdrSource s skFront d q, r⟩] }

/-- The entry that a front-end holds has ended with a status: a satisfied one writes a record only with CMPL, any other
always; a WAIT that failed stops its queue (R213, R227). In HALT no front-end runs (01 Table 1-10): the status stays with the entry. -/
def feEnd (s : State) (d q : Nat) (st : Nat) : State :=
  match (queue s d q).fe with
  | none => s
  | some h =>
    let isWait := decide (field (wordAt h.w 0) 31 28 = 15)
    let s1 := if isWait && decide (st ≠ 0) then setQueue s d q { queue s d q with stopped := true } else s
    if s.mstate ≠ .run then setQueue s d q { queue s d q with fe := some { h with ended := some st } }
    else if st = 0 ∧ !bit (wordAt h.w 0) 27 then feFinish s1 d q
    else feComplete s1 d q st 2

/-- A front-end acts on the status of an operation that ended in HALT (17 R405). -/
def feLate (s : State) (d q : Nat) : State :=
  match (queue s d q).fe with
  | none => s
  | some h =>
    match h.ended with
    | some st => feEnd (setQueue s d q { queue s d q with fe := some { h with ended := none } }) d q st
    | none => s

/-- Every queue of the package with an entry at its front-end. -/
def heldEntries (s : State) : List (Nat × Nat) :=
  (upTo 4).flatMap (fun d => ((cd s d).queues.filter (fun e => e.2.fe.isSome)).map (fun e => (d, e.1)))

/-- Every front-end goes on when the machine runs again. -/
def feResume (s : State) : State := (heldEntries s).foldl (fun t p => feLate t p.1 p.2) s

/-! ### Answers -/

/-- A response on the link for a request of channel ch. -/
def answerRemote (s : State) (ep : Nat) (tid : BitVec 16) (src : Word) (addr ch st : Nat) (data : List Byte) : State :=
  respond s ep tid src addr ch st data

/-- An operation that somebody waits for has ended: its status and the data of a read or the entry of a QPOP. The status of a WAIT or
RING whose Bell's request is answered ADDR is 0x11 like ISOLATED, and with any other error 0x10 (DESIGN CHOICE, log entry 47: 09 Table
9-3 has none for them). -/
def answerOp (s : State) (who : Origin) (st : Nat) (data : List Byte) : State :=
  match who with
  | .spire d n => spireDone s d n st data
  | .frontEnd d q =>
    feEnd s d q (if st = stOK then 0 else if st = stISOLATED ∨ st = stADDR then 0x11 else 0x10)
  | .host n reqid => hostComplete s n reqid st data
  | .remote ep ch tid src addr => answerRemote s ep tid src addr ch st data
  | .wupd n reqid => hostComplete s n reqid st data
  | .unit _ => s
  | .update => s
  | .faultQueue => s
  | .eventQueue => s
  | .bootWrite => s
  | .camera _ _ _ _ => s
  | .serialIn _ _ => s
  | .serialOut _ _ => s
  | .boot => s

end Sys2Proof.Machine
end

