-- ==== Sys2Proof/Machine/UnitOps.lean ====
section
/-! DEFINITION. The units that take commands from queues: the command in execution and the commands done whose
completion is still to be written (09 R212, R215). -/

namespace Sys2Proof.Machine

/-- The command-queue register as it acts: one written while a command executes takes effect when that command has ended (04 Table
4-10; 05; 06; 11 Table 11-9). -/
def usedNow {α : Type} (cmd : Option UnitCmd) (was : Option α) (now : α) : α := if cmd.isSome then was.getD now else now

/-- What stays in force when the register is written. -/
def nowWas {α : Type} (cmd : Option UnitCmd) (was : Option α) (now : α) : Option α := if cmd.isSome then some (was.getD now) else none

def unitCmd (s : State) : UnitRef → Option UnitCmd
  | .dome d n => (dome s d.val n.val).cmd
  | .tower d n => (tower s d.val n.val).cmd
  | .plinth d n => (plinth s d.val n.val).cmd
  | .lantern d n => (lantern s d.val n.val).cmd
  | .mover m => (mover s m.val).cmd

/-- A unit begins a command, or ends one: its command queue is the one last written. -/
def setUnitCmd (s : State) (u : UnitRef) (c : Option UnitCmd) : State :=
  match u with
  | .dome d n => setDome s d n { dome s d n with cmd := c, cmdqWas := none }
  | .tower d n => setTower s d n { tower s d n with cmd := c, cmdqWas := none }
  | .plinth d n => setPlinth s d n { plinth s d n with cmd := c, cmdqWas := none }
  | .lantern d n => setLantern s d n { lantern s d n with cmd := c, cmdqWas := none }
  | .mover m => setMover s m { mover s m with cmd := c, was := none }

def unitDones (s : State) : UnitRef → List Done
  | .dome d n => (dome s d.val n.val).doneQ
  | .tower d n => (tower s d.val n.val).doneQ
  | .plinth d n => (plinth s d.val n.val).doneQ
  | .lantern d n => (lantern s d.val n.val).doneQ
  | .mover m => (mover s m.val).doneQ

def setUnitDones (s : State) (u : UnitRef) (l : List Done) : State :=
  match u with
  | .dome d n => setDome s d n { dome s d n with doneQ := l }
  | .tower d n => setTower s d n { tower s d n with doneQ := l }
  | .plinth d n => setPlinth s d n { plinth s d n with doneQ := l }
  | .lantern d n => setLantern s d n { lantern s d n with doneQ := l }
  | .mover m => setMover s m { mover s m with doneQ := l }

/-- Source kind and die of a unit in records (09 Table 9-1; a mover is an H engine, 11 R264). -/
def unitKind : UnitRef → Nat
  | .dome _ _ => skDome
  | .tower _ _ => skTower
  | .plinth _ _ => skPlinth
  | .lantern _ _ => skLantern
  | .mover _ => skEngine

def unitSrc (s : State) (u : UnitRef) : Word := srcWord s (unitKind u) (uNum u).1 (uNum u).2

/-- Mesh port of a unit (09 Table 9-6); the movers have none (log entry 22). -/
def unitPort : UnitRef → Word
  | .dome _ n => w32 (0x200 + n.val)
  | .tower _ n => w32 n.val
  | .plinth _ n => w32 (0x20 + n.val)
  | .lantern _ n => w32 (0x60 + n.val)
  | .mover m => Config.moverPort m.val

def moverSrcPort (m : Nat) : Nat := (Config.moverPort m).toNat % 65536

/-- The word of a command that holds BELL, BELLEN, COMPQ and TAG (04 Table 4-4; 05 R127; 06; 11 Table 11-7). -/
def unitCtl (u : UnitRef) (c : UnitCmd) : Word :=
  match u with
  | .dome _ _ => wordAt c.w 5
  | _ => wordAt c.w 7

def cmdOpc (c : UnitCmd) : Nat := field (wordAt c.w 0) 31 28

/-- A command done with: its completion waits to be written. -/
def addDone (s : State) (u : UnitRef) (c : UnitCmd) (st : Nat) (counters result : Word) : State :=
  setUnitDones s u (unitDones s u ++
    [⟨BitVec.ofNat 4 (cmdOpc c), BitVec.ofNat 8 st, counters, result, unitCtl u c, c.seq, c.queue, c.die, false⟩])

/-- The unit's command in execution is done. -/
def finishCmd (s : State) (u : UnitRef) (st : Nat) (counters result : Word) : State :=
  match unitCmd s u with
  | none => s
  | some c => addDone (setUnitCmd s u none) u c st counters result

/-- The oldest command done with is over: it counts as completed for the RING entries behind it (09 R213). -/
def unitOver (s : State) (u : UnitRef) : State :=
  match unitDones s u with
  | [] => s
  | c :: rest =>
    let s1 := setUnitDones s u rest
    let d := c.die
    let s2 := setQueue s1 d c.queue { queue s1 d c.queue with
      open_ := (queue s1 d c.queue).open_.filter (fun x => decide (x ≠ c.seq)) }
    match u with
    | .mover m => setMover s2 m { mover s2 m with last := c.status }
    | .plinth e n => setPlinth s2 e n { plinth s2 e n with read := none }
    | _ => s2

/-- A completion record has been taken by its COMPQ: the Bell rings, and the command is over (09 R215). -/
def unitRecorded (s : State) (u : UnitRef) : State :=
  match unitDones s u with
  | [] => s
  | c :: _ => ringCtl (unitOver s u) c.die c.ctl

end Sys2Proof.Machine
end

