-- ==== Sys2Proof/Machine/PlinthOps.lean ====
section
/-! DEFINITION. A Plinth's accumulators, its intake of pairs, and the chain buffers (chapter 5, sections 5.1.3, 5.1.4 and
5.1.7). -/

namespace Sys2Proof.Machine

/-! ### Fields shared by the commands of Towers and Plinths (05 Table 5-1, word 1) -/

def cmdRow (c : UnitCmd) : Nat := field (wordAt c.w 1) 24 16
def cmdM (c : UnitCmd) : Nat := field (wordAt c.w 1) 15 8 + 1
def cmdN (c : UnitCmd) : Nat := field (wordAt c.w 1) 5 0 + 1

def inRows (lo m r : Nat) : Bool := decide (lo ≤ r) && decide (r < lo + m)

/-! ### Accumulators (R110) -/

def acc (p : Plinth) (i : Nat) : Acc := tabGet {} p.acc i
def rowIsInt (p : Plinth) (r : Nat) : Bool := decide (r ∈ p.intRows)

/-- The mode of rows lo .. lo + m - 1 set. -/
def setMode (p : Plinth) (lo m : Nat) (int : Bool) : Plinth :=
  { p with intRows := (upTo 512).filter (fun r => if inRows lo m r then int else rowIsInt p r) }

/-- An accumulator written; a count past 65,536 sets LONG_SUM (R116), and so does every later fold into it (DEDUCED, log
entry 58). -/
def setAcc (p : Plinth) (i : Nat) (a : Acc) : Plinth :=
  { p with acc := tabSet p.acc i a, longSum := p.longSum || decide (a.cnt > 65536) }

/-- Held pairs of rows discarded and counted (R129). -/
def discardHeld (p : Plinth) (lo m : Nat) : Plinth :=
  let ds := p.held.filter (fun x => inRows lo m (x.idx / 64))
  { p with held := p.held.filter (fun x => !inRows lo m (x.idx / 64)), disc := satAdd p.disc ds.length }

/-- CLEAR of n columns of rows lo .. lo + m - 1, the row mode apart (R129). Held pairs are discarded for every column of the
rows (DEDUCED, log entry 58). -/
def clearAccs (p : Plinth) (lo m n : Nat) : Plinth :=
  discardHeld { p with acc := p.acc.filter (fun e => !(inRows lo m (e.1 / 64) && decide (e.1 % 64 < n))) } lo m

/-- No pair is held for the rows (R113). -/
def settled (p : Plinth) (lo m : Nat) : Bool := p.held.all (fun x => !inRows lo m (x.idx / 64))

/-! ### Folding (R114, R115) -/

/-- A pair folded into an accumulator of its own mode. -/
def foldAcc (a : Acc) (p : Pair) : Acc × Tally :=
  let c := min (a.cnt + 1) 65537
  if p.isInt then (⟨a.sum + p.hi, a.err, a.next + 1, c⟩, {})
  else
    let r := foldWords a.sum.toNat a.err.toNat p.hi.toNat p.lo.toNat
    (⟨w32 r.1, w32 r.2.1, a.next + 1, c⟩, r.2.2)

/-- What events of a Plinth leave: the flags of the Tower with its number (R76, R132). -/
def plFlags (s : State) (d n : Nat) (f : TFlags) : State :=
  setTower s d n { tower s d n with flags := (tower s d n).flags ||| f }

/-- An accumulator whose contents become unspecified: both words free values. -/
def spoilAcc (s : State) (d n i : Nat) : State :=
  let (v, s1) := drawWord s
  let (e, s2) := drawWord s1
  setPlinth s2 d n { plinth s2 d n with acc := tabSet (plinth s2 d n).acc i { acc (plinth s2 d n) i with sum := v, err := e } }

/-- A pair is held whose segment NEXT has passed: its accumulator has had two pairs of one segment (04 R85; DEDUCED, log entry
59). -/
def accSpoiled (p : Plinth) (i : Nat) : Bool :=
  p.held.any (fun y => decide (y.idx = i) && decide (y.seg.toNat < (acc p i).next.toNat))

/-- A pair folded into its accumulator: one of the row's other mode leaves the contents unspecified and sets INV (R134). -/
def foldInto (s : State) (d n : Nat) (x : Pair) : State :=
  let p := plinth s d n
  let a := acc p x.idx
  if x.isInt = rowIsInt p (x.idx / 64) then
    let r := foldAcc a x
    let s1 := setPlinth s d n { setAcc p x.idx r.1 with foldflush := satAdd p.foldflush r.2.flush }
    plFlags s1 d n r.2.flags
  else
    let (v, s1) := drawWord s
    let (e, s2) := drawWord s1
    plFlags (setPlinth s2 d n (setAcc p x.idx ⟨v, e, a.next + 1, min (a.cnt + 1) 65537⟩)) d n fINV

/-- A pair folded; contents that two pairs of one segment have spoiled stay unspecified (04 R85). -/
def foldPair (s : State) (d n : Nat) (x : Pair) : State :=
  let t := foldInto s d n x
  if accSpoiled (plinth t d n) x.idx then spoilAcc t d n x.idx else t

/-- Held pairs of an accumulator whose segments now follow in order folded (R111). -/
def foldHeld : Nat → State → Nat → Nat → Nat → State
  | 0, s, _, _, _ => s
  | k + 1, s, d, n, i =>
    let p := plinth s d n
    match p.held.find? (fun x => decide (x.idx = i) && decide (x.seg = (acc p i).next)) with
    | none => s
    | some x =>
      let s1 := setPlinth s d n { p with held := p.held.erase x }
      foldHeld k (foldPair s1 d n x) d n i

/-- A command that reads rows: DRAIN, READT or CHAIN. -/
def isReader (c : UnitCmd) : Bool := decide (cmdOpc c = 10) || decide (cmdOpc c = 11) || decide (cmdOpc c = 13)

/-- Row r is read by a DRAIN, READT or CHAIN that has settled and is not completed: a pair of it waits at its port (R119,
R120). A reader that still settles lets pairs in. -/
def rowsRead (p : Plinth) (r : Nat) : Bool :=
  (match p.read with
    | some x => inRows x.1 x.2 r
    | none => false) ||
  (match p.cmd with
    | some c => isReader c && settled p (cmdRow c) (cmdM c) && inRows (cmdRow c) (cmdM c) r
    | none => false)

/-- A second pair with a segment index that has reached this accumulator: its first is held, or has been folded since NEXT
was last 0 (04 R85; DEDUCED, log entry 59). -/
def pairAgain (p : Plinth) (x : Pair) : Bool :=
  p.held.any (fun y => decide (y.idx = x.idx) && decide (y.seg = x.seg))
    || decide (x.seg.toNat < (acc p x.idx).next.toNat)

/-- A pair comes into the Plinth from a port: folded, held, or none where it must wait (R111, R112, R119). Every pair whose
segment is not NEXT is held; a second one of one segment for one accumulator leaves its contents unspecified (04 R85). -/
def takePair (s : State) (d n : Nat) (x : Pair) : Option State :=
  let p := plinth s d n
  if rowsRead p (x.idx / 64) then none
  else if x.seg = (acc p x.idx).next then some (foldHeld p.held.length (foldPair s d n x) d n x.idx)
  else if p.held.length ≥ 4096 then none
  else
    let s1 := setPlinth s d n { p with held := p.held ++ [x] }
    some (if pairAgain p x then spoilAcc s1 d n x.idx else s1)

/-- The pairs at a port. -/
def portPairs (p : Plinth) (fromTower : Bool) : List Pair := if fromTower then p.towerPort else p.domePort
def setPort (p : Plinth) (fromTower : Bool) (l : List Pair) : Plinth :=
  if fromTower then { p with towerPort := l } else { p with domePort := l }

/-- A port after a pair of one source has been taken: the oldest pair of the source whose turn it is comes to its head. The Domes of a
port are served in turn (02 R39; 04 R84; log entry 64), and a Tower is the one source of its own. -/
def nextTurn (last : Nat) (l : List Pair) : List Pair :=
  match l.find? (fun y => decide (y.src = nextInput last (l.map (·.src)))) with
  | some y => y :: l.erase y
  | none => l

/-- The pair at the head of a port taken in, or none where it waits. -/
def takePort (s : State) (d n : Nat) (fromTower : Bool) : Option State :=
  match portPairs (plinth s d n) fromTower with
  | [] => none
  | x :: rest => takePair (setPlinth s d n (setPort (plinth s d n) fromTower (nextTurn x.src rest))) d n x

/-- Everything a port can take in now. -/
def drainPort : Nat → State → Nat → Nat → Bool → State
  | 0, s, _, _, _ => s
  | k + 1, s, d, n, t =>
    match takePort s d n t with
    | none => s
    | some s1 => drainPort k s1 d n t

/-! ### Requests outstanding (10 R237) -/

/-- Every request outstanding, with its party. -/
def allAsks (s : State) : List (Nat × Outst) := s.nld.parties.flatMap (fun p => p.2.outst.map (fun o => (p.1, o)))

/-- Two entries of one party stand for the same request. -/
def sameAsk (o x : Outst) : Bool := decide (x.ask = o.ask) && decide (x.ch = o.ch) && decide (x.tid = o.tid)

/-- A list to send without the request of number `ask` on channel vc, whole; `on` says that its pairs are being dropped. One whose
header has left keeps the rest of its pairs. -/
def dropFlits (ask vc : Nat) : Bool → List TxFlit → List TxFlit
  | _, [] => []
  | on, f :: fs =>
    if f.vc ≠ vc then f :: dropFlits ask vc on fs
    else if f.fk = 2 then
      if f.ask = ask then dropFlits ask vc true fs else f :: dropFlits ask vc false fs
    else if on then dropFlits ask vc on fs else f :: dropFlits ask vc on fs

/-- A request taken out of its party's outstanding ones, and out of its endpoint's list where it waits there to be sent, or to be sent
again (R244). -/
def dropAsk (s : State) (p : Nat) (o : Outst) : State :=
  let s1 := setParty s p { party s p with 
    outst := (party s p).outst.filter (fun x => !sameAsk o x),
    calledOff := (party s p).calledOff.filter (fun k => decide (k ≠ o.ask)) }
  setEndp s1 o.ep { endp s1 o.ep with txq := dropFlits o.ask o.ch false (endp s1 o.ep).txq }

/-- A request waits in its endpoint's list, not sent yet or to be sent again. -/
def askWaits (s : State) (o : Outst) : Bool :=
  (endp s o.ep).txq.any (fun f => decide (f.fk = 2) && decide (f.vc = o.ch) && decide (f.ask = o.ask))

/-- The request stays outstanding with nobody to answer. -/
def orphan (s : State) (p : Nat) (o : Outst) : State :=
  setParty s p { party s p with
    outst := (party s p).outst.map (fun x => if sameAsk o x then { x with who := .boot } else x) }

/-- A request whose sender no longer reaches the links: one that waits to be sent, or to be sent again, is discarded, any other stays
without anybody to answer. -/
def forsake (s : State) (p : Nat) (o : Outst) : State := if o.sent && !askWaits s o then orphan s p o else dropAsk s p o

/-! ### Chains (R124-R126, 10 R241) -/

/-- Chip, die and Plinth of a chain neighbour. -/
def chainPlace (w : Word) : Nat × Nat × Nat := (field w 15 13, field w 12 9, field w 8 6)
def cmdChid (c : UnitCmd) : BitVec 16 := (wordAt c.w 2).extractLsb' 16 16
def cmdFirst (c : UnitCmd) : Bool := bit (wordAt c.w 0) 27
def cmdLast (c : UnitCmd) : Bool := bit (wordAt c.w 0) 26
def cmdNext (c : UnitCmd) : Word := wordAt c.w 3
def cmdPrev (c : UnitCmd) : Word := wordAt c.w 4

/-- The device address of a Plinth. -/
def plinthAddr (p : Nat × Nat × Nat) : Nat := devAddr p.1 p.2.1 (0x200000000 + p.2.2 * 0x40000)

/-- A neighbour that cannot be reached from die d: isolated, here or on its own chip (R126; 09 R226), or on an absent chip or no C-die, which breaks the chain in the
same way (DESIGN CHOICE, log entry 73: no rule names these). -/
def chainLost (s : State) (d : Nat) (w : Word) : Bool :=
  let p := chainPlace w
  decide (p.2.1 > 3) || !chipPresent s p.1 || targetIsolated s d p.1 p.2.1 || decide ((p.1, p.2.1) ∈ s.nld.farIso)

/-- The receive buffer of a chain: that of the tile which came first. -/
def chainBuf (p : Plinth) (chid : BitVec 16) : Option ChainBuf := p.chainBufs.find? (fun b => decide (b.chid = chid))

/-- A tile of a chain has not come whole yet and lacks row r, so that a row of that number is its own and not a later tile's. -/
def bufLacks (chid : BitVec 16) (r : Nat) (b : ChainBuf) : Bool :=
  decide (b.chid = chid) && decide (b.rows.length < b.m) && b.rows.all (fun x => decide (x.1 ≠ r))

/-- Row r of a chain needs a buffer of its own: no tile of it that is under way lacks the row. -/
def chainOpens (p : Plinth) (chid : BitVec 16) (r : Nat) : Bool := !p.chainBufs.any (bufLacks chid r)

/-- A change of the first buffer that passes a test. -/
def bufFirst (t : ChainBuf → Bool) (g : ChainBuf → ChainBuf) : List ChainBuf → List ChainBuf
  | [] => []
  | b :: bs => if t b then g b :: bs else b :: bufFirst t g bs

/-- One row of a chain put into a receive buffer of Plinth n, or none where it waits since no buffer is free (R125). A row of a second
tile of a chain takes another buffer than the first, or waits too (R19). -/
def chainRow (p : Plinth) (chid : BitVec 16) (m n r : Nat) (row : List (Word × Word × Nat)) : Option Plinth :=
  if !chainOpens p chid r then
    some { p with chainBufs := bufFirst (bufLacks chid r) (fun b =>
      { b with rows := tabSet b.rows r row, broken := b.broken || decide (b.m ≠ m ∨ b.n ≠ n) }) p.chainBufs }
  else if (p.chainBufs.filter (fun b => !b.broken || decide (b.rows ≠ []))).length < 2 then
    some { p with chainBufs := p.chainBufs ++ [⟨chid, m, n, [(r, row)], false⟩] }
  else none

/-- A break notice taken (R126): it stands for the rest of the tile that is under way, or for a tile of which no row has come. -/
def chainNotice (p : Plinth) (chid : BitVec 16) : Plinth :=
  let under := fun (b : ChainBuf) => decide (b.chid = chid) && decide (b.rows.length < b.m) && !b.broken
  if p.chainBufs.any under then { p with chainBufs := bufFirst under (fun b => { b with broken := true }) p.chainBufs }
  else { p with chainBufs := p.chainBufs ++ [⟨chid, 0, 0, [], true⟩] }

/-- The payload of a CHN transaction: sums and errors, then counts, columns past N zero (10 R241). -/
def chnBytes (row : List (Word × Word × Nat)) : List Byte :=
  let full := (row ++ List.replicate 64 (0, 0, 0)).take 64
  (full.map (fun e => wordLe e.1 ++ wordLe e.2.1)).flatten ++ (full.map (fun e => natLe 4 e.2.2)).flatten

/-- The row that a CHN payload holds, n columns of it. -/
def chnRow (n : Nat) (bs : List Byte) : List (Word × Word × Nat) :=
  (upTo n).map (fun i => (leWord ((bs.drop (8 * i)).take 4), leWord ((bs.drop (8 * i + 4)).take 4),
    leNat ((bs.drop (512 + 4 * i)).take 4)))

/-- A CHAIN ends: what it still held is dropped and its completion waits to be written. -/
def chainEnd (s : State) (d : Fin 4) (n : Fin 8) (st : Nat) : State :=
  let p := plinth s d n
  finishCmd (setPlinth s d n { p with settling := false, awaiting := false, outRows := [], chainSent := 0 })
    (.plinth d n) st p.chainCnt 0

/-- NEXT lies on the Plinth's own die: its rows and its notice cross no link. -/
def chainHome (s : State) (d : Nat) (w : Word) : Bool :=
  decide ((chainPlace w).1 = ownChip s) && decide ((chainPlace w).2.1 = d)

/-- The Plinth whose memory begins at an address of this chip. -/
def plinthAt (a : Nat) : Option (Nat × Nat) :=
  let off := addrOff a
  if addrDie a < 4 ∧ 0x200000000 ≤ off ∧ off < 0x200200000 ∧ off % 0x40000 = 0 then
    some (addrDie a, (off - 0x200000000) / 0x40000)
  else none

def txnChid (t : Txn) : BitVec 16 := (txnOperand t).extractLsb' 16 16
/-- The row that a CHN carries (10 R241). -/
def txnRow (t : Txn) : Nat := field (txnOperand t) 5 0

/-- Plinth k of die d waits to hand the rows of its tile to Plinth n of the same die, which has no buffer for them yet. -/
def chainWants (s : State) (d n k : Nat) : Bool :=
  match (plinth s d k).cmd, (plinth s d k).outRows with
  | some c, x :: _ =>
    chainHome s d (cmdNext c) && decide ((chainPlace (cmdNext c)).2.2 = n) && chainOpens (plinth s d n) (cmdChid c) x.1
  | _, _ => false

/-- The oldest transaction of endpoint e's CHN channel is a row for Plinth n of die d, which has no buffer for it yet. -/
def linkWants (s : State) (d n e : Nat) : Bool :=
  match (endp s e).rx.find? (fun t => decide (kindVc (txnKind t) = 2)) with
  | some t =>
    decide (epDie e = d) && decide (txnKind t = kCHN) && decide (plinthAt (txnAddr t) = some (d, n))
      && chainOpens (plinth s d n) (txnChid t) (txnRow t)
  | none => false

/-- The inputs of a Plinth's receive buffers that wait for one to come free: Plinths of its die, then its links (02 R39). -/
def chainInputs (s : State) (d n : Nat) : List Nat :=
  (upTo 8).filter (chainWants s d n) ++ ((upTo 22).filter (linkWants s d n)).map (8 + ·)

/-- Input k of Plinth n may hand over row r of a CHID: into the buffer that it has, or where it is its turn to open one (02 R39). -/
def chainTurn (s : State) (d n k : Nat) (chid : BitVec 16) (r : Nat) : Bool :=
  !chainOpens (plinth s d n) chid r || decide (nextInput (plinth s d n).chainRr (k :: chainInputs s d n) = k)

/-- A row that input k hands to Plinth n of die d, or none while it waits for a buffer or for its turn (R125). -/
def chainTake (s : State) (d n k : Nat) (chid : BitVec 16) (m cols r : Nat) (row : List (Word × Word × Nat)) : Option State :=
  let p := plinth s d n
  if chainTurn s d n k chid r then
    (chainRow p chid m cols r row).map (fun q =>
      setPlinth s d n { q with chainRr := if chainOpens p chid r then k else p.chainRr })
  else none

/-- Rows of an outgoing tile handed to a Plinth of the same die while its buffers take them. -/
def handRows : Nat → State → Fin 4 → Fin 8 → State
  | 0, s, _, _ => s
  | k + 1, s, d, n =>
    let p := plinth s d n
    match p.cmd, p.outRows with
    | some c, (r, row) :: rest =>
      let t := chainPlace (cmdNext c)
      match chainTake s t.2.1 t.2.2 n (cmdChid c) (cmdM c) (cmdN c) r row with
      | none => s
      | some s1 => handRows k (setPlinth s1 d n { plinth s1 d n with outRows := rest }) d n
    | _, _ => s

/-- A position that sends goes on: rows for its own die are handed over while NEXT can be reached, and a tile that has left
completes it. -/
def chainGo (s : State) (d : Fin 4) (n : Fin 8) : State :=
  let p := plinth s d n
  if p.outRows = [] || (p.cmd.map (fun c => chainLost s d (cmdNext c))).getD true then s
  else
    let s1 := handRows 64 s d n
    if (plinth s1 d n).outRows = [] then chainEnd s1 d n p.chainStat.toNat else s1

/-- The first row of a list of pairs of one source: a row of a K block of a MUL, or a row block of a PASS. -/
def headRow (l : List Pair) : List Pair :=
  match l with
  | [] => []
  | x :: _ => l.takeWhile (fun y => decide (y.seg = x.seg) && (decide (x.src ≠ 0) || decide (y.idx / 64 = x.idx / 64)))

/-- Pairs taken in, or none where one of them waits. -/
def takePairs (s : State) (d n : Nat) : List Pair → Option State
  | [] => some s
  | x :: xs =>
    match takePair s d n x with
    | none => none
    | some s1 => takePairs s1 d n xs

/-- Whole rows taken in from a port as far as they go, source by source (R135). -/
def drainRowsIn : Nat → State → Nat → Nat → Bool → State
  | 0, s, _, _, _ => s
  | k + 1, s, d, n, t =>
    match portPairs (plinth s d n) t with
    | [] => s
    | x :: l =>
      let own := (x :: l).filter (fun y => decide (y.src = x.src))
      let others := l.filter (fun y => decide (y.src ≠ x.src))
      let row := headRow own
      let keep := fun (ps : List Pair) => setPlinth s d n (setPort (plinth s d n) t ps)
      drainRowsIn k ((takePairs (keep (own.drop row.length ++ others)) d n row).getD (keep others)) d n t

def allPlinths : List (Fin 4 × Fin 8) :=
  (List.finRange 4).flatMap (fun d => (List.finRange 8).map (fun n => (d, n)))

/-- The inputs that wait for a receive buffer of Plinth n served in round-robin order (02 R39), k at most: a Plinth of the die hands
its rows over, and for a row on a link NLD_CHN is awaited. -/
def chainPump : Nat → State → Fin 4 → Nat → State
  | 0, s, _, _ => s
  | k + 1, s, d, n =>
    let j := nextInput (plinth s d n).chainRr (chainInputs s d n)
    if h : chainInputs s d n ≠ [] ∧ j < 8 then chainPump k (chainGo s d ⟨j, h.2⟩) d n else s

/-- The receive buffer of a CHID freed. -/
def chainFree (s : State) (d : Fin 4) (n : Nat) (chid : BitVec 16) : State :=
  let p := plinth s d n
  chainPump 8 (setPlinth s d n { p with chainBufs := p.chainBufs.eraseP (fun b => decide (b.chid = chid)) }) d n

/-- A chain transaction to NEXT (10 R241). -/
def chainAsk (d : Fin 4) (n : Fin 8) (c : UnitCmd) (kind len op w6 : Nat) (bs : List Byte) : Ask :=
  { kind := kind, src := 0x20 + n.val, die := d.val, addr := plinthAddr (chainPlace (cmdNext c)), len := len,
    operand := w32 ((cmdChid c).toNat * 65536 + op), word6 := w32 w6, payload := bs }

/-- A position sends its tile: it has combined or read it, and no receive buffer is its own any more. -/
def chainSends (p : Plinth) : Bool := decide (p.outRows ≠ []) || decide (p.chainSent ≠ 0)

/-- The rows of a position's tile that wait to be sent: they are not sent any more. A row whose header has left goes on, with nobody to
answer. -/
def dropRows (s : State) (d : Fin 4) (n : Fin 8) : State :=
  (allAsks s).foldl (fun t x =>
    if x.2.who = .unit (.plinth d n) ∧ txnKind x.2.txn = kCHN then forsake t x.1 x.2 else t) s

/-- A break found at a position: it completes with CHAIN_BROKEN, frees its buffer, and tells NEXT in place of the rows that it has not
sent (R126). -/
def chainBreak (s : State) (d : Fin 4) (n : Fin 8) : State :=
  match (plinth s d n).cmd with
  | none => s
  | some c =>
    let t := chainPlace (cmdNext c)
    let s0 := chainEnd (dropRows s d n) d n 0x0B
    let s1 := if chainSends (plinth s d n) then s0 else chainFree s0 d n (cmdChid c)
    if cmdLast c || chainLost s d (cmdNext c) then s1
    else if chainHome s d (cmdNext c) then setPlinth s1 t.2.1 t.2.2 (chainNotice (plinth s1 t.2.1 t.2.2) (cmdChid c))
    else (sendAsk s1 (chainAsk d n c kCHBRK 0 0 0 []) .boot).getD s1

/-- The rows of a tile sent to another die, one CHN each (10 R241); none where a row finds no link. -/
def sendRows (s : State) (d : Fin 4) (n : Fin 8) (c : UnitCmd) : List (Nat × List (Word × Word × Nat)) → Option State
  | [] => some s
  | (r, row) :: rest =>
    match sendAsk s (chainAsk d n c kCHN 768 ((cmdM c - 1) * 256 + r) (cmdN c - 1) (chnBytes row)) (.unit (.plinth d n)) with
    | none => none
    | some s1 => sendRows s1 d n c rest

/-- A tile sent to NEXT; the position completes when all of it has been taken (R124). -/
def chainSend (s : State) (d : Fin 4) (n : Fin 8) (c : UnitCmd) (rows : List (Nat × List (Word × Word × Nat))) : State :=
  let s0 := setPlinth s d n { plinth s d n with awaiting := true, outRows := rows }
  if chainLost s d (cmdNext c) then chainBreak s0 d n
  else if chainHome s d (cmdNext c) then chainGo s0 d n
  else
    match sendRows s d n c rows with
    | none => chainBreak s0 d n
    | some s1 => setPlinth s1 d n { plinth s1 d n with outRows := [], chainSent := rows.length }

/-- PREV or NEXT of a position cannot be reached (R126). -/
def chainCut (s : State) (d : Nat) (c : UnitCmd) : Bool :=
  (!cmdLast c && chainLost s d (cmdNext c)) || (!cmdFirst c && chainLost s d (cmdPrev c))

/-- The header of the last row of a position's tile has left for another die, so that no notice can stand in place of data. -/
def chainGone (s : State) (d : Fin 4) (n : Fin 8) : Bool :=
  decide ((plinth s d n).chainSent ≠ 0) && (allAsks s).all (fun x =>
    decide (x.2.who ≠ .unit (.plinth d n)) || decide (txnKind x.2.txn ≠ kCHN) || (x.2.sent && !askWaits s x.2))

/-- A position in whose chain PREV or NEXT can no longer be reached before it has completed (R126). Once the header of its last row
has left, the loss of PREV breaks its chain no more: NEXT then gets the tile whole (DESIGN CHOICE, log entry 73). -/
def chainCutAt (s : State) (d : Fin 4) (n : Fin 8) : Bool :=
  let p := plinth s d n
  match p.cmd with
  | none => false
  | some c => p.awaiting && (if chainGone s d n then chainLost s d (cmdNext c) else chainCut s d c)

/-- Every position finds the break that an isolation has made (R126). -/
def chainScan (s : State) : List (Fin 4 × Fin 8) → State
  | [] => s
  | p :: ps => chainScan (if chainCutAt s p.1 p.2 then chainBreak s p.1 p.2 else s) ps

/-- A row has left for another die whole: the link has taken it, and the last one completes the position (R124). -/
def chainTaken (s : State) (d : Fin 4) (n : Fin 8) : State :=
  let p := plinth s d n
  if p.chainSent = 0 then s
  else if p.chainSent = 1 then chainEnd s d n p.chainStat.toNat
  else setPlinth s d n { p with chainSent := p.chainSent - 1 }

/-- A row that the link has not taken yet ends with an error, which breaks the chain. -/
def chainAnswer (s : State) (d : Fin 4) (n : Fin 8) (st : Nat) : State :=
  if (plinth s d n).chainSent = 0 ∨ st = stOK then s else chainBreak s d n

end Sys2Proof.Machine
end

