-- ==== Sys2Proof/Machine/LinkOps.lean ====
section
/-! DEFINITION. What the links do beside carrying flits: answering the one who asked, withdrawing held operations, ports
that go DOWN, and isolation with its poisoned Bells (10 R240, R244, R245; 09 R226). -/

namespace Sys2Proof.Machine

/-! ### Answers to requests sent over the links -/

def csiPort (r : Nat) : Nat := 0x408 + r
def uPort (u : Nat) : Nat := 0x410 + u

/-- The name of a Bell or a queue of a die of this package (08 R192). -/
def ownName (s : State) (d n : Nat) : Nat := ownChip s * 2 ^ 13 + d * 2 ^ 9 + n

/-- A COPY that met an error ends (11 R265). -/
def moverFail (s : State) (m : Fin 8) (st : Nat) : State :=
  finishCmd (setMover s m { mover s m with run := none }) (.mover m) (if st = stISOLATED then 0x15 else 0x14) 0 0

/-- What a mover's row gets back: the bytes read, or that they were written, or an error, which the mover then acts on. -/
def moverAnswer (s : State) (m : Fin 8) (st : Nat) (data : List Byte) : State :=
  match (mover s m).run with
  | none => s
  | some r =>
    if st ≠ stOK then setMover s m { mover s m with run := some { r with bad := st } }
    else if r.phase = 1 then setMover s m { mover s m with run := some { r with phase := 0, buf := some data } }
    else setMover s m { mover s m with run := some { row := r.row + 1, phase := 0, buf := none } }

/-- What the push of a mover's completion record gets back (09 R215, R219; 11 R264): taken, the Bell is added to; a DISABLED queue makes
the push wait at the mover, which makes it again; with an error nothing more is done on the die. -/
def moverPushed (s : State) (m : Fin 8) (st : Nat) : State :=
  match (mover s m).doneQ with
  | [] => s
  | c :: rest =>
    if st = stNONAME then setMover s m { mover s m with doneQ := { c with posted := false } :: rest }
    else if st = stOK ∧ ctlBellEn c.ctl then
      match sendAsk s { kind := kBADD, src := moverSrcPort m, addr := bellAddr (ownName s c.die (ctlBell c.ctl)), operand := 1 }
          (.unit (.mover m)) with
      | some s1 => s1
      | none => unitOver s (.mover m)
    else unitOver s (.mover m)

/-- An answer for mover m: to a row of its COPY, to the push of a record, or to the add of a Bell, which ends the command. -/
def moverTold (s : State) (m : Fin 8) (k st : Nat) (data : List Byte) : State :=
  if k = kQPUSH then moverPushed s m st
  else if k = kBADD then unitOver s (.mover m)
  else moverAnswer s m st data

/-- The fault queue has taken record i of the log (17 R400): it counts as delivered there. -/
def faultTaken (s : State) (i : Word) : State := autoFree 256 { s with faults := { s.faults with qNext := i + 1 } }

/-- The last eight words of an entry. -/
def entryBody (bs : List Byte) : List Byte := bs.drop (bs.length - 32)

/-- The WUPD that the engine runs ends. -/
def wuEnd (s : State) (n : Nat) (id : Word) (st : Nat) : State :=
  hostComplete { s with host := { s.host with
    wupds := s.host.wupds.drop 1, wupdBuf := [], wupdAsk := false, wupdBad := none, wupdPush := false } } n id st []

/-- What the hand-over of a bundle gets back: a DISABLED queue makes the push wait at the engine, which makes it again, unless the
request has been cancelled meanwhile (09 R219; 13 R318). -/
def wuPushed (s : State) (n : Nat) (id : Word) (st : Nat) : State :=
  let cancelled := (session s n).outst.any (fun o => decide (o.reqid = id) && decide (o.cancel ≠ 0))
  if st = stNONAME then
    (if cancelled then wuEnd s n id stCANCELLED else { s with host := { s.host with wupdAsk := false } })
  else wuEnd s n id st

/-- A write of a camera's frame has ended. Once the status is written, with no write of the frame under way, READY is added to (13
R306). -/
def cameraDone (s : State) (r k n : Nat) (ready : Option Nat) : State :=
  match ready with
  | none => s
  | some w =>
    if (allAsks s).any (fun x => decide (x.2.who = .camera r k n none)) then s else addNamed s 4 (csiPort r) w 1 .boot

/-- The next transmit entry has come, ignored bits cleared (14 R337). -/
def serialGot (s : State) (u gen st : Nat) (data : List Byte) : State :=
  let v := uart s u
  let e := leNat (data.take 2)
  let got := BitVec.ofNat 16 (e / 2 ^ 11 % 2 * 2 ^ 11 + e % 2 ^ field v.cfg 27 24)
  if v.gen ≠ gen then s
  else setUart s u { v with txAsk := false, txGot := if st = stOK then some got else none }

/-- An access of an engine of H that went out over the links has ended: an address error or a write to a read-only target is recorded
(17 R399; log entry 37). -/
def engineErr (s : State) (agent unit : Nat) (port : Word) (o : Outst) (st : Nat) : State :=
  if st = stADDR ∨ st = stRDONLY then addrError s agent (srcWord s skEngine 4 unit) port (txnAddr o.txn) else s

/-- A request sent over the links ends with a status and data. -/
def askDone (s : State) (o : Outst) (st : Nat) (data : List Byte) : State :=
  match o.who with
  | .spire d n =>
    if txnKind o.txn = kRD ∨ txnKind o.txn = kWR then meshAnswer s d n st (leWord (data.take 4))
    else spireDone s d n st data
  | .unit (.plinth d n) => chainAnswer s d n st
  | .unit (.mover m) => moverTold s m (txnKind o.txn) st data
  | .update =>
    let s1 := engineErr s updReq euUpdate Config.updPort o st
    { s1 with boot := { s1.boot with
      updBuf := if st = stOK then s.boot.updBuf ++ data else s.boot.updBuf, updAsk := false,
      updBad := s.boot.updBad || decide (st ≠ stOK) } }
  | .wupd n id =>
    if txnKind o.txn = kQPUSH then wuPushed s n id st
    else { s with host := { s.host with
      wupdBuf := if st = stOK then s.host.wupdBuf ++ data else s.host.wupdBuf, wupdAsk := false,
      wupdBad := if st = stOK then s.host.wupdBad else some (BitVec.ofNat 8 st) } }
  | .faultQueue => if txnKind o.txn = kQPUSH ∧ st = stOK then faultTaken s (wordAt o.txn.hdr 10) else s
  | .eventQueue => if st = stOK then settleHost (sendEvent s 2 (entryBody data) none) else s
  | .bootWrite =>
    { s with boot := { s.boot with wrAsk := false, wrBad := if st = stOK then s.boot.wrBad else some (txnAddr o.txn, st) } }
  | .camera r k n ready => cameraDone (engineErr s (csiReq r) (euCsi r) (w32 (csiPort r)) o st) r k n ready
  | .serialIn u ready =>
    if st = stOK then addNamed s 4 (uPort u) ready 1 .boot else engineErr s (uartReq u) (euUart u) (w32 (uPort u)) o st
  | .serialOut u gen => serialGot (engineErr s (uartReq u) (euUart u) (w32 (uPort u)) o st) u gen st data
  | who => answerOp s who st data

/-! ### Withdrawing a held operation (R240) -/

/-- Whether Table 10-6 records a transaction. -/
def txnRecorded (t : Txn) : Bool :=
  let k := txnKind t
  decide (k ∈ [kWR, kBADD, kQPUSH, kQPOP, kCHN, kCHBRK]) || (decide (k = kRD) && regOff (addrOff (txnAddr t)))

def winFind (p : Party) (ch : Nat) (tid : BitVec 16) : Option WinEntry :=
  p.window.find? (fun w => decide (w.ch = ch) && decide (w.tid = tid))

def holdsOrigin (c : CDie) (who : Origin) : Bool :=
  c.bells.any (fun b => b.2.waiters.any (fun w => decide (w.who = who)))
    || c.queues.any (fun q => q.2.pushes.any (fun p => decide (p.who = who)) || decide (who ∈ q.2.pops))
    || c.lanterns.any (fun l => l.2.held.any (fun h => decide (h.who = who)))

def dropOrigin (c : CDie) (who : Origin) : CDie :=
  { c with
    bells := c.bells.map (fun b => (b.1, { b.2 with waiters := b.2.waiters.filter (fun w => decide (w.who ≠ who)) })),
    queues := c.queues.map (fun q => (q.1, { q.2 with
      pushes := q.2.pushes.filter (fun p => decide (p.who ≠ who)), pops := q.2.pops.filter (fun p => decide (p ≠ who)) })),
    lanterns := c.lanterns.map (fun l => (l.1, { l.2 with held := l.2.held.filter (fun h => decide (h.who ≠ who)) })) }

def heldBy (s : State) (who : Origin) : Bool := (upTo 4).any (fun d => holdsOrigin (cd s d) who)

/-- An origin's operations removed from every Bell and queue that holds one. -/
def withdrawFrom (s : State) (who : Origin) : List Nat → State
  | [] => s
  | d :: ds => withdrawFrom (if holdsOrigin (cd s d) who then setCd s d (dropOrigin (cd s d) who) else s) who ds

def withdraw (s : State) (who : Origin) : State := withdrawFrom s who (upTo 4)

/-- The request of an origin that is outstanding to some party: the party and the request. -/
def findAsk (s : State) (who : Origin) : Option (Nat × Outst) :=
  (s.nld.parties.flatMap (fun p => (p.2.outst.map (fun o => (p.1, o))))).find? (fun e => decide (e.2.who = who))

/-- The CANCEL of a request: its TID, its source and its target. -/
def cancelTxn (s : State) (o : Outst) : Txn :=
  let t := mkTxn s { kind := kCANCEL, addr := txnAddr o.txn } o.tid (txnHops o.txn)
  { t with hdr := listSet t.hdr 1 (wordAt o.txn.hdr 1) }

/-- A held wait that an add or a set has satisfied: it counts as performed (DEDUCED, log entry 47). -/
def heldMet (s : State) (who : Origin) : Bool :=
  (upTo 4).any (fun d => (cd s d).bells.any (fun b => b.2.waiters.any (fun w => decide (w.who = who) && w.sat)))

/-- An operation that waits is abandoned: a held one is withdrawn and answered CANCELLED, or OK where an add or a set has
satisfied it before; one held on another die gets a CANCEL, whose target decides (R240). -/
def cancelOp (s : State) (who : Origin) : State :=
  if heldBy s who then answerOp (withdraw s who) who (if heldMet s who then stOK else stCANCELLED) []
  else
    match findAsk s who with
    | none => s
    | some (p, o) =>
      if o.sent then sendTxn s o.ep (cancelTxn s o)
      else askDone (dropAsk s p o) o stCANCELLED []

/-- An operation that is cancelled once it waits at its target: one whose request has not left yet still goes there, with a CANCEL behind
it (13 R313, R327, R328). -/
def recallOp (s : State) (who : Origin) : State :=
  match findAsk s who with
  | some (p, o) =>
    if heldBy s who || o.sent then cancelOp s who
    else setParty s p { party s p with calledOff := (party s p).calledOff ++ [o.ask] }
  | none => cancelOp s who

/-! ### Poisoning (09 R226-R228) -/

/-- Waiters released with a status; an add or a set that had satisfied one released it before, with OK (09 R207). -/
def releaseAll (s : State) (st : Nat) : List Waiter → State
  | [] => s
  | w :: ws => releaseAll (answerOp s w.who (if w.sat then stOK else st) []) st ws

/-- A Bell poisoned: its waiters are released with POISONED. -/
def poisonBell (s : State) (d n : Nat) : State :=
  let b := bell s d n
  releaseAll (setBell s d n { b with poisoned := true, waiters := [] }) stPOISONED b.waiters

/-- The Bells of die d that a test picks, poisoned. -/
def poisonSome (s : State) (d : Nat) (t : Bell → Bool) : List Nat → State
  | [] => s
  | n :: ns => poisonSome (if t (bell s d n) then poisonBell s d n else s) d t ns

def poisonDies (s : State) (t : Nat → Bell → Bool) : List Nat → State
  | [] => s
  | d :: ds => poisonDies (poisonSome s d (t d) (upTo 256)) t ds

/-! ### Isolation (R245) -/

/-- The number of an endpoint on its die (10 Table 10-1). -/
def epUnit (e : Nat) : Nat := if e < 12 then e % 3 else if isExt e then e - 9 else if e = 21 then 0 else e - 12

/-- The chip and the die that header word 1 names as the source of a request (10 Table 10-5). -/
def srcChip (w : Word) : Nat := field w 15 13
def srcDie (w : Word) : Nat := field w 12 9

/-- The die of this package that an operation comes from; another chip's enters by H. -/
def originDie (s : State) (o : Origin) : Nat :=
  match o with
  | .spire d _ => d
  | .frontEnd d _ => d
  | .unit u => (uNum u).1
  | .remote _ _ _ src _ => if srcChip src = ownChip s then srcDie src else 4
  | _ => 4

/-- The chip that an operation which arrived over a link comes from. -/
def originChip (o : Origin) : Option Nat :=
  match o with
  | .remote _ _ _ src _ => some (srcChip src)
  | _ => none

/-- Who has an operation held on a die. -/
def heldOrigins (c : CDie) : List Origin :=
  c.bells.flatMap (fun b => b.2.waiters.map (·.who)) ++ c.queues.flatMap (fun q => q.2.pushes.map (·.who) ++ q.2.pops)
    ++ c.lanterns.flatMap (fun l => l.2.held.map (·.who))

/-- Operations held on the dies for the origins that a test picks, withdrawn without an answer (R245 step 1). -/
def cutHeld (s : State) (t : Nat → Origin → Bool) : List Nat → State
  | [] => s
  | d :: ds =>
    let gone := (heldOrigins (cd s d)).filter (t d)
    cutHeld (if gone = [] then s else setCd s d (gone.foldl dropOrigin (cd s d))) t ds

/-- An endpoint with nothing in it, in a state. -/
def emptyEndp (v : Endp) (st : EpState) : Endp :=
  { v with
    st := st
    sent := []
    pair1 := none
    partials := []
    rx := []
    txq := []
    used := [0, 0, 0, 0]
    owe := [0, 0, 0, 0]
    ctrl := 0
    locked := false }

def extEps : List Nat := [17, 18, 19, 20]

/-- Endpoints closed that are not DOWN. -/
def closeEps (s : State) : List Nat → State
  | [] => s
  | e :: es =>
    closeEps (setEndp s e (emptyEndp (endp s e) (if (endp s e).st = .down then .down else .closed))) es

/-- In-package endpoints with die k at either end. -/
def epsOf (k : Nat) : List Nat := ((upTo 17) ++ [21]).filter (fun e => decide (epDie e = k) || decide (epFar e = k))

/-- The record of an isolation, written by endpoint e. -/
def isolatedRec (s : State) (e chip die : Nat) : List Word :=
  mkRec s sevFatal 1 (srcWord s skLink (epDie e) (epUnit e)) 0x0041 (w32 chip) (w32 die) 0

/-- What becomes of a request that H relays from an isolated party: nothing in this package acts on it any more, and nobody waits for
the answer of another chip. -/
def cutRelay (s : State) (p : Nat) (o : Outst) : State :=
  if addrChip (txnAddr o.txn) = ownChip s then dropAsk s p o else forsake s p o

/-- What the isolation of die k makes of a request (R245): one of an agent on k, or of another die's agent to k, ends with ISOLATED
for whoever asked, as does one that another chip sent to k. One that H relays for an agent of the package is discarded: its agent
has its answer. -/
def failOne (k : Nat) (s : State) (x : Nat × Outst) : State :=
  let o := x.2
  let toK := decide (addrChip (txnAddr o.txn) = ownChip s) && decide (addrDie (txnAddr o.txn) = k)
  match o.who with
  | .remote _ _ _ src _ =>
    if srcChip src ≠ ownChip s then (if toK then askDone (dropAsk s x.1 o) o stISOLATED [] else s)
    else if toK then dropAsk s x.1 o
    else if srcDie src ≠ k then s
    else cutRelay s x.1 o
  | _ => if toK || decide (epDie o.ep = k) then askDone (dropAsk s x.1 o) o stISOLATED [] else s

/-- Die k of this package isolated, found by endpoint e. -/
def isolateDie (s : State) (e k : Nat) : State :=
  if dieIsolated s k then s
  else
    let s1 := closeEps s (epsOf k)
    let s2 := { s1 with nld := { s1.nld with isoDies := s1.nld.isoDies ||| BitVec.ofNat 6 (2 ^ k) } }
    let s3 := cutHeld ((allAsks s2).foldl (failOne k) s2) (fun d o => !diesJoined s2 d (originDie s2 o)) (upTo 4)
    let s4 := chainScan s3 allPlinths
    let s5 := poisonDies s4 (fun d b => decide (d = k) || b.dies.getLsbD k) (upTo 4)
    raise s5 (isolatedRec s5 e (ownChip s) k)

/-- What the isolation of chip c makes of a request (R245): one of this package's agents to c ends with ISOLATED, one that H relays
to or from c is discarded without an answer (step 1). -/
def failAsk (c : Nat) (s : State) (x : Nat × Outst) : State :=
  let o := x.2
  let toC := decide (addrChip (txnAddr o.txn) = c)
  if originChip o.who = some c then cutRelay s x.1 o
  else if toC && (originChip o.who).isSome then dropAsk s x.1 o
  else if toC then askDone (dropAsk s x.1 o) o stISOLATED []
  else s

/-- The external endpoints that lead to chip c itself: it is their neighbour, or they serve it and know none yet. -/
def epsTo (s : State) (c : Nat) : List Nat :=
  extEps.filter (fun e => decide ((endp s e).neighbour = some (BitVec.ofNat 3 c)) ||
    ((endp s e).neighbour.isNone && decide ((endp s e).st ≠ .down) && decide (e - 17 ∈ maskPorts (routeMask s c))))

/-- ISO, naming chip c, to every chip still present. -/
def sendIso (s : State) (c : Nat) : List Nat → State
  | [] => s
  | k :: ks =>
    let s1 := if k ≠ ownChip s ∧ chipPresent s k ∧ !chipIsolated s k then
        (sendAsk s { kind := kISO, addr := devAddr k 4 0, operand := w32 c } .boot).getD s
      else s
    sendIso s1 c ks

/-- Chip c isolated, found by endpoint e. -/
def isolateChip (s : State) (e c : Nat) : State :=
  if chipIsolated s c ∨ c = ownChip s then s
  else
    let s1 := closeEps { s with nld := { s.nld with
      isoChips := s.nld.isoChips ||| BitVec.ofNat 8 (2 ^ c),
      tvalid := s.nld.tvalid && decide (s.nld.master.toNat ≠ c) } } (epsTo s c)
    let s2 := cutHeld ((allAsks s1).foldl (failAsk c) s1) (fun _ o => decide (originChip o = some c)) (upTo 4)
    let s3 := chainScan s2 allPlinths
    let s4 := poisonDies s3 (fun _ b => b.chips.getLsbD c) (upTo 4)
    sendIso (raise s4 (isolatedRec s4 e c 0xF)) c (upTo 8)

/-- Whether die k of chip c has sent an operation here. -/
def fromFarDie (c k : Nat) (o : Origin) : Bool :=
  match o with
  | .remote _ _ _ src _ => decide (srcChip src = c) && decide (srcDie src = k)
  | _ => false

/-- Die k of chip c is isolated there, as an answer has told: what it has sent here and is held or relayed is discarded without an
answer, chains with a position on it break, then the Bells that name it are poisoned (05 R126, 09 R226; DEDUCED, log entry 74). -/
def farDieCut (s : State) (c k : Nat) : State :=
  if c = ownChip s ∨ chipIsolated s c ∨ (c, k) ∈ s.nld.farIso then s
  else
    let s1 := { s with nld := { s.nld with farIso := s.nld.farIso ++ [(c, k)] } }
    let s2 := (allAsks s1).foldl (fun t x => if fromFarDie c k x.2.who then cutRelay t x.1 x.2 else t) s1
    poisonDies (chainScan (cutHeld s2 (fun _ o => fromFarDie c k o) (upTo 4)) allPlinths) (fun _ b => b.chips.getLsbD c && b.dies.getLsbD k) (upTo 4)

/-- Every chip whose mask holds port p and no UP port, isolated. -/
def isolateVia (s : State) (p : Nat) : List Nat → State
  | [] => s
  | c :: cs =>
    let m := routeMask s c
    isolateVia (if c ≠ ownChip s ∧ m / 2 ^ p % 2 = 1 ∧ (maskPorts m).all (fun q => !portUp s q) then
      isolateChip s (17 + p) c else s) p cs

/-! ### An endpoint goes DOWN (R244, R245) -/

/-- The part of a list to send that no request outstanding stands for: responses, CANCELs and ISOs, whole. `ks` holds the channels
whose last header is such a one. -/
def keepFlits : List Nat → List TxFlit → List TxFlit
  | _, [] => []
  | ks, f :: fs =>
    if f.fk = 2 then
      if f.ask = 0 ∨ field (wordAt f.body 0) 31 28 = kISO then f :: keepFlits (f.vc :: ks) fs
      else keepFlits (ks.filter (fun c => decide (c ≠ f.vc))) fs
    else if f.vc ∈ ks then f :: keepFlits ks fs
    else keepFlits ks fs

/-- A list to send, cut into the pairs whose headers have left and the rest; `seen` holds the channels of headers met. -/
def splitFlits : List Nat → List TxFlit → List TxFlit × List TxFlit
  | _, [] => ([], [])
  | seen, f :: fs =>
    if f.fk ≠ 2 ∧ f.vc ∉ seen then (f :: (splitFlits seen fs).1, (splitFlits seen fs).2)
    else ((splitFlits (f.vc :: seen) fs).1, f :: (splitFlits (f.vc :: seen) fs).2)

/-- The port that a request's flow takes now (R231); a TSYNC, which goes one hop, takes the port that answers to its neighbour would. -/
def askPort (s : State) (p : Nat) (t : Txn) : Option Nat :=
  if txnKind t = kTSYNC then (replyEp s (17 + p)).map (· - 17)
  else flowPort s (txnSrcPort t) (txnAddr t) (addrChip (txnAddr t))

/-- What waited at a port p that went DOWN and whose flow falls back to port q moves there: the rest of a transaction half sent
on q stays first, then come the outstanding requests, those that had been sent in the order sent, then responses and notices, then what waited on q. A request
that had been sent stays outstanding meanwhile: its response is taken and a CANCEL goes to its target (R237, R240). -/
def moveTo (s : State) (nb p : Nat) (old : List TxFlit) (q : Nat) : State :=
  let pa := party s nb
  let moves := fun (o : Outst) => decide (o.ep = 17 + p) && decide (askPort s p o.txn = some q)
  let kept := if replyEp s (17 + p) = some (17 + q) then keepFlits [] old else []
  let v := endp s (17 + q)
  let parts := splitFlits [] v.txq
  let s1 := setParty s nb { pa with
    outst := pa.outst.map (fun o => if moves o then { o with ep := 17 + q } else o) }
  if q = p then s
  else setEndp s1 (17 + q) { v with
    txq := parts.1 ++ (pa.outst.filter moves).flatMap (fun o => txnFlits o.txn o.ask) ++ kept ++ parts.2 }

/-- Every flow of port p moved to its fallback port (R244). -/
def moveFlows (s : State) (p : Nat) (old : List TxFlit) : State :=
  match (endp s (17 + p)).neighbour with
  | none => s
  | some nb => (upTo 4).foldl (fun t q => moveTo t nb.toNat p old q) s

/-- Another port of a group of port p is UP. -/
def groupUp (s : State) (p : Nat) : Bool :=
  (upTo 8).any (fun c => decide (c ≠ ownChip s) && decide (p ∈ maskPorts (routeMask s c)) &&
    (maskPorts (routeMask s c)).any (fun q => decide (q ≠ p) && portUp s q))

/-- Endpoint e goes DOWN. Partial transactions are discarded; those it has taken whole stay and are executed (R235, R244). -/
def goDown (s : State) (e : Nat) : State :=
  let v := endp s e
  let v1 := { emptyEndp { v with err := v.err ||| 16 } .down with rx := v.rx, used := v.used }
  let s1 := setEndp s e v1
  if isExt e then
    let s2 := moveFlows s1 (e - 17) v.txq
    let s3 := if groupUp s2 (e - 17) then
        warn s2 (srcWord s2 skLink 4 (epUnit e)) 0x0040 (w32 (e - 17)) (w32 v1.err.toNat) 0
      else s2
    isolateVia s3 (e - 17) (upTo 8)
  else if e = 21 then isolateDie (fSafe s1 fcLINK) 16 5
  else if e % 3 ≠ 0 ∧ e < 12 then isolateDie s1 e (max (epDie e) (epFar e))
  else isolateDie s1 e (if epDie e = 4 then epFar e else epDie e)

end Sys2Proof.Machine
end

