-- ==== Sys2Proof/Machine/UartOps.lean ====
section
/-! DEFINITION. The receive engine and the stopping of a serial port (14 R336, R347, R348). -/

namespace Sys2Proof.Machine

/-! ### Configuration fields (14 Table 14-3) -/

def uEn (v : Uart) : Bool := bit v.cfg 31
def uMode (v : Uart) : Nat := field v.cfg 30 29
def uOvs8 (v : Uart) : Bool := bit v.cfg 28
def uDbits (v : Uart) : Nat := field v.cfg 27 24
def uPar (v : Uart) : Nat := field v.cfg 22 20
def uStop2 (v : Uart) : Bool := bit v.cfg 19
def uCpol (v : Uart) : Bool := bit v.cfg 15
def uFlow (v : Uart) : Bool := bit v.cfg 18
/-- SLEEP: 1 CATCH, 2 DEEP; 3 acts as 0. -/
def uSleep (v : Uart) : Nat := if field v.cfg 17 16 = 3 then 0 else field v.cfg 17 16
def uBdiv (v : Uart) : Nat := field v.baud 19 0
def ringDie (w : Word) : Nat := field w 31 30
def ringDepth (w : Word) : Nat := 2 ^ field w 29 26
def ringBase (w : Word) : Nat := field w 24 6 * 64
def uReady (v : Uart) : Nat := field v.rxbell 31 16
def uFree (v : Uart) : Nat := field v.rxbell 15 0
def uAvail (v : Uart) : Nat := field v.txbell 31 16
def uDone (v : Uart) : Nat := field v.txbell 15 0

/-- The count of the Bell a name of this chip names. -/
def nameCount (s : State) (w : Nat) : Word := (bell s (nameDie w) (w % 256)).count

/-- The receive ring has n free slots for the next entries: FREE is counted from its value at EN (R336, R346; DEDUCED, log entry
53). -/
def uSlotsFree (s : State) (v : Uart) (n : Nat) : Bool :=
  counted (nameCount s (uFree v) - v.freeFrom) (w32 (v.rxk + n) - w32 (ringDepth v.rxring))

def uSlotFree (s : State) (v : Uart) : Bool := uSlotsFree s v 1

/-- A request of port u for the two bytes of entry k of a ring, over the link to the ring's die; none for an isolated one. -/
def ringAsk (s : State) (u : Nat) (ring : Word) (k : Nat) (kind : Nat) (payload : List Byte) (who : Origin) : Option State :=
  let d := ringDie ring
  if diesJoined s 4 d then
    sendAsk s { kind := kind, src := uPort u, addr := devAddr (ownChip s) d (ringBase ring + 2 * (k % ringDepth ring)), len := 2,
                payload := payload } who
  else none

/-- The engine takes the held character and sends it to its slot in the ring; 1 is added to READY once it has been written (R336). -/
def uartTake (s : State) (u : Nat) : State :=
  let v := uart s u
  match v.held with
  | none => s
  | some e =>
    if uSlotFree s v then
      (ringAsk (setUart s u { v with held := none, rxk := v.rxk + 1 }) u v.rxring v.rxk kWR (natLe 2 e.toNat)
        (.serialIn u (uReady v))).getD s
    else s

/-- A port stops (R347, R348): the held character is written if a slot is free and else kept or, with `discard`, dropped; one that is
being received is discarded too or, without `discard`, may still end. The port goes OFF, or where a character is being sent as soon as
it has left. -/
def uartStop (s : State) (u : Nat) (discard : Bool) : State :=
  let v := uart s u
  if v.st = .off ∧ (!discard ∨ (v.held = none ∧ v.stopAt = none)) then s
  else
    let s1 := uartTake s u
    let v1 := uart s1 u
    setUart s1 u { v1 with
      st := if v1.txBusy then v1.st else .off, stopping := v1.txBusy, enWait := false,
      waking := false, txGot := none, txAsk := false, gen := v1.gen + 1, held := if discard then none else v1.held,
      stopAt := if !discard ∧ v.st = .active ∧ !v.waking ∧ !v.stopping then some s.tb else none }

/-- The port with the configuration in force, which the pins that it drives follow (R344). -/
def inForce (v : Uart) : Uart :=
  let l := v.live
  { v with
    cfg := l.cfg, baud := l.baud, rxring := l.rxring, txring := l.txring, rxbell := l.rxbell, txbell := l.txbell, wake := l.wake }

/-- The port works: it is ACTIVE and does not stop. -/
def uWorks (v : Uart) : Bool := decide (v.st = .active) && !v.stopping

end Sys2Proof.Machine
end

