-- ==== Sys2Proof/Machine/StateOps.lean ====
section
/-! DEFINITION. The machine states: entering HALT, RESET and leaving it, and the faults that halt the machine (01 R32;
16 R373; 17 R402, R407, R412), and the glitch filters of the inputs (16 R388). -/

namespace Sys2Proof.Machine

/-! ### Glitch filters (16 R388) -/

/-- The groups of inputs of Table 16-4. -/
inductive FilterGroup where
  | fast | perst | rstN | di
  deriving DecidableEq, Repr

/-- Table 16-4: below the first width, in ns, a pulse never passes, and from the second on it always does. `fast` is Un_RX, Un_CTS_N,
MDIO, BOOT_DQ0-7 and BOOT_DS. -/
def glitchFilter : FilterGroup → Nat × Nat
  | .fast => (2, 5)
  | .perst => (100, 1000)
  | .rstN => (1000, 10000)
  | .di => (1000, 5000)

/-- Whether a pulse of so many ns passes its filter; none where Table 16-4 leaves it open. -/
def pulsePasses (g : FilterGroup) (ns : Nat) : Option Bool :=
  if ns < (glitchFilter g).1 then some false else if (glitchFilter g).2 ≤ ns then some true else none

/-- A pulse of so many ns at an input of group g, which acts where it passes; one of a width that Table 16-4 leaves open does either. -/
def throughFilter (g : FilterGroup) (ns : Nat) (s : State) (act : State → State) : State :=
  match pulsePasses g ns with
  | some true => act s
  | some false => s
  | none =>
    let (b, s1) := drawBool s
    if b then act s1 else s1

/-- An event at an input of group g whose row has no width: the next pulse of those that the outside world drives, or with none a level
that stays (R388; DESIGN CHOICE, log entry 11). -/
def filtered (g : FilterGroup) (s : State) (act : State → State) : State :=
  match s.power.pulses with
  | [] => act s
  | ns :: rest => throughFilter g ns { s with power := { s.power with pulses := rest } } act

/-- The machine state changed: H reports it to F (15 R350), the machine watchdog starts at RUN (17 R404), and vector 16 signals a
change of PCI_MSTATE, which reads BOOT in RESET too, to a PCI Express host (13 R321). -/
def setMState (s : State) (m : MState) : State :=
  if s.mstate = m then s
  else
    let s1 := { s with
      mstate := m, f := { s.f with reports := s.f.reports ++ [m] },
      faults := if m = .run then { s.faults with wdFrom := s.tb } else s.faults }
    if m = .reset ∨ s.mstate = .reset then s1 else msixSend s1 16

/-! ### Flash slots (12 R278, R295) -/

def flashSize (s : State) : Nat := 2 ^ s.flashDev.dens
def slotSize (s : State) : Nat := flashSize s / 2
def slotBase (s : State) (slot : Bool) : Nat := if slot then slotSize s else 0

/-- The byte an erased flash cell reads as. -/
def flashFill : Byte := 0xFF

def putCells (m : Mem) : List (Nat × Byte) → Mem
  | [] => m
  | c :: cs => putCells (memWrite flashFill m c.1 c.2) cs

/-- A slot whose writing was interrupted: unspecified bytes; the other slot as it was. -/
def slotLost (s : State) (slot : Bool) : State :=
  let lo := slotBase s slot
  let inSlot := fun (a : Nat) => decide (lo ≤ a) && decide (a < lo + slotSize s)
  { s with
    flash := putCells (s.flash.filter (fun c => !inSlot c.1)) ((Config.slotBytes s.free).filter (fun c => inSlot c.1)),
    free := s.free + 1 }

/-- An update command that HALT or a reset interrupts leaves its slot unspecified; a CHECK (3) and a refused command (above
3) write nothing. -/
def dropUpdate (s : State) : State :=
  match s.boot.updBusy with
  | none => s
  | some (op, slot) =>
    let s1 := if op ≥ 3 then s else slotLost s slot
    { s1 with boot := { s1.boot with updBusy := none, updBuf := [], updAsk := false, updBad := false } }

/-! ### HALT (R32; 04 R94, R105; 05 R135; 06 R160; 08 R201; 09 R224; 10 R246; 11 R274; 14 R348; 16 R393) -/

/-- What is left of a programming that has failed: the boot sequencer's stays until its attempt is over (12 R288). -/
def failedJob (j : Option PgmJob) : Option PgmJob :=
  match j with
  | some x => if x.boot ∧ x.tries < 9 then some { x with tries := x.tries + 1 } else none
  | none => none

/-- A bank in PROG becomes FAULT and keeps its count (04 R105); a PROGRAM not yet granted stays pending. -/
def bankStops (b : Bank) : Bank := if b.st = .prog then { b with st := .fault, job := failedJob b.job } else b

def domeHalts (v : Dome) : Dome :=
  { v with b0 := bankStops v.b0, b1 := bankStops v.b1, cmd := none, deferred := false, verifying := false, doneQ := [] }

def plinthHalts (p : Plinth) : Plinth :=
  { p with
    cmd := none, settling := false, awaiting := false, read := none, outRows := [], chainSent := 0, doneQ := [], towerPort := [],
    domePort := [] }

/-- Waits and pops that stay held in HALT: those of the queue front-ends and of other dies and chips, whose own CANCEL ends them. -/
def staysHeld (o : Origin) : Bool :=
  match o with
  | .spire _ _ => false
  | .unit _ => false
  | _ => true

/-- SEQ of the commands from queue q that HALT does not stop: PROGRAMs that wait for their token (04 R105). -/
def jobSeqs (ds : Tab Dome) (q : Nat) : List Word :=
  ds.flatMap (fun e => [e.2.b0.job, e.2.b1.job].filterMap (fun j =>
    match j with
    | some x => if !x.boot ∧ x.cmd.queue = q then some x.cmd.seq else none
    | none => none))

/-- A front-end in HALT: a completion record that its queue has not taken has no effect (09 R224). -/
def feHalts (f : Option FeHold) : Option FeHold :=
  match f with
  | some h => if h.phase = 2 ∨ h.phase = 3 then none else some h
  | none => none

/-- A queue in HALT: pushes not taken have no effect (09 R224), and a command that HALT stopped holds back no RING any more
(17 R405). -/
def queueHalts (ds : Tab Dome) (q : Nat) (v : Queue) : Queue :=
  { v with
    pushes := [], pops := v.pops.filter staysHeld, fe := feHalts v.fe,
    open_ := v.open_.filter (fun w => decide (w ∈ jobSeqs ds q)) }

def bellHalts (b : Bell) : Bell := { b with waiters := b.waiters.filter (fun w => staysHeld w.who) }

def dieHalts (c : CDie) : CDie :=
  let ds := c.domes.map (fun e => (e.1, domeHalts e.2))
  { c with
    domes := ds,
    towers := c.towers.map (fun e => (e.1, { e.2 with cmd := none, doneQ := [] })),
    plinths := c.plinths.map (fun e => (e.1, plinthHalts e.2)),
    lanterns := c.lanterns.map (fun e => (e.1, { e.2 with
      cmd := none, run := none, doneQ := [], held := e.2.held.filter (fun h => staysHeld h.who) })),
    spires := c.spires.map (fun e => (e.1, spireHalts e.2)),
    bells := c.bells.map (fun e => (e.1, bellHalts e.2)),
    queues := c.queues.map (fun e => (e.1, queueHalts ds e.1 e.2)) }

/-- The pairs at the intake ports folded or held, up to the last row boundary (05 R135; log entry 60). -/
def drainPorts (s : State) : List (Fin 4 × Fin 8) → State
  | [] => s
  | p :: ps =>
    let k := (plinth s p.1 p.2).towerPort.length
    let s1 := drainRowsIn k s p.1 p.2 true
    drainPorts (drainRowsIn (plinth s1 p.1 p.2).domePort.length s1 p.1 p.2 false) ps

/-- The external ports close, and every chip behind them is isolated (10 R245, R246). -/
def closePorts (s : State) : State :=
  let s1 := closeEps s extEps
  (upTo 4).foldl (fun t p => isolateVia t p (upTo 8)) s1

/-- The ports stop. -/
def stopUarts (s : State) : State := (upTo 4).foldl (fun t u => uartStop t u false) s

/-- Operations answered with a status. -/
def answerAll (s : State) (st : Nat) : List Origin → State
  | [] => s
  | o :: os => answerAll (answerOp s o st []) st os

/-- The waits of Spires that an add or a set has satisfied: performed before the HALT (10 R240, 09 R207). -/
def metSpires (c : CDie) : List Origin :=
  c.bells.flatMap (fun b => (b.2.waiters.filter (fun w => w.sat && !staysHeld w.who)).map (·.who))

/-- The pushes of a WUPD and of other dies and chips that no queue has taken. -/
def farPushes (c : CDie) : List Origin :=
  c.queues.flatMap (fun q => (q.2.pushes.map (·.who)).filter (fun o => match o with
    | .wupd _ _ => true
    | .remote _ _ _ _ _ => true
    | _ => false))

/-- The error with which an access of a Spire has been answered and which a HALT comes before the Spire takes: its record is still
written (17 R399). -/
def meshRec (s : State) (d n : Nat) : State :=
  match (spire s d n).mesh with
  | some m =>
    match m.answer with
    | some (st, _) => accessRec s d n st.toNat m.dev.toNat
    | none => s
  | none => s

def meshRecs (s : State) : List (Nat × Nat) → State
  | [] => s
  | p :: ps => meshRecs (meshRec s p.1 p.2) ps

/-! Requests on the links when the machine halts (08 R201, 10 R240): what a target has performed is complete, and nothing that it has
not performed has an effect any more. -/

/-- Who a request is to the die that takes it. -/
def farWho (o : Outst) : Origin := .remote (epPeer o.ep) o.ch o.tid (wordAt o.txn.hdr 1) (txnAddr o.txn)

/-- The response that the target of a recorded request has given, as the replay windows on its way show it (10 R238); a request takes
at most two links of the package. -/
def performed : Nat → State → Outst → Option Txn
  | 0, _, _ => none
  | k + 1, s, o =>
    if isExt o.ep then none
    else match winFind (party s (8 + epPeer o.ep)) o.ch o.tid with
      | none => none
      | some w =>
        match w.resp with
        | some t => some t
        | none => (findAsk s (farWho o)).bind (fun x => performed k s x.2)

/-- A request not performed loses its effect: one held at a Lantern is withdrawn, and a recorded one that has not come to the next
die does nothing there. -/
def stopAsk (s : State) (o : Outst) : State :=
  if isExt o.ep then s
  else
    let s1 := if txnKind o.txn = kRD ∨ txnKind o.txn = kWR then withdraw s (farWho o) else s
    let p := 8 + epPeer o.ep
    if txnRecorded o.txn && (winFind (party s1 p) o.ch o.tid).isNone then
      setParty s1 p { party s1 p with void := (party s1 p).void ++ [(o.ch, o.tid)] }
    else s1

/-- A Spire's wait that another die may hold is abandoned by CANCEL (10 R240). -/
def haltWait (s : State) (o : Outst) (d n : Nat) : State :=
  match (spire s d n).wait with
  | none => s
  | some w =>
    let s1 := stopAsk (setSpire s d n { spire s d n with wait := some { w with abandon := 3 } }) o
    if w.abandon = 0 then sendTxn s1 o.ep (cancelTxn s1 o) else s1

/-- A request of an agent that HALT stops: a Spire, a unit, the update engine, a RING's add; or one that H relays for such an agent of
a C-die. -/
def haltsAsk (s : State) (o : Outst) : Bool :=
  let add := decide (txnKind o.txn = kBADD)
  match o.who with
  | .spire _ _ => true
  | .unit _ => true
  | .update => true
  | .frontEnd _ _ => add
  | .remote _ _ _ src _ =>
    decide (srcChip src = ownChip s) && decide (srcDie src < 4) && (decide (field src 31 16 < 0x100) || (add && decide (field src 31 16 < 0x200)))
  | _ => false

/-- What HALT makes of a request. -/
def haltAsk (s : State) (x : Nat × Outst) : State :=
  let o := x.2
  let gone := if o.sent then stopAsk (dropAsk s x.1 o) o else dropAsk s x.1 o
  if !haltsAsk s o then s
  else match o.who, performed 2 s o with
    | .remote _ _ _ _ _, _ => if o.sent then stopAsk s o else answerOp (dropAsk s x.1 o) o.who stCANCELLED []
    | _, some t => askDone (dropAsk s x.1 o) o (field (txnOperand t) 7 0) (txnBytes t)
    | .spire d n, none => if o.sent && decide (txnKind o.txn ∈ [kBWAIT, kQPUSH, kQPOP]) then haltWait s o d n else gone
    | .frontEnd d q, none => setQueue gone d q { queue gone d q with fe := none }
    | _, none => gone

/-- Every Spire of the package. -/
def allSpires : List (Nat × Nat) := (upTo 4).flatMap (fun d => (upTo 32).map (fun n => (d, n)))

/-- The machine leaves RUN for HALT. -/
def enterHalt (s : State) : State :=
  let sh := (allAsks s).foldl haltAsk s
  let s0 := answerAll (meshRecs sh allSpires) stOK ((upTo 4).flatMap (fun d => metSpires (cd sh d)))
  let untaken := (upTo 4).flatMap (fun d => farPushes (cd s0 d))
  let s1 := drainPorts s0 allPlinths
  let s2 := { mapDies s1 dieHalts with
    tokenHeld := [],
    mem := { s1.mem with movers := s1.mem.movers.map (fun e => (e.1, { e.2 with cmd := none, run := none, doneQ := [] })) },
    power := { s1.power with capT := [0, 0, 0, 0] } }
  closePorts (answerAll (stopUarts (dropUpdate (setMState s2 .halt))) stCANCELLED untaken)

/-- A fault that halts the machine: its record first, then its bit in SYS_HCAUSE and HALT (17 R402, R412). In BOOT, which
01 R32 leaves only for RUN, SAFE and RESET, the record alone is written. -/
def haltFault (s : State) (bitNo : Nat) (r : List Word) : State :=
  let s1 := haltNote s bitNo r
  if s.mstate = .run then enterHalt s1 else s1

/-! ### RESET (16 R373, R390; 17 R407; 04 R89, R105) -/

/-- A bank as its nonvolatile record gives it back. -/
def bankRecord (b : Bank) : Bank :=
  { b with
    st := match b.st with
      | .blank => .blank
      | .active => .standby
      | .standby => .standby
      | _ => .fault,
    job := none }

def domeRecord (v : Dome) : Dome := { b0 := bankRecord v.b0, b1 := bankRecord v.b1, sel := v.sel }

/-- A C-die in RESET: its Domes keep what is nonvolatile, everything else takes its reset value. -/
def dieReset (c : CDie) : CDie := { domeMem := c.domeMem, domes := c.domes.map (fun e => (e.1, domeRecord e.2)) }

/-- The causes of a reset added to SYS_RSTCAUSE; with `power` the log and the causes are cleared and POR is set. -/
def resetCause (s : State) (power : Bool) (cause : BitVec 14) : BitVec 14 :=
  (if power then 1 else s.power.rstcause) ||| cause

/-- The part in RESET. What the log keeps is offered again from its oldest record on (17 R407). -/
def enterReset (s : State) (power : Bool) (cause : BitVec 14) : State :=
  let s1 := dropUpdate s
  { State.reset with
    pending := s1.pending, free := s1.free, outputs := s1.outputs, refclk := s1.refclk,
    c0 := dieReset s1.c0, c1 := dieReset s1.c1, c2 := dieReset s1.c2, c3 := dieReset s1.c3,
    mem := { State.reset.mem with epoch := s1.mem.epoch + 1 },
    flash := s1.flash, flashDev := s1.flashDev, otp := s1.otp,
    host := { State.reset.host with perst := s1.host.perst },
    f := { State.reset.f with powered := s1.f.powered },
    power := { State.reset.power with
      powered := s1.power.powered, good := s1.power.good, low := s1.power.low, rstN := s1.power.rstN, test := s1.power.test,
      pulses := s1.power.pulses,
      rstcause := resetCause s1 power cause },
    faults := if power then {} else {
      log := s1.faults.log, head := s1.faults.head, tail := s1.faults.tail, qNext := s1.faults.head,
      hostNext := s1.faults.head } }

def rcPOR : BitVec 14 := 1
def rcPIN : BitVec 14 := 2
def rcRECOV : BitVec 14 := 8

/-- In-package endpoints begin training (10 R251). -/
def startLinks (s : State) : List Nat → State
  | [] => s
  | e :: es => startLinks (setEndp s e { endp s e with st := .training, credits := epBuffers e }) es

/-- RESET is left for BOOT when power-good holds and RST_N is high, unless a TEST ball reads high (16 R373; 18 R416). -/
def leaveReset (s : State) : State :=
  if s.mstate = .reset && s.power.good && s.power.rstN && decide (s.power.test = 0) then
    let s1 := startLinks s (upTo 17 ++ [21])
    setMState { s1 with power := { s1.power with rstOutN := true } } .boot
  else s

end Sys2Proof.Machine
end

