-- ==== Sys2Proof/Machine/VaultOps.lean ====
section
/-! DEFINITION. Vault accesses with their error reports (11 R257, R271). -/

namespace Sys2Proof.Machine

/-- A Vault access met an uncorrectable error at an offset: the die reports it and the machine halts. -/
def vaultFail (s : State) (d off : Nat) (port : Word) : State :=
  haltFault s hcVAULT (vaultRec s d off port)

/-- n bytes of the Vault of die d, or none where the read never completes or, nothing changed, waits for the Vault to be
cleared (R271). -/
def rdVault (s : State) (d off n : Nat) (port : Word) : Option (List Byte) × State :=
  if (cd s d).vaultClearing then (none, s)
  else match vaultLoad (cd s d) off n with
  | .ok (bs, c) => (some bs, if c = cd s d then s else setCd s d c)
  | .error o => (none, vaultFail s d o port)

/-- Pieces of the Vault of die d read one after the other, each with its error check: whether every read has ended. -/
def rdPieces (s : State) (d a : Nat) (port : Word) : List (Nat × Nat) → Bool × State
  | [] => (true, s)
  | x :: xs =>
    match rdVault s d (a + x.1) x.2 port with
    | (none, t) => (false, t)
    | (some _, t) => rdPieces t d a port xs

/-- The n bytes of the Vault from a on of which only some pieces are read, by offset and length: none where one of those reads never
completes. What lies between the pieces is neither checked nor used. -/
def rdSpans (s : State) (d a n : Nat) (ps : List (Nat × Nat)) (port : Word) : Option (List Byte) × State :=
  match rdPieces s d a port ps with
  | (false, t) => (none, t)
  | (true, t) => (some (memBytes 0 (cd t d).vault a n), t)

/-- Bytes written into the Vault of die d, or none where the write never completes or waits for the clearing. -/
def wrVault (s : State) (d off : Nat) (bs : List Byte) (port : Word) : Option State × State :=
  if (cd s d).vaultClearing then (none, s)
  else match vaultStore (cd s d) off bs with
  | .ok c => (some (setCd s d c), setCd s d c)
  | .error o => (none, vaultFail s d o port)

/-! ### LPDDR (R263) -/

/-- A burst of the LPDDR failed all four reads: the record and HALT. -/
def lpddrFail (s : State) (a : Nat) : State :=
  haltFault s hcMEM (mkRec s sevFatal 3 (srcWord s skEngine 4 euMemory) 0x0051 (w32 a) (w32 (a / 2 ^ 32)) (w32 (lpChannel a)))

/-- n bytes of LPDDR from offset a, or none where the read never completes. Without link ECC a read that meets an error
returns unspecified bytes. -/
def lpLoad (s : State) (a n : Nat) : Option (List Byte) × State :=
  let k := bursts a n
  let es := s.mem.linkErrs.take k
  let m := linkPast { s.mem with rdb := satAdd s.mem.rdb k } k
  if linkEcc s.mem then
    match linkLost es with
    | some i =>
      (none, lpddrFail { s with mem := { m with lecc := satAdd m.lecc (linkFixed (es.take i)) } } (max a ((a / 64 + i) * 64)))
    | none => (some (lpBytes s.mem a n), { s with mem := { m with lecc := satAdd m.lecc (linkFixed es) } })
  else if es.all (fun e => decide (e = .clean)) then (some (lpBytes s.mem a n), { s with mem := m })
  else
    let r := drawBytes { s with mem := m } n
    (some r.1, r.2)

/-- Bytes written to LPDDR at offset a. A write that meets an error that is not corrected leaves its bytes unspecified (with link
ECC: DESIGN CHOICE, log entry 38). -/
def lpStore (s : State) (a : Nat) (bs : List Byte) : State :=
  let k := bursts a bs.length
  let es := s.mem.linkErrs.take k
  let ecc := linkEcc s.mem
  let m := linkPast { s.mem with
    wrb := satAdd s.mem.wrb k, lecc := if ecc then satAdd s.mem.lecc (linkFixed es) else s.mem.lecc } k
  if es.all (fun e => decide (e = .clean) || (ecc && decide (e = .single))) then
    { s with mem := { m with lpddr := lpPut m.lpddr a bs } }
  else
    let r := drawBytes { s with mem := m } bs.length
    { r.2 with mem := { r.2.mem with lpddr := lpPut r.2.mem.lpddr a r.1 } }

end Sys2Proof.Machine
end

