-- ==== Sys2Proof/Machine/NameOps.lean ====
section
/-! DEFINITION. Pushes and pops as queues take them, and the four named operations BADD, BWAIT, QPUSH and QPOP as every
sender uses them (08 R192, R193; 09 R204-R219, R226-R228). -/

namespace Sys2Proof.Machine

/-! ### Waiting pushes and pops (09 R211, R212, R219) -/

/-- The port of queue q's front-end (09 Table 9-6). -/
def fePort (q : Nat) : Word := w32 (0x100 + q)

/-- Queue q of die d has room for an entry, and its Vault is not being cleared (R211; 11 R271). -/
def queTakes (s : State) (d q : Nat) : Bool := queRoom (queue s d q) && !(cd s d).vaultClearing

/-- Waiting pops get the oldest entries, in the order of their arrival, while the queue runs and holds any. -/
def servePops : Nat → State → Nat → Nat → State
  | 0, s, _, _ => s
  | k + 1, s, d, q =>
    let v := queue s d q
    match v.pops with
    | [] => s
    | who :: rest =>
      if queState v = 1 ∧ v.occ ≠ 0 ∧ (cd s d).vaultClearing = false then
        match popEntry s d q with
        | .error o => vaultFail s d o (fePort q)
        | .ok (bs, s1) =>
          servePops k (answerOp (setQueue s1 d q { queue s1 d q with pops := rest }) who stOK bs) d q
      else s

/-- A push entered, and whoever waits for an entry served. -/
def pushEntry (s : State) (d q : Nat) (p : Push) : State :=
  let s1 := enterEntry s d q p.hdr0 p.hdr1 p.body
  servePops (queue s1 d q).pops.length s1 d q

/-- A waiting push has been taken by its queue: whoever made it goes on. -/
def pushTaken (s : State) (p : Push) : State :=
  match p.who with
  | .frontEnd d q => feFinish s d q
  | .unit u => unitRecorded s u
  | who => answerOp s who stOK []

/-- The number of the input by which a push reaches a queue of die d: one for each Spire, front-end and unit of its own die,
and one for each link that another die's push comes over, numbered as that die (02 R39; 10 Table 10-2; log entry 64). -/
def pushInput (d : Nat) (o : Origin) : Nat :=
  match o with
  | .spire _ n => 1000 + n
  | .frontEnd _ q => 2000 + q
  | .unit u => if (uNum u).1 = d then 3000 + 256 * unitKind u + (uNum u).2 else 4
  | .remote e _ _ _ _ => epFar e
  | _ => 4

/-- The waiting push of a queue that is taken next: the oldest of the input whose turn it is (R211, 02 R39). -/
def nextPush (d : Nat) (v : Queue) : Option Push :=
  v.pushes.find? (fun p => decide (pushInput d p.who = nextInput v.rr (v.pushes.map (fun x => pushInput d x.who))))

/-- One waiting push of a queue taken, if the queue has room. -/
def admitPush (s : State) (d q : Nat) : State :=
  let v := queue s d q
  match nextPush d v with
  | none => s
  | some p =>
    if queTakes s d q then
      pushTaken (pushEntry (setQueue s d q { v with pushes := v.pushes.erase p, rr := pushInput d p.who }) d q p) p
    else s

/-- Waiting pushes taken while there is room, n at most. -/
def admitPushes : Nat → State → Nat → Nat → State
  | 0, s, _, _ => s
  | k + 1, s, d, q => admitPushes k (admitPush s d q) d q

def admitAll (s : State) (d q : Nat) : State := admitPushes (queue s d q).pushes.length s d q

/-- A push handed to a queue: taken at once when there is room and none waits before it. -/
def handPush (s : State) (d q : Nat) (p : Push) : State :=
  let s1 := setQueue s d q { queue s d q with pushes := (queue s d q).pushes ++ [p] }
  if (queue s d q).pushes = [] then admitPush s1 d q else s1

/-- A source's completion record put to its COMPQ (09 R215): a mover's goes over the link to the die of its command queue (11 R264), and
with the link gone the command is over. TIME is the moment the record is handed over (DESIGN CHOICE, log entry 78). -/
def postDone (s : State) (u : UnitRef) : State :=
  match unitDones s u with
  | [] => s
  | c :: rest =>
    if c.posted then s
    else
      let d := c.die
      let r := compRecord s (unitKind u) (uNum u).2 (uNum u).1 c.status.toNat c.opc.toNat c.ctl c.counters c.result c.seq
      let s1 := setUnitDones s u ({ c with posted := true } :: rest)
      match u with
      | .mover m =>
        let q : Ask := { kind := kQPUSH, src := moverSrcPort m, addr := queueAddr (ownName s d (ctlCompq c.ctl)), len := 32,
                         payload := ofWords r }
        match sendAsk s1 q (.unit u) with
        | some s2 => s2
        | none => unitOver s u
      | _ => handPush s1 d (ctlCompq c.ctl) ⟨.unit u, hdrRecord, hdrSource s (unitKind u) (uNum u).1 (uNum u).2, r⟩

/-! ### At the target -/

/-- How an operation stands after it has reached its target: its status and data, or none while it is held. -/
abbrev Reply := Option (Nat × List Byte) × State

def repSt (s : State) (st : Nat) : Reply := (some (st, []), s)

def localBadd (s : State) (d n : Nat) (v : Word) : Reply :=
  if (bell s d n).poisoned then repSt s stPOISONED else repSt (addBell s d n v) stOK

def localBwait (s : State) (d n : Nat) (target : Word) (tryB : Bool) (who : Origin) : Reply :=
  if (bell s d n).poisoned then repSt s stPOISONED
  else if counted (bell s d n).count target then repSt s stOK
  else if tryB then repSt s stNOTREADY
  else (none, holdWait s d n who target)

/-- A push reaches a queue behind the pushes that wait there. One that enters without competition leaves the round robin where it is
(DESIGN CHOICE, log entry 64). -/
def localQpush (s : State) (d q : Nat) (p : Push) (tryB : Bool) : Reply :=
  if !(queue s d q).en then repSt s stNONAME
  else
    let s1 := admitAll s d q
    let v := queue s1 d q
    if queTakes s1 d q ∧ v.pushes = [] then repSt (pushEntry s1 d q p) stOK
    else if tryB ∧ (cd s1 d).vaultClearing = false then repSt s1 stFULL
    else (none, setQueue s1 d q { v with pushes := v.pushes ++ [p] })

def localQpop (s : State) (d q : Nat) (tryB : Bool) (who : Origin) : Reply :=
  let v := queue s d q
  if !v.en then repSt s stNONAME
  else if queState v = 1 ∧ v.occ ≠ 0 ∧ v.pops = [] ∧ (cd s d).vaultClearing = false then
    match popEntry s d q with
    | .error o => (none, vaultFail s d o (fePort q))
    | .ok (bs, s1) => (some (stOK, bs), s1)
  else if tryB ∧ (queState v ≠ 1 ∨ v.occ = 0 ∨ v.pops ≠ []) then repSt s stNOTREADY
  else (none, setQueue s d q { v with pops := v.pops ++ [who] })

/-! ### By name -/

/-- A request given to the links: held until its response. -/
def askOut (s : State) (a : Ask) (who : Origin) : Reply :=
  match sendAsk s a who with
  | some s1 => (none, s1)
  | none => repSt s stISOLATED

/-- An operation by name from die `die`: the checks of R192 and of isolation, then the target on this die, or the links to another
(10 R230). -/
def byName (s : State) (die w bits : Nat) (here : Nat → Nat → Reply) (there : Reply) : Reply :=
  if nameBad s w bits then repSt s stNONAME
  else if targetIsolated s die (nameChip w) (nameDie w) then repSt s stISOLATED
  else if nameOn s die w then here (nameDie w) (w % 2 ^ bits)
  else there

/-- Who sends: the die and its port, whether the operation is a TRY one, its deadline, and whom the answer goes to. -/
structure Sender where
  die : Nat
  src : Nat
  tryB : Bool := false
  dl : Option Time := none
  who : Origin
  deriving Repr

def sendBadd (s : State) (f : Sender) (w : Nat) (v : Word) : Reply :=
  byName s f.die w 8 (fun d n => localBadd s d n v)
    (askOut s { kind := kBADD, src := f.src, die := f.die, addr := bellAddr w, operand := v } f.who)

def sendBwait (s : State) (f : Sender) (w : Nat) (target : Word) : Reply :=
  byName s f.die w 8 (fun d n => localBwait s d n target f.tryB f.who)
    (askOut s { kind := kBWAIT, tryB := f.tryB, dl := f.dl, src := f.src, die := f.die, addr := bellAddr w,
                operand := target } f.who)

/-- A push of 32 bytes; `hdr1` names its source in the entry's header. -/
def sendQpush (s : State) (f : Sender) (w : Nat) (hdr1 : Word) (body : List Byte) : Reply :=
  byName s f.die w 7 (fun d q => localQpush s d q ⟨f.who, hdrPush, hdr1, toWords 8 body⟩ f.tryB)
    (askOut s { kind := kQPUSH, tryB := f.tryB, dl := f.dl, src := f.src, die := f.die, addr := queueAddr w, len := 32,
                payload := body } f.who)

def sendQpop (s : State) (f : Sender) (w : Nat) : Reply :=
  byName s f.die w 7 (fun d q => localQpop s d q f.tryB f.who)
    (askOut s { kind := kQPOP, tryB := f.tryB, dl := f.dl, src := f.src, die := f.die, addr := queueAddr w } f.who)

end Sys2Proof.Machine
end

