-- ==== Sys2Proof/Machine/BellQueue.lean ====
section
/-! DEFINITION. The commands of Bells, queues and queue front-ends (chapter 9). -/

namespace Sys2Proof.Machine

/-! ### Bells (R204-R208, R217, R228) -/

/-- BELL_ADD (R217): a store to BEL_ADD. -/
def execBellAdd (d : Fin 4) (n : Fin 256) (v : BitVec 32) (s : State) : Host.Outcome State Fault Refusal :=
  .next (if !regsUp s then s else addBell s d n v)

/-- BELL_SET (R206): a write of BEL_COUNT. -/
def execBellSet (d : Fin 4) (n : Fin 256) (v : BitVec 32) (s : State) : Host.Outcome State Fault Refusal :=
  .next (if !regsUp s then s else storeBell s d n v)

/-- Whether the Bell's die or a die that BEL_DEP names is isolated (R228). -/
def bellCut (s : State) (d : Nat) (b : Bell) : Bool :=
  dieIsolated s d || decide (b.dies &&& s.nld.isoDies ≠ 0) || (upTo 8).any (fun c => b.chips.getLsbD c && chipIsolated s c)
    || s.nld.farIso.any (fun p => b.chips.getLsbD p.1 && b.dies.getLsbD p.2)

/-- The poison cleared, unless an isolated die is involved. -/
def unpoisonBell (s : State) (d n : Nat) : State :=
  if bellCut s d (bell s d n) then s else setBell s d n { bell s d n with poisoned := false }

/-- BEL_CTL as a write leaves it: POISON wins. -/
def belCtlWrite (s : State) (d n : Nat) (v : Word) : State :=
  if bit v 0 then poisonBell s d n else if bit v 1 then unpoisonBell s d n else s

/-- BELL_POISON (R228). -/
def execBellPoison (d : Fin 4) (n : Fin 256) (s : State) : Host.Outcome State Fault Refusal :=
  .next (if !regsUp s then s else belCtlWrite s d n 1)

/-- BELL_UNPOISON (R228). -/
def execBellUnpoison (d : Fin 4) (n : Fin 256) (s : State) : Host.Outcome State Fault Refusal :=
  .next (if !regsUp s then s else belCtlWrite s d n 2)

/-- The first satisfied waiter taken off a Bell. -/
def takeSat : List Waiter → Option (Waiter × List Waiter)
  | [] => none
  | w :: ws => if w.sat then some (w, ws) else (takeSat ws).map (fun r => (r.1, w :: r.2))

/-- BELL_WAIT_SATISFIED (R207): a waiter that an add or a set has satisfied is released. -/
def execBellWaitSatisfied (d : Fin 4) (n : Fin 256) (s : State) : Host.Outcome State Fault Refusal :=
  .next (match takeSat (bell s d n).waiters with
    | none => s
    | some (w, rest) => answerOp (setBell s d n { bell s d n with waiters := rest }) w.who stOK [])

/-! ### Queues (R209-R211, R215, R219, R220) -/

/-- QUEUE_PUSH_ADMIT (R211). -/
def execQueuePushAdmit (d : Fin 4) (q : Fin 128) (s : State) : Host.Outcome State Fault Refusal :=
  .next (admitPush s d q)

/-- Every pair that a Tower or a Dome has delivered has been taken into its Plinth (05 R113). -/
def pairsTaken (s : State) (u : UnitRef) : Bool :=
  match u with
  | .tower d n => (plinth s d n).towerPort.all (fun x => decide (x.src ≠ 0))
  | .dome d n => (plinth s d (n.val / 32)).domePort.all (fun x => decide (x.src ≠ n.val + 1))
  | _ => true

/-- COMMAND_COMPLETE (R215): the oldest command the unit is done with puts its record to COMPQ, once its pairs are taken. -/
def execCommandComplete (u : UnitRef) (s : State) : Host.Outcome State Fault Refusal :=
  .next (if pairsTaken s u then postDone s u else s)

/-- STOP. -/
def queStop (s : State) (d q : Nat) : State :=
  if (queue s d q).en then setQueue s d q { queue s d q with stopped := true } else s

/-- RESUME: the queue runs and serves whoever waits for an entry. -/
def queResume (s : State) (d q : Nat) : State :=
  let s1 := setQueue s d q { queue s d q with stopped := false }
  servePops (queue s d q).pops.length s1 d q

/-- The request that a front-end made at another chip stays without anybody to answer. -/
def orphanAsk (s : State) (who : Origin) : State :=
  match findAsk s who with
  | none => s
  | some (p, o) =>
    if o.sent then sendTxn (orphan s p o) o.ep (cancelTxn s o) else dropAsk s p o

/-- A front-end holds an entry that has not passed to the consumer: one whose WAIT or RING is done, or whose add is on its way to another
die, counts as passed (DEDUCED, log entry 51). -/
def feHeld (q : Queue) : Bool :=
  match q.fe with
  | some h => decide (h.phase ≤ 1)
  | none => false

/-- The held WAIT or RING discarded, its wait withdrawn (R219); a WAIT whose Bell has counted but which has not been released yet too
(DESIGN CHOICE, log entry 51). -/
def feDrop (s : State) (d q : Nat) : State :=
  if feHeld (queue s d q) then
    let s1 := orphanAsk (withdraw s (.frontEnd d q)) (.frontEnd d q)
    setQueue s1 d q { queue s1 d q with fe := none }
  else s

/-- FLUSH: every entry not passed on is discarded and counted, and waiting pushes are taken. -/
def queFlush (s : State) (d q : Nat) : State :=
  let k := (queue s d q).occ + b2n (feHeld (queue s d q))
  let s1 := feDrop s d q
  admitAll (setQueue s1 d q { queue s1 d q with occ := 0, disc := satAdd (queue s1 d q).disc k }) d q

/-- QUE_CTL as a write leaves it: STOP, RESUME and FLUSH act in that order. -/
def queCtlWrite (s : State) (d q : Nat) (v : Word) : State :=
  let s1 := if bit v 0 then queStop s d q else s
  let s2 := if bit v 1 then queResume s1 d q else s1
  if bit v 2 then queFlush s2 d q else s2

/-- QUE_STOP (R219). -/
def execQueStop (d : Fin 4) (q : Fin 128) (s : State) : Host.Outcome State Fault Refusal :=
  .next (if !regsUp s then s else queCtlWrite s d q 1)

/-- QUE_RESUME (R219). -/
def execQueResume (d : Fin 4) (q : Fin 128) (s : State) : Host.Outcome State Fault Refusal :=
  .next (if !regsUp s then s else queCtlWrite s d q 2)

/-- QUE_FLUSH (R219). -/
def execQueFlush (d : Fin 4) (q : Fin 128) (s : State) : Host.Outcome State Fault Refusal :=
  .next (if !regsUp s then s else queCtlWrite s d q 4)

/-- STATE is DISABLED or STOPPED and no entry is held: the ring may be configured (R220). -/
def queIdle (q : Queue) : Bool := decide (queState q ≠ 1) && decide (q.occ = 0)

/-- QUE_BASE as a write leaves it. -/
def queBaseWrite (s : State) (d q : Nat) (v : Word) : State :=
  let n : Queue := { queue s d q with base := v.extractLsb' 6 19 }
  if queIdle (queue s d q) && (!n.en || queInVault n) then setQueue s d q n else s

/-- QUE_CFG with its high-water fields written. -/
def queHwm (q : Queue) (v : Word) : Queue :=
  { q with hwm := v.extractLsb' 12 12, hwen := bit v 11, hwbell := v.extractLsb' 0 8 }

/-- QUE_CFG as a write leaves it (R220). A write that leaves LDEPTH at 0 is ignored whole, and clearing EN leaves a waiting QPOP and an
entry that the front-end holds where they are (DESIGN CHOICE, log entry 81). -/
def queCfgWrite (s : State) (d q : Nat) (v : Word) : State :=
  let old := queue s d q
  let n : Queue := { queHwm old v with en := bit v 31, esize := bit v 30, ldepth := v.extractLsb' 24 4 }
  if field v 27 24 < 3 ∨ 12 < field v 27 24 then s
  else if n.en = old.en ∧ n.esize = old.esize ∧ n.ldepth = old.ldepth then setQueue s d q n
  else if queIdle old && (!n.en || queInVault n) then
    setQueue s d q { n with stopped := n.en && old.en && old.stopped }
  else s

/-- QUE_CONFIG_WRITE (R220): of QUE_CFG, or of QUE_BASE. -/
def execQueConfigWrite (d : Fin 4) (q : Fin 128) (cfg : Bool) (v : BitVec 32) (s : State) :
    Host.Outcome State Fault Refusal :=
  .next (if !regsUp s then s else if cfg then queCfgWrite s d q v else queBaseWrite s d q v)

/-- QUE_HWCNT_READ (R218). -/
def execQueHwcntRead (d : Fin 4) (q : Fin 128) (s : State) : Host.Outcome State Fault Refusal :=
  .next (if regsUp s then setQueue (outRead s (queue s d q).hwcnt) d q { queue s d q with hwcnt := 0 } else s)

/-- QUE_DISC_READ (R218). -/
def execQueDiscRead (d : Fin 4) (q : Fin 128) (s : State) : Host.Outcome State Fault Refusal :=
  .next (if regsUp s then setQueue (outRead s (queue s d q).disc) d q { queue s d q with disc := 0 } else s)

/-! ### The front-end (R212, R213, R227) -/

/-- The unit on die d that a consumer is. -/
def consumerUnit (d : Fin 4) (c : Consumer) : UnitRef :=
  match c with
  | .dome n => .dome d n
  | .tower n => .tower d n
  | .plinth n => .plinth d n
  | .lantern n => .lantern d n
  | .mover m => .mover m

/-- EN, DIE and QUEUE of a mover as they act. -/
def moverQueue (v : Mover) : Bool × BitVec 2 × BitVec 7 := usedNow v.cmd v.was (v.en, v.die, v.queue)

/-- Whether a consumer's command-queue register names queue q of die d. -/
def consumes (s : State) (d q : Nat) (c : Consumer) : Bool :=
  match c with
  | .dome n => decide ((usedNow (dome s d n).cmd (dome s d n).cmdqWas (dome s d n).cmdq).toNat = q)
  | .tower n => decide ((usedNow (tower s d n).cmd (tower s d n).cmdqWas (tower s d n).cmdq).toNat = q)
  | .plinth n => decide ((usedNow (plinth s d n).cmd (plinth s d n).cmdqWas (plinth s d n).cmdq).toNat = q)
  | .lantern n => decide ((usedNow (lantern s d n).cmd (lantern s d n).cmdqWas (lantern s d n).cmdq).toNat = q)
  | .mover m =>
    let r := moverQueue (mover s m)
    r.1 && decide (r.2.1.toNat = d) && decide (r.2.2.toNat = q) && diesJoined s 4 d

/-- The front-end may take an entry for a consumer: the queue runs and holds one, and none is held before it. -/
def feReady (s : State) (d : Fin 4) (q : Nat) (c : Consumer) : Bool :=
  let v := queue s d q
  decide (s.mstate = .run) && consumes s d q c && decide (queState v = 1) && decide (v.occ ≠ 0) && v.fe.isNone
    && !(cd s d).vaultClearing

/-- A WAIT or a RING, which the front-end keeps. -/
def feOwn (ws : List Word) : Bool := decide (field (wordAt ws 0) 31 28 ≥ 14)

/-- A consumer takes its next command only after the record of the one before has been pushed (R215). -/
def unitFree (s : State) (u : UnitRef) : Bool := (unitCmd s u).isNone && decide (unitDones s u = [])

/-- An entry taken: a WAIT or RING stays with the front-end, anything else passes to the consumer. -/
def feTook (s : State) (d : Fin 4) (q : Nat) (c : Consumer) (ws : List Word) (seq : Word) : State :=
  if feOwn ws then setQueue s d q { queue s d q with fe := some { w := ws, seq := seq, phase := 0 } }
  else
    setUnitCmd (setQueue s d q { queue s d q with open_ := (queue s d q).open_ ++ [seq] }) (consumerUnit d c)
      (some ⟨ws, seq, q, d⟩)

/-- QUEUE_FRONT_END_TAKE (R212): a WAIT or RING is taken whatever the consumer does, a command once the consumer is free. -/
def execQueueFrontEndTake (d : Fin 4) (q : Fin 128) (c : Consumer) (s : State) : Host.Outcome State Fault Refusal :=
  .next (if feReady s d q c then
      match popEntry s d q with
      | .error o => vaultFail s d o (fePort q)
      | .ok (bs, s1) =>
        let ws := toWords 8 (bs.drop (bs.length - 32))
        if feOwn ws || unitFree s (consumerUnit d c) then feTook s1 d q c ws (queHead (queue s d q)) else s
    else s)

/-- A WAIT or RING entry with a bit that R213 does not list, or a bad name. -/
def feBad (s : State) (ws : List Word) : Bool :=
  decide (field (wordAt ws 0) 26 0 ≠ 0) || decide (field (wordAt ws 1) 31 16 ≠ 0)
    || (countFrom 3 4).any (fun i => decide (wordAt ws i ≠ 0)) || nameBad s (field (wordAt ws 1) 15 0) 8

/-- The entry that a front-end has taken and not acted on, if its opcode is opc. -/
def feAt (s : State) (d q opc phase : Nat) : Option FeHold :=
  match (queue s d q).fe with
  | some h => if h.phase = phase ∧ field (wordAt h.w 0) 31 28 = opc ∧ s.mstate = .run then some h else none
  | none => none

def setFePhase (s : State) (d q : Nat) (h : FeHold) (phase : Nat) : State :=
  setQueue s d q { queue s d q with fe := some { h with phase := phase } }

def feSender (d q : Nat) : Sender := { die := d, src := 0x100 + q, who := .frontEnd d q }

/-- What an operation of the front-end came to: answered, or held. -/
def feReply (r : Reply) (d q : Nat) : State :=
  match r.1 with
  | some a => answerOp r.2 (.frontEnd d q) a.1 []
  | none => r.2

/-- WAIT_ENTRY (R213, R227). -/
def execWaitEntry (d : Fin 4) (q : Fin 128) (s : State) : Host.Outcome State Fault Refusal :=
  .next (match feAt s d q 15 0 with
    | none => s
    | some h =>
      if feBad s h.w then feComplete s d q 0x12 3
      else feReply (sendBwait (setFePhase s d q h 1) (feSender d q) (field (wordAt h.w 1) 15 0) (wordAt h.w 2)) d q)

/-- RING_ENTRY (R213): it waits for the commands before it. -/
def execRingEntry (d : Fin 4) (q : Fin 128) (s : State) : Host.Outcome State Fault Refusal :=
  .next (match feAt s d q 14 0 with
    | none => s
    | some h => if feBad s h.w then feComplete s d q 0x12 3 else setFePhase s d q h 1)

/-- RING_ADD (R213): every earlier command of the queue has completed. -/
def execRingAdd (d : Fin 4) (q : Fin 128) (s : State) : Host.Outcome State Fault Refusal :=
  .next (match feAt s d q 14 1 with
    | none => s
    | some h =>
      if (queue s d q).open_ = [] then
        feReply (sendBadd (setFePhase s d q h 4) (feSender d q) (field (wordAt h.w 1) 15 0) (wordAt h.w 2)) d q
      else s)

end Sys2Proof.Machine
end

