-- ==== Sys2Proof/Machine/Csi.lean ====
section
/-! DEFINITION. The CSI-2 receivers (13 R305-R308, R325, R326). -/

namespace Sys2Proof.Machine

/-! ### Fields (Table 13-11) -/

def scEn (c : CsiStreamRegs) : Bool := bit c.scfg 31
def scVc (c : CsiStreamRegs) : Nat := field c.scfg 27 24
def scDt (c : CsiStreamRegs) : Nat := field c.scfg 21 16
def scDie (c : CsiStreamRegs) : Nat := field c.scfg 10 9
def scBase (c : CsiStreamRegs) : Nat := field c.sbase 24 6 * 64
def scSlots (c : CsiStreamRegs) : Nat := field c.sslot 30 24
def scSlot (c : CsiStreamRegs) : Nat := field c.sslot 12 0 * 4096
def scStride (c : CsiStreamRegs) : Nat := field c.slstr 17 6 * 64
def scReady (c : CsiStreamRegs) : Nat := field c.sbell 31 16
def scFree (c : CsiStreamRegs) : Nat := field c.sbell 15 0

def csiStream (v : CsiRx) (k : Nat) : Stream := tabGet {} v.streams k
def putStream (v : CsiRx) (k : Nat) (x : Stream) : CsiRx := { v with streams := tabSet v.streams k x }

/-- The offset of the slot of frame n. -/
def slotAt (c : CsiStreamRegs) (n : Nat) : Nat := scBase c + n % scSlots c * scSlot c

/-! ### Triggers (R307) -/

/-- The number of the frame that the next pulse not answered yet brings; the one being written has its number already. -/
def csiNext (x : Stream) : Nat :=
  x.n + (match x.cur with
    | some c => b2n c.write
    | none => 0)

/-- The count of the FREE Bell of a stream: none where the name is bad or its die out of reach. A Bell of another chip is counted
there, and its count is a free value here, another for each stream and each time it is asked for (DESIGN CHOICE, log entry 68). -/
def freeCount (s : State) (k w : Nat) : Option Word :=
  if nameBad s w 8 || targetIsolated s 4 (nameChip w) (nameDie w) then none
  else if nameChip w = ownChip s then some (bell s (nameDie w) (w % 256)).count
  else some (Config.freeWord (s.free + k))

/-- Stream k has a free slot for the frame of the next pulse (R306). -/
def csiFree (s : State) (k : Nat) (x : Stream) : Bool :=
  match x.live with
  | none => true
  | some c =>
    match freeCount s k (scFree c) with
    | some n => counted n (w32 (csiNext x + x.pulses + 1) - w32 (scSlots c))
    | none => false

/-- Some stream's FREE Bell lies on another chip. -/
def csiRemote (s : State) (v : CsiRx) : Bool :=
  (upTo 4).any (fun k => match (csiStream v k).live with
    | some c => decide (nameChip (scFree c) ≠ ownChip s)
    | none => false)

/-- A pulse may be issued now. -/
def csiMayPulse (s : State) (v : CsiRx) (c : CsiRegs) : Bool :=
  decide (s.mstate = .run) && (upTo 4).all (fun k => csiFree s k (csiStream v k))
    && (match v.lastPulse with
      | none => true
      | some t => decide (since s t ≥ field c.tper 23 0 * 1000))

/-- A pulse comes later than TPER after the one before it. -/
def csiIsLate (s : State) (v : CsiRx) (c : CsiRegs) : Bool :=
  match v.lastPulse with
  | none => false
  | some t => decide (since s t > field c.tper 23 0 * 1000)

/-- The streams as a pulse leaves them. -/
def csiPulsed (l : Tab Stream) : Tab Stream :=
  l.map (fun e => (e.1, if e.2.live.isSome then { e.2 with pulses := e.2.pulses + 1 } else e.2))

/-- CSI_TRIGGER_PULSE (R307). -/
def execCsiTriggerPulse (r : Fin 4) (s : State) : Host.Outcome State Fault Refusal :=
  let v := csiRx s r
  .next (match v.live with
    | none => s
    | some c =>
      let s1 := { s with free := s.free + 4 * b2n (csiRemote s v) }
      if csiMayPulse s v c then
        output (setCsiRx s1 r { v with
          lastPulse := some s.tb, late := satAdd v.late (b2n (csiIsLate s v c)), streams := csiPulsed v.streams })
          (.trigger r (bit c.trig 31) (field c.trig 23 16))
      else s1)

/-! ### The end of a frame (R306, R308; Table 13-4) -/

def flOVERSIZE : Nat := 1
def flNOFE : Nat := 2
def flTRUNC : Nat := 4

/-- Frame status words. -/
def csiStatus (s : State) (x : CsiCur) (flags : Nat) : List Word :=
  [x.number, w32 x.lines, w32 (min x.eccs 0xFFFF * 65536 + min x.crcErrs 0xFFFF),
    w32 (flags + (if x.oversize then flOVERSIZE else 0)), loWord x.start, hiWord x.start, loWord s.tb, hiWord s.tb,
    0, 0, 0, 0, 0, 0, 0, 0]

/-- Bytes sent over the link to the Vault of a C-die by a receiver, in requests of at most 4,096 bytes, for a frame; none for an
isolated die. -/
def csiWrite (s : State) (r d off : Nat) (who : Origin) (bs : List Byte) : Option State :=
  (pieces off bs).foldl (fun t p => t.bind (fun u =>
    if diesJoined u 4 d then
      sendAsk u { kind := kWR, src := csiPort r, addr := devAddr (ownChip u) d p.1, len := p.2.length, payload := p.2 } who
    else none)) (some s)

/-- The frame of stream k ends: one that was being written gets its status and, once all of it has been written, its READY add. -/
def csiEnd (s : State) (r k flags : Nat) : State :=
  let v := csiRx s r
  let x := csiStream v k
  match x.cur, x.live with
  | some cur, some c =>
    if cur.write then
      let s1 := setCsiRx s r (putStream v k { x with cur := none, n := x.n + 1 })
      (csiWrite s1 r (scDie c) (slotAt c x.n) (.camera r k x.n (some (scReady c))) (ofWords (csiStatus s cur flags))).getD
        (cameraDone s1 r k x.n (some (scReady c)))
    else setCsiRx s r (putStream v k { x with cur := none })
  | _, _ => s

/-! ### Packets (R308) -/

/-- The receiver takes packets (Table 13-12). -/
def csiOn (s : State) (v : CsiRx) : Bool :=
  v.live.isSome && decide (s.mstate ≠ .reset) && decide (s.mstate ≠ .safe)

/-- The data types of Table 13-3. -/
def csiTypeOk (dt : Nat) : Bool :=
  decide (dt ∈ [0x12, 0x1E, 0x24, 0x2A, 0x2B, 0x2C, 0x2E]) || (decide (0x30 ≤ dt) && decide (dt ≤ 0x37))

/-- A header that cannot be corrected is counted, and the packet is gone; another goes on to what it does. -/
def csiPacket (s : State) (r : Nat) (h : CsiHeader) (f : State → State) : State :=
  let v := csiRx s r
  if csiOn s v then
    (if h.ecc = .bad then setCsiRx s r { v with eccerr := satAdd v.eccerr 1 } else f s)
  else s

/-- Live streams on a virtual channel. -/
def csiOnVc (v : CsiRx) (h : CsiHeader) (k : Nat) : Bool :=
  match (csiStream v k).live with
  | none => false
  | some c => decide (scVc c = h.vc.toNat)

/-- A frame begins on stream k; one still running ends with NOFE. -/
def csiBegin (s : State) (r : Nat) (h : CsiHeader) (k : Nat) : State :=
  let s1 := csiEnd s r k flNOFE
  let v := csiRx s1 r
  let x := csiStream v k
  let cur : CsiCur := { write := decide (x.pulses ≠ 0), number := w32 h.field.toNat, line := 0, lines := 0, crcErrs := 0,
                        eccs := b2n (decide (h.ecc = .corrected)), oversize := false, start := s.tb }
  if x.pulses = 0 then setCsiRx s1 r { putStream v k { x with cur := some cur } with unsol := satAdd v.unsol 1 }
  else setCsiRx s1 r (putStream v k { x with cur := some cur, pulses := x.pulses - 1 })

/-- CSI_FRAME_START (R308). -/
def execCsiFrameStart (r : Fin 4) (h : CsiHeader) (s : State) : Host.Outcome State Fault Refusal :=
  .next (csiPacket s r h (fun t =>
    (upTo 4).foldl (fun u k => if csiOnVc (csiRx u r) h k then csiBegin u r h k else u) t))

/-- A line of stream k: written where it ends inside the slot (R306). Only the data types of R305 are carried. -/
def csiLine (s : State) (r : Nat) (h : CsiHeader) (crcOk : Bool) (data : List Byte) (k : Nat) : State :=
  let v := csiRx s r
  let x := csiStream v k
  match x.cur, x.live with
  | some cur, some c =>
    if cur.write && decide (scDt c = h.dt.toNat) && csiTypeOk h.dt.toNat then
      let ofs := 64 + cur.line * scStride c
      let fits := decide (ofs + data.length ≤ scSlot c)
      let cur1 := { cur with
        line := cur.line + 1, lines := cur.lines + b2n fits, oversize := cur.oversize || !fits,
        crcErrs := cur.crcErrs + b2n (!crcOk), eccs := cur.eccs + b2n (decide (h.ecc = .corrected)) }
      let s1 := setCsiRx s r (putStream v k { x with cur := some cur1 })
      if fits then (csiWrite s1 r (scDie c) (slotAt c x.n + ofs) (.camera r k x.n none) data).getD s1 else s1
    else s
  | _, _ => s

/-- CSI_LONG_PACKET (R306, R308). -/
def execCsiLongPacket (r : Fin 4) (h : CsiHeader) (crcOk : Bool) (data : List (BitVec 8)) (s : State) :
    Host.Outcome State Fault Refusal :=
  .next (csiPacket s r h (fun t =>
    (upTo 4).foldl (fun u k => if csiOnVc (csiRx u r) h k then csiLine u r h crcOk data k else u) t))

/-- A corrected header counted in the frame it belongs to. -/
def csiCountEcc (s : State) (r : Nat) (h : CsiHeader) (k : Nat) : State :=
  let v := csiRx s r
  let x := csiStream v k
  match x.cur with
  | some cur =>
    setCsiRx s r (putStream v k { x with cur := some { cur with eccs := cur.eccs + b2n (decide (h.ecc = .corrected)) } })
  | none => s

/-- CSI_FRAME_END (R306). -/
def execCsiFrameEnd (r : Fin 4) (h : CsiHeader) (s : State) : Host.Outcome State Fault Refusal :=
  .next (csiPacket s r h (fun t =>
    (upTo 4).foldl (fun u k => if csiOnVc (csiRx u r) h k then csiEnd (csiCountEcc u r h k) r k 0 else u) t))

/-- FTMO ms have passed since the start of a frame. -/
def csiOverdue (s : State) (v : CsiRx) (x : CsiCur) : Bool :=
  match v.live with
  | none => false
  | some c => decide (since s x.start ≥ field c.trig 7 0 * 1000000)

/-- CSI_FRAME_TIMEOUT (R308). -/
def execCsiFrameTimeout (r : Fin 4) (k : Fin 4) (s : State) : Host.Outcome State Fault Refusal :=
  let v := csiRx s r
  .next (match (csiStream v k).cur with
    | some x => if csiOn s v && csiOverdue s v x then csiEnd s r k flTRUNC else s
    | none => s)

/-! ### Registers (R325) -/

/-- A stream as its configuration comes into force. -/
def streamStart (x : Stream) : Stream :=
  { x with live := if scEn x.regs then some x.regs else none, n := 0, pulses := 0, cur := none }

/-- CSI_CFG written. -/
def csiCfgSet (s : State) (r : Nat) (x : Word) : State :=
  let v := csiRx s r
  let g := { v.regs with cfg := x &&& 0xF000_1FFF }
  if s.mstate = .reset ∨ s.mstate = .safe then s
  else if bit x 31 then
    (if bit v.regs.cfg 31 then setCsiRx s r { v with regs := g }
     else setCsiRx s r { v with
       regs := g, live := some g, lastPulse := none, streams := v.streams.map (fun e => (e.1, streamStart e.2)) })
  else setCsiRx s r { v with regs := g, live := none }

/-- CSI_ENABLE (R325). -/
def execCsiEnable (r : Fin 4) (v : BitVec 32) (s : State) : Host.Outcome State Fault Refusal := .next (csiCfgSet s r v)

/-- CSI_SCFG written. -/
def scfgSet (s : State) (r k : Nat) (w : Word) : State :=
  let v := csiRx s r
  let x := csiStream v k
  let g := { x.regs with scfg := w &&& 0x8F3F_0600 }
  if s.mstate = .reset ∨ s.mstate = .safe then s
  else if bit w 31 then
    (if bit x.regs.scfg 31 then setCsiRx s r (putStream v k { x with regs := g })
     else setCsiRx s r (putStream v k (streamStart { x with regs := g })))
  else setCsiRx s r (putStream v k { x with regs := g, live := none, cur := none })

def csiCount (v : CsiRx) (k : CsiCounter) : Word :=
  match k with
  | .unsol => v.unsol
  | .late => v.late
  | .eccerr => v.eccerr

def csiCountClear (v : CsiRx) (k : CsiCounter) : CsiRx :=
  match k with
  | .unsol => { v with unsol := 0 }
  | .late => { v with late := 0 }
  | .eccerr => { v with eccerr := 0 }

/-- CSI_COUNTER_READ (R325). -/
def execCsiCounterRead (r : Fin 4) (k : CsiCounter) (s : State) : Host.Outcome State Fault Refusal :=
  .next (if regsUp s then setCsiRx (outRead s (csiCount (csiRx s r) k)) r (csiCountClear (csiRx s r) k) else s)

end Sys2Proof.Machine
end

