-- ==== Sys2Proof/Machine/Sha.lean ====
section
/-! DEFINITION. SHA-512 (FIPS 180-4), from which digests are taken (04 R92; 12 R283). -/

namespace Sys2Proof.Machine

/-- A word of SHA-512. -/
abbrev W64 := BitVec 64

/-- Constants of the rounds, four rows of twenty. -/
def shaK0 : List W64 :=
  [0x428A2F98D728AE22, 0x7137449123EF65CD, 0xB5C0FBCFEC4D3B2F,
   0xE9B5DBA58189DBBC, 0x3956C25BF348B538, 0x59F111F1B605D019,
   0x923F82A4AF194F9B, 0xAB1C5ED5DA6D8118, 0xD807AA98A3030242,
   0x12835B0145706FBE, 0x243185BE4EE4B28C, 0x550C7DC3D5FFB4E2,
   0x72BE5D74F27B896F, 0x80DEB1FE3B1696B1, 0x9BDC06A725C71235,
   0xC19BF174CF692694, 0xE49B69C19EF14AD2, 0xEFBE4786384F25E3,
   0x0FC19DC68B8CD5B5, 0x240CA1CC77AC9C65]
def shaK1 : List W64 :=
  [0x2DE92C6F592B0275, 0x4A7484AA6EA6E483, 0x5CB0A9DCBD41FBD4,
   0x76F988DA831153B5, 0x983E5152EE66DFAB, 0xA831C66D2DB43210,
   0xB00327C898FB213F, 0xBF597FC7BEEF0EE4, 0xC6E00BF33DA88FC2,
   0xD5A79147930AA725, 0x06CA6351E003826F, 0x142929670A0E6E70,
   0x27B70A8546D22FFC, 0x2E1B21385C26C926, 0x4D2C6DFC5AC42AED,
   0x53380D139D95B3DF, 0x650A73548BAF63DE, 0x766A0ABB3C77B2A8,
   0x81C2C92E47EDAEE6, 0x92722C851482353B]
def shaK2 : List W64 :=
  [0xA2BFE8A14CF10364, 0xA81A664BBC423001, 0xC24B8B70D0F89791,
   0xC76C51A30654BE30, 0xD192E819D6EF5218, 0xD69906245565A910,
   0xF40E35855771202A, 0x106AA07032BBD1B8, 0x19A4C116B8D2D0C8,
   0x1E376C085141AB53, 0x2748774CDF8EEB99, 0x34B0BCB5E19B48A8,
   0x391C0CB3C5C95A63, 0x4ED8AA4AE3418ACB, 0x5B9CCA4F7763E373,
   0x682E6FF3D6B2B8A3, 0x748F82EE5DEFB2FC, 0x78A5636F43172F60,
   0x84C87814A1F0AB72, 0x8CC702081A6439EC]
def shaK3 : List W64 :=
  [0x90BEFFFA23631E28, 0xA4506CEBDE82BDE9, 0xBEF9A3F7B2C67915,
   0xC67178F2E372532B, 0xCA273ECEEA26619C, 0xD186B8C721C0C207,
   0xEADA7DD6CDE0EB1E, 0xF57D4F7FEE6ED178, 0x06F067AA72176FBA,
   0x0A637DC5A2C898A6, 0x113F9804BEF90DAE, 0x1B710B35131C471B,
   0x28DB77F523047D84, 0x32CAAB7B40C72493, 0x3C9EBE0A15C9BEBC,
   0x431D67C49C100D4C, 0x4CC5D4BECB3E42B6, 0x597F299CFC657E2A,
   0x5FCB6FAB3AD6FAEC, 0x6C44198C4A475817]
def shaK : List W64 := shaK0 ++ shaK1 ++ shaK2 ++ shaK3

/-- The initial hash value. -/
def shaInit : List W64 :=
  [0x6A09E667F3BCC908, 0xBB67AE8584CAA73B, 0x3C6EF372FE94F82B,
   0xA54FF53A5F1D36F1, 0x510E527FADE682D1, 0x9B05688C2B3E6C1F,
   0x1F83D9ABFB41BD6B, 0x5BE0CD19137E2179]

def shaRot (x : W64) (n : Nat) : W64 := x.rotateRight n
def shaS0 (x : W64) : W64 := shaRot x 28 ^^^ shaRot x 34 ^^^ shaRot x 39
def shaS1 (x : W64) : W64 := shaRot x 14 ^^^ shaRot x 18 ^^^ shaRot x 41
def shaG0 (x : W64) : W64 := shaRot x 1 ^^^ shaRot x 8 ^^^ (x >>> 7)
def shaG1 (x : W64) : W64 := shaRot x 19 ^^^ shaRot x 61 ^^^ (x >>> 6)
def shaCh (x y z : W64) : W64 := (x &&& y) ^^^ (~~~x &&& z)
def shaMaj (x y z : W64) : W64 := (x &&& y) ^^^ (x &&& z) ^^^ (y &&& z)

/-- The number of big-endian bytes. -/
def beNat : List Byte → Nat
  | bs => bs.foldl (fun a b => a * 256 + b.toNat) 0

/-- n bytes of a number, the highest first. -/
def natBe (n v : Nat) : List Byte := (natLe n v).reverse

/-- Words of eight bytes. -/
def shaWords : Nat → List Byte → List W64
  | 0, _ => []
  | n + 1, bs => BitVec.ofNat 64 (beNat (bs.take 8)) :: shaWords n (bs.drop 8)

/-- n further words of the message schedule; the newest word first. -/
def shaSched : Nat → List W64 → List W64
  | 0, r => r
  | n + 1, r => shaSched n ((shaG1 (r.getD 1 0) + r.getD 6 0 + shaG0 (r.getD 14 0) + r.getD 15 0) :: r)

/-- The working variables. -/
structure ShaVars where
  a : W64
  b : W64
  c : W64
  d : W64
  e : W64
  f : W64
  g : W64
  h : W64
  deriving Repr

def shaRound (v : ShaVars) (kw : W64 × W64) : ShaVars :=
  let t1 := v.h + shaS1 v.e + shaCh v.e v.f v.g + kw.1 + kw.2
  let t2 := shaS0 v.a + shaMaj v.a v.b v.c
  ⟨t1 + t2, v.a, v.b, v.c, v.d + t1, v.e, v.f, v.g⟩

def shaVars (h : List W64) : ShaVars :=
  ⟨h.getD 0 0, h.getD 1 0, h.getD 2 0, h.getD 3 0, h.getD 4 0, h.getD 5 0, h.getD 6 0, h.getD 7 0⟩

/-- The hash value after one block of 128 bytes. -/
def shaBlock (h : List W64) (bs : List Byte) : List W64 :=
  let w := (shaSched 64 (shaWords 16 bs).reverse).reverse
  let v := (shaK.zip w).foldl shaRound (shaVars h)
  let i := shaVars h
  [i.a + v.a, i.b + v.b, i.c + v.c, i.d + v.d, i.e + v.e, i.f + v.f, i.g + v.g, i.h + v.h]

def shaBlocks : Nat → List W64 → List Byte → List W64
  | 0, h, _ => h
  | n + 1, h, bs => shaBlocks n (shaBlock h (bs.take 128)) (bs.drop 128)

/-- The message padded to whole blocks. -/
def shaPad (bs : List Byte) : List Byte :=
  let n := bs.length
  bs ++ [0x80] ++ List.replicate ((239 - n % 128) % 128) 0 ++ natBe 16 (8 * n)

/-- The 64 bytes of the SHA-512 digest. -/
def sha512 (bs : List Byte) : List Byte :=
  let p := shaPad bs
  (shaBlocks (p.length / 128) shaInit p).flatMap (fun w => natBe 8 w.toNat)

/-- The first 32 bytes of it (04 R92). -/
def digest32 (bs : List Byte) : List Byte := (sha512 bs).take 32

end Sys2Proof.Machine
end

