-- ==== Sys2Proof/Machine/Tower.lean ====
section
/-! DEFINITION. The Tower's MUL (05 R108, R109, R127, R128, R130), the checks that Tower, Plinth and Dome commands share,
and the Plinths' intake of pairs. -/

namespace Sys2Proof.Machine

/-! ### Checks shared by commands (R130) -/

/-- No word of a command has a bit outside its mask. -/
def masksOk : List Word → List Word → Bool
  | [], _ => true
  | m :: ms, ws => decide ((ws.headD 0) &&& ~~~m = 0) && masksOk ms ws.tail

/-- n bytes from a lie in the Vault. -/
def inVault (a n : Nat) : Bool := decide (a + n ≤ vaultSize)

/-- Address field [24:0] of a word. -/
def vAddr (w : Word) : Nat := field w 24 0

def mAddr : Word := 0x01FF_FFFF
def mRows : Word := 0x01FF_FF3F
def mAll : Word := 0xFFFF_FFFF

/-! ### MUL (Table 5-1) -/

/-- Formats of operands A and B. -/
def mulFmt (k : Nat) : Option NFmt :=
  match k with
  | 0 => some .v8
  | 1 => some .g8
  | 2 => some .i8
  | _ => none

structure MulCmd where
  af : NFmt
  bf : NFmt
  ablk : Nat
  adir : Bool
  bblk : Nat
  bdir : Bool
  aunit : Bool
  bunit : Bool
  clear : Bool
  row : Nat
  m : Nat
  n : Nat
  seg : BitVec 16
  nkb : Nat
  aaddr : Nat
  baddr : Nat
  ascl : Nat
  bscl : Nat
  deriving Repr

def mulK (c : MulCmd) : Nat := 64 * c.nkb

/-- The scale words that a MUL ignores. -/
def ascIgnored (c : MulCmd) : Bool := c.aunit || decide (c.af = .i8)
def bscIgnored (c : MulCmd) : Bool := c.bunit || decide (c.bf = .i8)

/-- Bytes of scale areas A and B (R128); with BDIR = 1 area B has all 64 columns (DEDUCED, log entry 58). -/
def asclLen (c : MulCmd) : Nat := if c.adir then mulK c * ((c.m + c.ablk - 1) / c.ablk) else c.m * (mulK c / c.ablk)
def bsclLen (c : MulCmd) : Nat := if c.bdir then mulK c * (64 / c.bblk) else c.n * (mulK c / c.bblk)

/-- The fields of a MUL, if the formats are listed. -/
def mulFields (u : UnitCmd) : Option MulCmd :=
  let w := wordAt u.w 0
  match mulFmt (field w 27 26), mulFmt (field w 25 24) with
  | some af, some bf =>
    some { af := af, bf := bf, ablk := 8 * 2 ^ field w 23 22, adir := bit w 21, bblk := 8 * 2 ^ field w 20 19,
           bdir := bit w 18, aunit := bit w 17, bunit := bit w 16, clear := bit w 14, row := cmdRow u, m := cmdM u,
           n := cmdN u, seg := (wordAt u.w 2).extractLsb' 16 16, nkb := field (wordAt u.w 2) 15 0 + 1,
           aaddr := vAddr (wordAt u.w 3), baddr := vAddr (wordAt u.w 4), ascl := vAddr (wordAt u.w 5),
           bscl := vAddr (wordAt u.w 6) }
  | _, _ => none

/-- Masks of a MUL's words; an ignored scale word has none. -/
def mulMasks (c : MulCmd) : List Word :=
  [0xFFFF_C00E, mRows, mAll, mAddr, mAddr, if ascIgnored c then mAll else mAddr, if bscIgnored c then mAll else mAddr, mAll]

/-- The checks that give REJ_FIELD. -/
def mulOk (u : UnitCmd) (c : MulCmd) : Bool :=
  decide (cmdOpc u = 1) && masksOk (mulMasks c) u.w && decide (field (wordAt u.w 0) 15 14 < 2)
    && decide (c.row + c.m ≤ 512) && decide (c.aaddr % 64 = 0) && decide (c.baddr % 64 = 0)
    && inVault c.aaddr (64 * c.m * c.nkb) && inVault c.baddr (4096 * c.nkb)
    && (ascIgnored c || inVault c.ascl (asclLen c)) && (bscIgnored c || inVault c.bscl (bsclLen c))

/-- Every row of a MUL is in the mode of its format. -/
def mulMode (p : Plinth) (c : MulCmd) : Bool :=
  (countFrom c.row c.m).all (fun r => rowIsInt p r == decide (c.af = .i8))

/-- Status with which a MUL is refused, or 0. -/
def mulStatus (s : State) (d n : Nat) (u : UnitCmd) : Nat :=
  match mulFields u with
  | none => 1
  | some c =>
    if !mulOk u c then 1
    else if decide (c.af = .i8) != decide (c.bf = .i8) then 8
    else if !c.clear && !mulMode (plinth s d n) c then 9
    else 0

/-- A byte of the Vault as it stands. -/
def vByte (c : CDie) (a : Nat) : Nat := (memRead 0 c.vault a).toNat

/-- Elements of A and B at (m, k) and (k, n), with their scale bytes (R128). -/
def mulA (v : CDie) (c : MulCmd) (m k : Nat) : Nat := vByte v (c.aaddr + k / 64 * (64 * c.m) + 64 * m + k % 64)
def mulB (v : CDie) (c : MulCmd) (k n : Nat) : Nat := vByte v (c.baddr + 4096 * (k / 64) + 64 * (k % 64) + n)
def mulAs (v : CDie) (c : MulCmd) (m k : Nat) : Nat :=
  if c.aunit then 127
  else vByte v (c.ascl + (if c.adir then k * ((c.m + c.ablk - 1) / c.ablk) + m / c.ablk
    else m * (mulK c / c.ablk) + k / c.ablk))
def mulBs (v : CDie) (c : MulCmd) (k n : Nat) : Nat :=
  if c.bunit then 127
  else vByte v (c.bscl + (if c.bdir then k * (64 / c.bblk) + n / c.bblk else n * (mulK c / c.bblk) + k / c.bblk))

/-- The pair of row m and column n over block b (R108), with what its tree counts. -/
def mulPair (v : CDie) (c : MulCmd) (b m n : Nat) : Pair × Tally :=
  let idx := (c.row + m) * 64 + n
  let seg := c.seg + BitVec.ofNat 16 b
  let ks := countFrom (64 * b) 64
  if c.af = .i8 then
    (⟨idx, seg, BitVec.ofInt 32 (intTree (ks.map (fun k => (mulA v c m k, mulB v c k n)))), 0, true, 0⟩, {})
  else
    let r := treeSum (ks.map (fun k => (⟨shortVal c.af (mulA v c m k), mulAs v c m k⟩, ⟨shortVal c.bf (mulB v c k n), mulBs v c k n⟩)))
    (⟨idx, seg, w32 r.1, w32 r.2.1, false, 0⟩, r.2.2)

/-- Every pair of a MUL in the order of its steps (R109). -/
def mulPairs (v : CDie) (c : MulCmd) : List (Pair × Tally) :=
  (upTo c.nkb).flatMap (fun b => (upTo c.m).flatMap (fun m => (upTo c.n).map (fun n => mulPair v c b m n)))

/-- What a list of steps counts altogether. -/
def tallyAll {α : Type} : List (α × Tally) → Tally
  | [] => {}
  | p :: ps => tallyAdd p.2 (tallyAll ps)

/-- The pieces of the Vault that a MUL reads: its areas, and of B and its scale bytes the columns below N alone (R128). -/
def mulSpans (c : MulCmd) : List (Nat × Nat) :=
  [(c.aaddr, 64 * c.m * c.nkb)] ++ (upTo (mulK c)).map (fun k => (c.baddr + 64 * k, c.n))
    ++ (if ascIgnored c then [] else [(c.ascl, asclLen c)])
    ++ (if bscIgnored c then []
      else if c.bdir then (upTo (mulK c)).map (fun k => (c.bscl + k * (64 / c.bblk), (c.n - 1) / c.bblk + 1))
      else [(c.bscl, bsclLen c)])

/-- The Vault areas of a MUL read, with their error checks. -/
def mulReads (s : State) (d n : Nat) (c : MulCmd) : Bool × State := rdPieces s d 0 (w32 n) (mulSpans c)

/-- Tower steps that wait at the Plinth are counted, in a number that is left open (R112, R132). -/
def towerWaits (s : State) (d n : Nat) : State :=
  let (w, s1) := drawWord s
  setTower s1 d n { tower s1 d n with wait := satAdd (tower s1 d n).wait w.toNat }

/-- A MUL that clears rows which a DRAIN, READT or CHAIN is reading: it waits until that command completes, as the pairs of
those rows do (R119; 07 R170; DEDUCED, log entry 58). -/
def mulWaits (p : Plinth) (c : MulCmd) : Bool := c.clear && (countFrom c.row c.m).any (rowsRead p)

/-- A MUL that no check refuses: its rows set if it clears them, its pairs at the Tower port, and its completion to come
once they are taken. -/
def mulRun (s : State) (d : Fin 4) (n : Fin 8) (c : MulCmd) : State :=
  if mulWaits (plinth s d n) c then towerWaits s d n else
  let r := mulReads s d n c
  if r.1 then
    let s1 := r.2
    let p := plinth s1 d n
    let p1 := if c.clear then setMode (clearAccs p c.row c.m c.n) c.row c.m (decide (c.af = .i8)) else p
    let ps := mulPairs (cd s1 d) c
    let t := tallyAll ps
    let s2 := setPlinth s1 d n { p1 with towerPort := p1.towerPort ++ ps.map (·.1) }
    finishCmd (plFlags s2 d n t.flags) (.tower d n) 0 (counterWord t.sat t.flush) 0
  else r.2

/-- TOWER_MUL (R109, R130): the Tower's command in execution. -/
def execTowerMul (d : Fin 4) (n : Fin 8) (s : State) : Host.Outcome State Fault Refusal :=
  .next (match (tower s d n).cmd with
    | none => s
    | some u =>
      let st := mulStatus s d n u
      match mulFields u with
      | some c => if st = 0 then mulRun s d n c else finishCmd s (.tower d n) st 0 0
      | none => finishCmd s (.tower d n) st 0 0)

/-! ### Intake (R111, R112, R119) -/

/-- PLINTH_PAIR_INTAKE: the pair at the head of a port goes in, or waits; waiting Tower steps are counted, in a number that
is left open. -/
def execPlinthPairIntake (d : Fin 4) (n : Fin 8) (fromTower : Bool) (s : State) : Host.Outcome State Fault Refusal :=
  .next (match takePort s d n fromTower with
    | some t => t
    | none =>
      if fromTower && decide ((plinth s d n).towerPort ≠ []) then towerWaits s d n else s)

/-- TWR_WAIT_READ (R132). -/
def execTwrWaitRead (d : Fin 4) (n : Fin 8) (s : State) : Host.Outcome State Fault Refusal :=
  .next (if regsUp s then setTower (outRead s (tower s d n).wait) d n { tower s d n with wait := 0 } else s)

end Sys2Proof.Machine
end

