-- ==== Sys2Proof/Machine/Dome.lean ====
section
/-! DEFINITION. The commands of a Dome: PASS, PROGRAM, VERIFY and SWAP, and the programming current tokens (chapter 4). -/

namespace Sys2Proof.Machine

/-! ### Banks -/

def domBank (v : Dome) (b : Bool) : Bank := if b then v.b1 else v.b0
def setDomBank (v : Dome) (b : Bool) (k : Bank) : Dome := if b then { v with b1 := k } else { v with b0 := k }
def bankAt (s : State) (d n : Nat) (b : Bool) : Bank := domBank (dome s d n) b
def putBank (s : State) (d n : Nat) (b : Bool) (k : Bank) : State := setDome s d n (setDomBank (dome s d n) b k)

/-- Where a bank's bytes lie in `CDie.domeMem`: its offset in the read view (R82). -/
def bankBase (n : Nat) (b : Bool) : Nat := n * 0x20000 + b2n b * 0x10000
def bankSize : Nat := 65536
def bankBytes (s : State) (d n : Nat) (b : Bool) : List Byte := memBytes 0 (cd s d).domeMem (bankBase n b) bankSize

/-- A PROGRAM waits for its token, or runs. -/
def bankBusy (k : Bank) : Bool := k.job.isSome || decide (k.st = .prog)

/-- The ACTIVE bank. -/
def activeBank (v : Dome) : Option Bool :=
  if v.b0.st = .active then some false else if v.b1.st = .active then some true else none

def domPort (n : Nat) : Word := w32 (0x200 + n)

/-- The Dome's command in execution handed to its meaning where the opcode is its own; an opcode that no Dome accepts is
refused (R90). -/
def domRun (s : State) (d : Fin 4) (n : Fin 256) (opc : Nat) (f : UnitCmd → State) : State :=
  match (dome s d n).cmd with
  | none => s
  | some u =>
    if (dome s d n).deferred || (dome s d n).verifying then s
    else if cmdOpc u = opc then f u
    else if cmdOpc u < 1 ∨ 4 < cmdOpc u then finishCmd s (.dome d n) 1 0 0
    else s

def domDone (s : State) (d : Fin 4) (n : Fin 256) (st : Nat) : State := finishCmd s (.dome d n) st 0 0

/-! ### PASS (R83, R91, R100) -/

structure PassCmd where
  fmt : NFmt
  ablk : Nat
  wblk : Nat
  wdir : Bool
  wunit : Bool
  row0 : Nat
  nrow : Nat
  col0 : Nat
  ncol : Nat
  aaddr : Nat
  ascl : Nat
  wscl : Nat
  seg : BitVec 16
  acc0 : Nat
  deriving Repr

def passFields (u : UnitCmd) : PassCmd :=
  let w := wordAt u.w 0
  { fmt := if bit w 26 then .g8 else .v8, ablk := 8 * 2 ^ field w 25 24, wblk := 8 * 2 ^ field w 23 22, wdir := bit w 21,
    wunit := bit w 20, row0 := field w 19 18, nrow := field w 17 16 + 1, col0 := field w 15 8, ncol := field w 7 0 + 1,
    aaddr := vAddr (wordAt u.w 1), ascl := vAddr (wordAt u.w 2), wscl := vAddr (wordAt u.w 3),
    seg := (wordAt u.w 4).extractLsb' 16 16, acc0 := field (wordAt u.w 4) 14 0 }

def passOk (u : UnitCmd) (c : PassCmd) : Bool :=
  masksOk [mAll, mAddr, mAddr, if c.wunit then mAll else mAddr, 0xFFFF_7FFF, mAll, 0, 0] u.w && !bit (wordAt u.w 0) 27
    && decide (c.row0 + c.nrow ≤ 4) && decide (c.col0 + c.ncol ≤ 256) && decide (c.acc0 + c.ncol ≤ 32768)
    && decide (c.aaddr % 64 = 0) && inVault c.aaddr (64 * c.nrow) && inVault c.ascl (64 * c.nrow / c.ablk)
    && (c.wunit || inVault c.wscl (65536 / c.wblk))

/-- The weight byte at row r, column c of a bank. -/
def weightByte (v : CDie) (n : Nat) (b : Bool) (r c : Nat) : Nat := (memRead 0 v.domeMem (bankBase n b + r * 256 + c)).toNat

/-- The scale byte of a weight (Table 4-4). -/
def weightScale (v : CDie) (p : PassCmd) (r c : Nat) : Nat :=
  if p.wunit then 127
  else vByte v (p.wscl + (if p.wdir then r * (256 / p.wblk) + c / p.wblk else c * (256 / p.wblk) + r / p.wblk))

/-- The pair of row block b and column c. -/
def passPair (v : CDie) (n : Nat) (bk : Bool) (p : PassCmd) (b c : Nat) : Pair × Tally :=
  let ops := (upTo 64).map (fun i =>
    let j := 64 * (b - p.row0) + i
    ((⟨shortVal p.fmt (vByte v (p.aaddr + j)), vByte v (p.ascl + j / p.ablk)⟩ : TOp),
      (⟨shortVal .v8 (weightByte v n bk (64 * b + i) c), weightScale v p (64 * b + i) c⟩ : TOp)))
  let r := treeSum ops
  (⟨p.acc0 + (c - p.col0), p.seg + BitVec.ofNat 16 (b - p.row0), w32 r.1, w32 r.2.1, false, n + 1⟩, r.2.2)

def passPairs (v : CDie) (n : Nat) (bk : Bool) (p : PassCmd) : List (Pair × Tally) :=
  (countFrom p.row0 p.nrow).flatMap (fun b => (countFrom p.col0 p.ncol).map (fun c => passPair v n bk p b c))

/-- The pieces of the Vault that a PASS reads: its activations with their scale bytes, and of the weight scale table the bytes of its
rows and columns (R91). -/
def passSpans (p : PassCmd) : List (Nat × Nat) :=
  let w := p.wblk
  [(p.aaddr, 64 * p.nrow), (p.ascl, 64 * p.nrow / p.ablk)] ++
    (if p.wunit then []
    else if p.wdir then (countFrom (64 * p.row0) (64 * p.nrow)).map (fun r =>
      (p.wscl + r * (256 / w) + p.col0 / w, (p.col0 + p.ncol - 1) / w + 1 - p.col0 / w))
    else (countFrom p.col0 p.ncol).map (fun c => (p.wscl + c * (256 / w) + 64 * p.row0 / w, 64 * p.nrow / w)))

/-- What a PASS reads, with its error checks. -/
def passReads (s : State) (d n : Nat) (p : PassCmd) : Bool × State := rdPieces s d 0 (domPort n) (passSpans p)

/-- A PASS that nothing refuses: its pairs at the home Plinth's Dome port. -/
def passRun (s : State) (d : Fin 4) (n : Fin 256) (bk : Bool) (p : PassCmd) : State :=
  let r := passReads s d n p
  if r.1 then
    let h := n.val / 32
    let ps := passPairs (cd r.2 d) n bk p
    let t := tallyAll ps
    let q := plinth r.2 d h
    let s1 := setPlinth r.2 d h { q with domePort := q.domePort ++ ps.map (·.1) }
    finishCmd (plFlags s1 d h t.flags) (.dome d n) 0 (counterWord t.sat t.flush) 0
  else r.2

/-- PASS (R83). -/
def execPass (d : Fin 4) (n : Fin 256) (s : State) : Host.Outcome State Fault Refusal :=
  .next (domRun s d n 1 (fun u =>
    if passOk u (passFields u) then
      match activeBank (dome s d n) with
      | some bk => passRun s d n bk (passFields u)
      | none => domDone s d n 2
    else domDone s d n 1))

/-! ### PROGRAM (R93-R97, R103) -/

/-- PROGRAM (R93): checked, then waiting for its token while the Dome goes on. -/
def execProgram (d : Fin 4) (n : Fin 256) (s : State) : Host.Outcome State Fault Refusal :=
  .next (domRun s d n 2 (fun u =>
    let b := bit (wordAt u.w 0) 27
    let k := bankAt s d n b
    let src := vAddr (wordAt u.w 1)
    let dig := vAddr (wordAt u.w 2)
    if !(masksOk [0xF800_0000, mAddr, mAddr, 0, 0, mAll, 0, 0] u.w && inVault src bankSize && inVault dig 32) then
      domDone s d n 1
    else if k.st = .active ∨ bankBusy k then domDone s d n 3
    else if k.count ≥ 100000 then domDone s d n 4
    else
      let s1 := setUnitCmd s (.dome d n) none
      let s2 := putBank s1 d n b { k with job := some { cmd := u, src := src, digAt := some dig } }
      { s2 with tokenWait := s2.tokenWait ++ [(d.val, n.val, b)] }))

/-- The WEAR and WORN records of a count just reached (R103). -/
def wearWarn (s : State) (d n : Nat) (b : Bool) (cnt : Nat) : State :=
  let src := srcWord s skDome d n
  if cnt = 95000 then warn s src 0x0020 (w32 (b2n b)) (w32 cnt) 0
  else if cnt = 100000 then warn s src 0x0021 (w32 (b2n b)) (w32 cnt) 0
  else s

/-- A bank gets its token: it enters PROG and its count rises. -/
def grantBank (s : State) (t : Nat × Nat × Bool) : State :=
  let k := bankAt s t.1 t.2.1 t.2.2
  let s1 := putBank s t.1 t.2.1 t.2.2 { k with st := .prog, count := k.count + 1 }
  wearWarn { s1 with tokenHeld := s1.tokenHeld ++ [t] } t.1 t.2.1 t.2.2 (k.count + 1)

/-- PROGRAM_TOKEN_GRANT (R94): in the order of arrival, at most 32 at a time, none in HALT, and none while
12 R299 withholds them. A Dome of a die that is isolated from H gets its token too: 04 R94 and 10 R245 name no such case (DESIGN CHOICE,
log entry 5). In BOOT the loss of REFCLK_IN withholds none, and the bank programs on (DESIGN CHOICE, log entry 62). -/
def execProgramTokenGrant (s : State) : Host.Outcome State Fault Refusal :=
  .next (match s.tokenWait with
    | [] => s
    | t :: rest =>
      if s.tokenHeld.length < 32 ∧ (s.mstate = .run ∨ (s.mstate = .boot ∧ !s.boot.paused)) then grantBank { s with tokenWait := rest } t
      else s)

/-- The weight bytes and the digest that a programming reads: from the Vault, for the boot sequencer its staged block; one whose
slot attempt is over has read it before the Vault was cleared. None where a Vault read cannot end. Both areas are read whole when the programming ends, so bytes written after the issue
are always the ones used (DESIGN CHOICE, log entry 62). -/
def jobData (s : State) (d n : Nat) (j : PgmJob) : Option (List Byte × List Byte) × State :=
  match j.digAt with
  | none =>
    if j.tries < 9 then
      match rdVault s d j.src bankSize (domPort n) with
      | (none, t) => (none, t)
      | (some bs, t) => (some (bs, j.digest), t)
    else (some (memBytes flashFill s.flash j.block bankSize, j.digest), s)
  | some at_ =>
    match rdVault s d j.src bankSize (domPort n) with
    | (none, t) => (none, t)
    | (some bs, t) =>
      match rdVault t d at_ 32 (domPort n) with
      | (none, u) => (none, u)
      | (some dg, u) => (some (bs, dg), u)

/-- A token given back. -/
def freeToken (s : State) (d n : Nat) (b : Bool) : State :=
  { s with tokenHeld := s.tokenHeld.filter (fun t => decide (t ≠ (d, n, b))) }

/-- A programming ends with the bytes it read and the digest they must have. -/
def programDone (s : State) (d : Fin 4) (n : Fin 256) (b : Bool) (j : PgmJob) (bs dg : List Byte) (good : Bool) : State :=
  let k := bankAt s d n b
  let ok := good && decide (digest32 bs = dg)
  let s1 := if ok then setCd s d { cd s d with domeMem := memPut 0 (cd s d).domeMem (bankBase n b) bs } else s
  let k1 := if ok then { k with st := .standby, marginLow := false, digest := dg, aged := 0, job := none }
    else { k with st := .fault, job := failedJob k.job }
  let s2 := freeToken (putBank s1 d n b k1) d n b
  if j.boot then (if ok then { s2 with boot := { s2.boot with progs := s2.boot.progs + 1 } } else s2)
  else addDone s2 (.dome d n) j.cmd (if ok then 0 else 7) 0 0

/-- PROGRAM_END (R93): `cellsGood` says whether the cells took every byte. -/
def execProgramEnd (d : Fin 4) (n : Fin 256) (bank cellsGood : Bool) (s : State) : Host.Outcome State Fault Refusal :=
  .next (match (bankAt s d n bank).job with
    | none => s
    | some j =>
      if (bankAt s d n bank).st = .prog then
        match jobData s d n j with
        | (none, t) => t
        | (some x, t) => programDone t d n bank j x.1 x.2 cellsGood
      else s)

/-! ### VERIFY (R97, R99) -/

/-- A VERIFY whose bank is not being programmed runs on the digest engine, or is refused. -/
def verifyStart (s : State) (d : Fin 4) (n : Fin 256) (u : UnitCmd) : State :=
  let k := bankAt s d n (bit (wordAt u.w 0) 27)
  if bankBusy k then setDome s d n { dome s d n with deferred := true }
  else if k.st = .blank ∨ k.st = .fault then domDone (setDome s d n { dome s d n with deferred := false }) d n 3
  else setDome s d n { dome s d n with deferred := false, verifying := true }

/-- VERIFY (R99). -/
def execVerify (d : Fin 4) (n : Fin 256) (s : State) : Host.Outcome State Fault Refusal :=
  .next (domRun s d n 3 (fun u =>
    if masksOk [0xFC00_0000, 0, mAddr, 0, 0, mAll, 0, 0] u.w && inVault (vAddr (wordAt u.w 2)) 32 then verifyStart s d n u
    else domDone s d n 1))

/-- The figure of Table 4-8 up to 55 degrees, 20 years, in samples of 125 us. -/
def retention : Nat := 7305 * 86400 * 8000

/-- A bank that has spent half its retention account: a margin read finds it low (R104). -/
def halfSpent (k : Bank) : Bool := decide (2 * k.aged ≥ retention)

/-- A comparison ends: the bank's new record and the status. A bank that has spent half its account answers MARGIN to a margin
read that finds no mismatch, whatever its cells show (R104). -/
def verifyResult (k : Bank) (same margin tight : Bool) : Bank × Nat :=
  if !same then ({ k with st := .fault }, 5)
  else if !margin then (k, 0)
  else if tight && !halfSpent k then ({ k with marginLow := false, aged := 0 }, 0)
  else ({ k with marginLow := true }, 6)

/-- VERIFY_END (R99): `tightOk` says whether a margin read matches too. The digest area DIG and the bank's bytes are read here,
when the VERIFY ends: R99 does not say when (DESIGN CHOICE, log entry 62). -/
def execVerifyEnd (d : Fin 4) (n : Fin 256) (tightOk : Bool) (s : State) : Host.Outcome State Fault Refusal :=
  .next (match (dome s d n).cmd with
    | none => s
    | some u =>
      if (dome s d n).verifying then
        let b := bit (wordAt u.w 0) 27
        match rdVault s d (vAddr (wordAt u.w 2)) 32 (domPort n) with
        | (none, t) => t
        | (some dg, t) =>
          let r := verifyResult (bankAt t d n b) (decide (digest32 (bankBytes t d n b) = dg)) (bit (wordAt u.w 0) 26) tightOk
          let t1 := putBank t d n b r.1
          domDone (setDome t1 d n { dome t1 d n with verifying := false }) d n r.2
      else s)

/-! ### Retention (R104) -/

/-- How fast the account runs in the temperature band of a sample, in quarter degrees: the figures of Table 4-8 as fractions
of the first; above the last band as in it (DESIGN CHOICE, log entry 52). -/
def bandWeight (t : Int) : Nat := if t ≤ 220 then 1 else if t ≤ 340 then 2 else if t ≤ 420 then 10 else 40

def holdsWeights (k : Bank) : Bool := decide (k.st = .standby) || decide (k.st = .active)

/-- A bank after one more sample of its die's temperature. -/
def bankAge (w : Nat) (k : Bank) : Bank := if holdsWeights k then { k with aged := k.aged + w } else k

def domeAge (w : Nat) (v : Dome) : Dome := { v with b0 := bankAge w v.b0, b1 := bankAge w v.b1 }

/-- A bank whose account is spent, so that its cells need not hold their weights any more. -/
def bankSpent (k : Bank) : Bool := holdsWeights k && decide (k.aged > retention)

/-- The cells of a Dome's spent banks, as they now are: free values, and in every other place what was there. -/
def decayCells (free : Nat) (m : Mem) (n : Nat) (v : Dome) : Mem :=
  let gone := fun (a : Nat) => (bankSpent v.b0 && decide (a / bankSize = 2 * n)) || (bankSpent v.b1 && decide (a / bankSize = 2 * n + 1))
  if bankSpent v.b0 || bankSpent v.b1 then
    ((Config.decayedBytes free).filter (fun c => gone c.1)).foldl (fun q c => memWrite 0 q c.1 c.2) (m.filter (fun c => !gone c.1))
  else m

/-- A die after one more sample: every account has run on, and spent banks have lost their cells. -/
def dieAge (free w : Nat) (c : CDie) : CDie :=
  let ds := c.domes.map (fun e => (e.1, domeAge w e.2))
  { c with domes := ds, domeMem := ds.foldl (fun m e => decayCells (free + e.1) m e.1 e.2) c.domeMem }

/-- The accounts of every die after the samples of all sensors: a die's temperature is its hottest one. -/
def agePackage (s : State) (xs : List (BitVec 12)) : State :=
  let w := fun (d : Nat) => bandWeight (((countFrom (8 * d) 8).map (fun i => (xs.getD i 0).toInt)).foldl max (-2048))
  [0, 1, 2, 3].foldl (fun t d => setCd t d (dieAge (s.free + 256 * d) (w d) (cd t d))) { s with free := s.free + 1024 }

/-! ### SWAP (R98) -/

/-- What a SWAP comes to: it waits (none), is refused (some none), or makes a bank ACTIVE. -/
def swapTo (v : Dome) : Option (Option Bool) :=
  match activeBank v with
  | some a =>
    let o := domBank v (!a)
    if bankBusy o then none else if o.st = .standby then some (some (!a)) else some none
  | none =>
    if bankBusy v.b0 || bankBusy v.b1 then none
    else match decide (v.b0.st = .standby), decide (v.b1.st = .standby) with
      | true, true => some (some v.sel)
      | true, false => some (some false)
      | false, true => some (some true)
      | false, false => some none

/-- Bank b made ACTIVE and the other, if it was, STANDBY. -/
def makeActive (v : Dome) (b : Bool) : Dome :=
  let o := domBank v (!b)
  let v1 := setDomBank v (!b) (if o.st = .active then { o with st := .standby } else o)
  setDomBank v1 b { domBank v1 b with st := .active }

/-- A SWAP acts, is refused or waits. -/
def swapStart (s : State) (d : Fin 4) (n : Fin 256) (u : UnitCmd) : State :=
  let v := dome s d n
  match swapTo v with
  | none => setDome s d n { v with deferred := true }
  | some none => domDone (setDome s d n { v with deferred := false }) d n 3
  | some (some b) =>
    let v1 := { makeActive v b with deferred := false }
    domDone (setDome s d n (if bit (wordAt u.w 0) 27 then { v1 with sel := b } else v1)) d n 0

/-- SWAP (R98). -/
def execSwap (d : Fin 4) (n : Fin 256) (s : State) : Host.Outcome State Fault Refusal :=
  .next (domRun s d n 4 (fun u =>
    if masksOk [0xF800_0000, 0, 0, 0, 0, mAll, 0, 0] u.w then swapStart s d n u else domDone s d n 1))

/-- DOME_DEFERRED_RESUME (R97): the SWAP or VERIFY that waited is tried again. -/
def execDomeDeferredResume (d : Fin 4) (n : Fin 256) (s : State) : Host.Outcome State Fault Refusal :=
  .next (match (dome s d n).cmd with
    | none => s
    | some u =>
      if (dome s d n).deferred then (if cmdOpc u = 4 then swapStart s d n u else verifyStart s d n u) else s)

end Sys2Proof.Machine
end

