-- ==== Sys2Proof/Machine/HostReq.lean ====
section
/-! DEFINITION. The host transaction engine: taking frames, sessions and the requests on Bells and queues (13 R309-R315). -/

namespace Sys2Proof.Machine

/-! ### Frames that come in (R302, R310) -/

def hOPEN : Nat := 1
def hCLOSE : Nat := 2
def hPING : Nat := 3

/-- Payload bytes that follow a header: a request to read names bytes and carries none. -/
def frCarried (f : Frame) : Nat := if frFT f = 1 ∧ frKind f = hRD then 0 else frLen f

/-- The frame that bytes begin with; its payload may be cut short. -/
def frameOf (bs : List Byte) : Frame :=
  let f : Frame := ⟨toWords 8 bs, []⟩
  { f with data := (bs.drop 32).take (frCarried f) }

/-- LEN that a kind allows (Table 13-5; 10 R236 asks 1 of an RD alone); none for a kind that is not listed. -/
def lenOk (kind len : Nat) : Bool :=
  if kind = hRD then decide (1 ≤ len) && decide (len ≤ 4096)
  else if kind = hWR then decide (len ≤ 4096)
  else if kind = hQPUSH then decide (len = 32)
  else decide (kind ∈ [hOPEN, hCLOSE, hPING, hBADD, hBWAIT, hQPOP, hWUPD]) && decide (len = 0)

/-- The limits that a register-block region sets for RD and WR (R311). -/
def regLimits (f : Frame) : Bool :=
  if decide (frKind f = hRD ∨ frKind f = hWR) && decide (addrDie (frAddr f) ≤ 5) && regOff (addrOff (frAddr f)) then
    decide (frAddr f % 4 = 0) && decide (frLen f % 4 = 0) && (decide (frKind f = hWR) || decide (frLen f ≤ 32))
  else true

/-- A frame with the right CRC is a request (R310, log entry 36). -/
def frameOk (f : Frame) : Bool :=
  decide (frFT f = 1) && !bit (wordAt f.h 0) 13 && decide (wordAt f.h 5 = 0) && decide (wordAt f.h 6 = 0)
    && decide (f.data.length = frCarried f) && lenOk (frKind f) (frLen f) && regLimits f
    && (!frTry f || decide (frKind f ∈ [hBWAIT, hQPUSH, hQPOP]))
    && (!frDl f || decide (frTmo f ≠ 0))
    && (decide (frKind f ≠ hOPEN) || decide ((frOperand f).toNat < 2))

/-- Frames reach the engine in these states (Table 13-12). -/
def engineOn (s : State) : Bool := decide (s.mstate = .boot) || decide (s.mstate = .run) || decide (s.mstate = .halt)

/-- The bytes of a frame come to the engine: a wrong CRC discards it, a frame that breaks R310 is answered BADFRAME, any
other waits for its turn. -/
def intake (s : State) (ep : HostEp) (bs : List Byte) : State :=
  let f := frameOf bs
  if bs.length < 32 ∨ frCrc f ≠ wordAt f.h 7 then { s with host := { s.host with crcerr := satAdd s.host.crcerr 1 } }
  else if frameOk f then { s with host := { s.host with inbox := s.host.inbox ++ [⟨ep, f, s.tb⟩] } }
  else reply s ep f hsBADFRAME []

/-! ### Receive buffers of the MACs (R304, log entry 33) -/

/-- Bytes of frames in the receive buffer of MAC m that the engine has not taken. -/
def macFill (s : State) (m : Nat) : Nat :=
  s.host.inbox.foldl (fun k e => match e.ep with
    | .eth j _ _ => if j = m then k + 32 + e.f.data.length else k
    | .pcie => k) 0

def macBuffer : Nat := 192 * 1024

/-- PAUSE sent and withdrawn as the free space of a MAC falls and rises. -/
def pauseCheck (s : State) (m : Nat) : State :=
  let v := mac s m
  let room := macBuffer - macFill s m
  if bit v.liveCfg 16 && !v.pauseSent && decide (room < 48 * 1024) then
    output (setMac s m { v with pauseSent := true }) (.pause m 0xFFFF)
  else if v.pauseSent && decide (room ≥ 96 * 1024) then output (setMac s m { v with pauseSent := false }) (.pause m 0)
  else s

/-! ### Taking a request (R312-R315) -/

/-- A request of H that is not answered has been taken by its target: a die of this package holds it, or another chip, which H does not
see, has been sent one that may be held there (R312; DESIGN CHOICE, log entry 36). -/
def takenThere (s : State) (o : Outst) : Bool :=
  let a := txnAddr o.txn
  if addrChip a = ownChip s then
    decide (addrDie a < 4) && o.sent
      && decide (Origin.remote (3 * addrDie a) o.ch o.tid (wordAt o.txn.hdr 1) a ∈ heldOrigins (cd s (addrDie a)))
  else o.sent && decide (txnKind o.txn ∈ [kBWAIT, kQPUSH, kQPOP])

/-- A request of session n on another die or chip that its target has not taken yet (R312). -/
def farPending (s : State) (n : Nat) : Bool :=
  (allAsks s).any (fun x => match x.2.who with
    | .host k _ => decide (k = n) && !takenThere s x.2
    | _ => false)

/-- The deadline of a request has passed (R312). -/
def pastDeadline (s : State) (f : Frame) (arrived : Time) : Bool := frDl f && decide (since s arrived ≥ frTmo f * 1000)

/-- The state of the machine answers a request with NOTRUN (R314). -/
def notRun (s : State) (f : Frame) : Bool :=
  decide (s.mstate = .boot) || (decide (s.mstate = .halt) && decide (frKind f ≠ hRD) && decide (frKind f ≠ hWR))

/-- A request that R314 executes, if its deadline lets it: its session is open by its endpoint, it is no duplicate, and its session has
room for it. -/
def freshReq (s : State) (e : InFrame) : Bool :=
  let v := session s (frSess e.f)
  decide (frKind e.f ∉ [hPING, hOPEN, hCLOSE]) && !notRun s e.f && decide (v.owner = some e.ep)
    && v.outst.all (fun o => decide (o.reqid ≠ frReqid e.f)) && v.cache.all (fun c => decide (frReqid c.1 ≠ frReqid e.f))
    && decide (v.outst.length < 64)

/-- A request that its session executes waits until the target of the previous one has taken that; what the engine answers by itself
does not (R312 to R314). -/
def mustWait (s : State) (e : InFrame) : Bool := freshReq s e && !pastDeadline s e.f e.at_ && farPending s (frSess e.f)

/-- The first frame of a kind that no earlier frame of its session stands before and that need not wait for a target; a session that is
closing takes none but PING. The frames passed over come first in `seen`. -/
def pickFrame (s : State) (kind : Nat) : List InFrame → List InFrame → Option (InFrame × List InFrame)
  | [], _ => none
  | e :: es, seen =>
    let n := frSess e.f
    if decide (frKind e.f = kind) && seen.all (fun x => decide (frSess x.f ≠ n))
        && ((session s n).closing.isNone && !mustWait s e || decide (kind = hPING)) then
      some (e, seen ++ es)
    else pickFrame s kind es (seen ++ [e])

def countDup (s : State) : State := { s with host := { s.host with dup := satAdd s.host.dup 1 } }

/-- The cached completion sent again: it echoes its own request. -/
def replyCached (s : State) (ep : HostEp) (n : Nat) (c : Frame × Byte × List Byte) : State :=
  macFlush (sendTo s ep n (completion s c.1 c.2.1.toNat c.2.2) none)

/-- A request that its deadline ends before it is executed: TIMEOUT, kept in the cache as any completion of a recorded kind (R312,
R314). -/
def timeoutReq (s : State) (e : InFrame) : State :=
  let n := frSess e.f
  let v := session s n
  let cache := if frRecorded e.f then cacheInsert v.cache ({ e.f with data := [] }, BitVec.ofNat 8 stTIMEOUT, []) else v.cache
  reply (setSession s n { v with cache := cache }) e.ep e.f stTIMEOUT []

/-- take_request of R314 for a kind other than PING, OPEN and CLOSE. -/
def takeRequest (s : State) (e : InFrame) (act : State → State) : State :=
  let ep := e.ep
  let f := e.f
  let n := frSess f
  let v := session s n
  if notRun s f then reply s ep f hsNOTRUN []
  else if v.owner = none then reply s ep f hsNOSESSION []
  else if v.owner ≠ some ep then reply s ep f hsINUSE []
  else if v.outst.any (fun o => decide (o.reqid = frReqid f)) then
    countDup (setSession s n { v with
      outst := v.outst.map (fun o => if o.reqid = frReqid f then { o with dups := o.dups + 1 } else o) })
  else match v.cache.find? (fun c => decide (frReqid c.1 = frReqid f)) with
    | some c => replyCached (countDup s) ep n c
    | none =>
      if v.outst.length ≥ 64 then
        reply { s with host := { s.host with busy := satAdd s.host.busy 1 } } ep f hsBUSY []
      else if pastDeadline s f e.at_ then timeoutReq s e
      else act (setSession s n { v with outst := v.outst ++ [{ reqid := frReqid f, f := f, arrived := e.at_, dups := 0, cancel := 0 }] })

/-- The row of a request kind: the next frame of the kind leaves the engine's list and acts. -/
def hostRow (s : State) (kind : Nat) (act : State → InFrame → State) : State :=
  if engineOn s then
    match pickFrame s kind s.host.inbox [] with
    | none => s
    | some (e, rest) =>
      let s1 := act { s with host := { s.host with inbox := rest } } e
      pauseCheck (pauseCheck s1 0) 1
  else s

/-- A request that has been performed or held. -/
def hostDone (n : Nat) (reqid : Word) (r : Reply) : State :=
  match r with
  | (some (st, data), s) => hostComplete s n reqid st data
  | (none, s) => s

/-! ### Sessions (R313, R327, R328) -/

/-- PCI_SESS_EN lets a transport open a session. -/
def sessAllowed (s : State) (ep : HostEp) (n : Nat) : Bool :=
  match ep with
  | .pcie => bit s.host.sessEn n
  | .eth _ _ _ => bit s.host.sessEn (16 + n)

/-- The completion-ring registers come into force as a session opens (R323). -/
def ringsLive (v : Session) : Session :=
  { v with liveBase := v.cqBase, liveImod := v.cqImod, liveLsize := v.cqLsize, liveWb := v.cqWb }

/-- OPEN. One that PCI_SESS_EN does not allow answers NOSESSION, a status that 13 R313 does not name, and a completion ring goes on from
the tail that it had (13 R321 is silent; DESIGN CHOICE, log entry 36). -/
def openReq (s : State) (e : InFrame) : State :=
  let ep := e.ep
  let f := e.f
  let n := frSess f
  let v := session s n
  if v.owner ≠ none ∧ v.owner ≠ some ep then reply s ep f hsINUSE []
  else if v.outst ≠ [] then reply s ep f hsBUSY []
  else if !sessAllowed s ep n then reply s ep f hsNOSESSION []
  else
    let s1 := setSession s n { ringsLive v with
      owner := some ep, sub := bit (frOperand f) 0, cache := [], evseq := 0, hbseq := 0 }
    settleHost (reply (rewindHost s1 (unsentTo s n)) ep f stOK [])

/-- A request cancelled (R240) by `op`; a WUPD only while its hand-over is pushed, or waits at the engine to be pushed again. -/
def cancelReq (op : State → Origin → State) (s : State) (n : Nat) (o : HostReq) : State :=
  if o.stalled then hostComplete s n o.reqid stCANCELLED []
  else if frKind o.f = hWUPD then
    (if !s.host.wupdPush ∨ s.host.wupds.head? ≠ some (n, o.reqid) then s
     else if s.host.wupdAsk then op s (.wupd n o.reqid)
     else wuEnd s n o.reqid stCANCELLED)
  else op s (.host n o.reqid)

/-- What the end of a session cancels: its held requests, each a BWAIT, a QPUSH, a QPOP, or the push of a bundle. An RD, WR or BADD
completes, and a request that has not left yet goes to its target first (R240, R313; DEDUCED, log entry 36). -/
def closeCancels (o : HostReq) : Bool := decide (frKind o.f ∈ [hBWAIT, hQPUSH, hQPOP, hWUPD])

/-- The requests of a session that its end cancels, cancelled. -/
def closeReqs (s : State) (n : Nat) : List HostReq → State
  | [] => s
  | o :: os =>
    closeReqs (if closeCancels o then cancelReq recallOp s n o else s) n os

/-- A session begins to close; `c` is the CLOSE to answer, or none where no completion is written. -/
def startClose (s : State) (n : Nat) (c : Option Frame) : State :=
  let v := session s n
  let s1 := setSession s n { v with
    closing := some c, outst := v.outst.map (fun o => if closeCancels o && decide (o.cancel = 0) then { o with cancel := 2 } else o) }
  closeIfDone (closeReqs s1 n v.outst) n

/-- CLOSE. -/
def closeReq (s : State) (e : InFrame) : State :=
  let ep := e.ep
  let f := e.f
  let n := frSess f
  let v := session s n
  if v.owner = none then reply s ep f hsNOSESSION []
  else if v.owner ≠ some ep then reply s ep f hsINUSE []
  else settleHost (startClose (setSession s n { v with closeAt := e.at_ }) n (some f))

/-- OPEN, CLOSE: refused in BOOT (R314), and past their deadline (R312). -/
def sessionRow (s : State) (e : InFrame) (act : State → InFrame → State) : State :=
  if s.mstate = .boot then reply s e.ep e.f hsNOTRUN []
  else if pastDeadline s e.f e.at_ then reply s e.ep e.f stTIMEOUT []
  else act s e

/-- OPEN (R313). -/
def execOpenSession (s : State) : Host.Outcome State Fault Refusal :=
  .next (hostRow s hOPEN (fun t e => sessionRow t e openReq))

/-- CLOSE (R313). -/
def execCloseSession (s : State) : Host.Outcome State Fault Refusal :=
  .next (hostRow s hCLOSE (fun t e => sessionRow t e closeReq))

/-- PING (R313). -/
def execPing (s : State) : Host.Outcome State Fault Refusal :=
  .next (hostRow s hPING (fun t e => reply t e.ep e.f stOK []))

/-! ### Bells and queues (R311) -/

/-- The name of the Bell or queue whose first register an address is. -/
def nameAt (s : State) (a base stride count : Nat) : Option Nat :=
  let off := addrOff a
  if chipPresent s (addrChip a) && decide (addrDie a < 4) && decide (base ≤ off) && decide ((off - base) % stride = 0)
      && decide ((off - base) / stride < count) then
    some (addrChip a * 2 ^ 13 + addrDie a * 2 ^ 9 + (off - base) / stride)
  else none

def bellAt (s : State) (a : Nat) : Option Nat := nameAt s a 0x500000000 0x100 256
def queueAt (s : State) (a : Nat) : Option Nat := nameAt s a 0x600000000 0x200 128

/-- The engine as a sender. -/
def hostSender (f : Frame) : Sender :=
  { die := 4, src := 0x401, tryB := frTry f, who := .host (frSess f) (frReqid f) }

/-- A request on a Bell or a queue: an address that names none completes with ADDR. -/
def namedRow (s : State) (kind : Nat) (at_ : State → Nat → Option Nat) (op : State → Frame → Nat → Reply) : State :=
  hostRow s kind (fun t e => takeRequest t e (fun u =>
    hostDone (frSess e.f) (frReqid e.f) (match at_ u (frAddr e.f) with
      | none => repSt u stADDR
      | some w => op u e.f w)))

/-- HOST_BADD. -/
def execHostBadd (s : State) : Host.Outcome State Fault Refusal :=
  .next (namedRow s hBADD bellAt (fun t f w => sendBadd t (hostSender f) w (frOperand f)))

/-- HOST_BWAIT. -/
def execHostBwait (s : State) : Host.Outcome State Fault Refusal :=
  .next (namedRow s hBWAIT bellAt (fun t f w => sendBwait t (hostSender f) w (frOperand f)))

/-- HOST_QPUSH. -/
def execHostQpush (s : State) : Host.Outcome State Fault Refusal :=
  .next (namedRow s hQPUSH queueAt (fun t f w => sendQpush t (hostSender f) w (hdrSource t skEngine 4 euHost) f.data))

/-- HOST_QPOP. -/
def execHostQpop (s : State) : Host.Outcome State Fault Refusal :=
  .next (namedRow s hQPOP queueAt (fun t f w => sendQpop t (hostSender f) w))

/-! ### Deadlines (R312) -/

/-- The deadline of a CLOSE that waits: it is withdrawn, and its session stays open (DEDUCED, log entry 36). -/
def closeDeadline (s : State) (n : Nat) (reqid : Word) : State :=
  let v := session s n
  match v.owner, v.closing with
  | some ep, some (some f) =>
    if frReqid f = reqid ∧ pastDeadline s f v.closeAt then
      settleHost (reply (setSession s n { v with closing := none }) ep f stTIMEOUT [])
    else s
  | _, _ => s

/-- A request that the engine has not taken by its deadline is cancelled there. -/
def inboxDeadline (s : State) (n : Nat) (reqid : Word) : State :=
  match s.host.inbox.find? (fun e => decide (frSess e.f = n) && decide (frReqid e.f = reqid) && pastDeadline s e.f e.at_) with
  | none => s
  | some e =>
    let s0 := { s with host := { s.host with inbox := s.host.inbox.erase e } }
    let s1 := if freshReq s e then timeoutReq s0 e else reply s0 e.ep e.f stTIMEOUT []
    pauseCheck (pauseCheck s1 0) 1

/-- HOST_DEADLINE: TMO µs have passed since the arrival of a request with DL = 1, which is cancelled. -/
def execHostDeadline (n : Fin 16) (reqid : BitVec 32) (s : State) : Host.Outcome State Fault Refusal :=
  let v := session s n
  .next (match v.outst.find? (fun o => decide (o.reqid = reqid)) with
    | none => inboxDeadline (closeDeadline s n reqid) n reqid
    | some o =>
      if pastDeadline s o.f o.arrived && decide (o.cancel = 0) then
        let s1 := setSession s n { v with
          outst := v.outst.map (fun x => if x.reqid = reqid then { x with cancel := 1 } else x) }
        if frKind o.f = hWUPD ∧ (n.val, reqid) ∈ s1.host.wupds.drop 1 then
          hostComplete { s1 with host := { s1.host with wupds := s1.host.wupds.filter (fun w => decide (w ≠ (n.val, reqid))) } }
            n reqid stTIMEOUT []
        else cancelReq cancelOp s1 n o
      else s)

end Sys2Proof.Machine
end

