-- ==== Sys2Proof/Machine/Pci.lean ====
section
/-! DEFINITION. The PCI Express endpoint and the registers of the transaction engine (13 R301, R316, R317, R320-R323,
R326, R327). -/

namespace Sys2Proof.Machine

/-! ### Submission rings (R320) -/

def ringSize : Nat := 0x10000

/-- Bytes that the host writes into ring s. -/
def ringWrite (m : Mem) (n : Nat) : List (Nat × Byte) → Mem
  | [] => m
  | (o, b) :: r => ringWrite (memWrite 0 m (n * ringSize + o % ringSize) b) n r

/-- 64-byte units that a frame takes. -/
def frameUnits (bytes : Nat) : Nat := (bytes + 63) / 64

/-- Frames consumed from the head up to the tail, both in units of 64 bytes; at most k headers are read. -/
def consume : Nat → State → Nat → Nat → State
  | 0, s, _, _ => s
  | k + 1, s, n, tail =>
    let v := session s n
    let head := v.sqHead.toNat
    if head = tail then s
    else
      let stop := if head < tail then tail else ringSize / 64
      let bs := memBytes 0 s.host.rings (n * ringSize + head * 64) ((stop - head) * 64)
      let f := frameOf bs
      if frFT f = 0 then consume k (setSession s n { v with sqHead := 0 }) n tail
      else
        let next := min (head + frameUnits (32 + frCarried f)) stop
        let s1 := setSession s n { v with sqHead := BitVec.ofNat 10 (next % (ringSize / 64)) }
        consume k (intake s1 .pcie (bs.take (32 + frCarried f))) n tail

/-- The endpoint works and its rings take writes (Table 13-12). -/
def ringsOn (s : State) : Bool := engineOn s && !s.host.perst

/-- PCI_SQ_TAIL written. -/
def sqTailSet (s : State) (n : Nat) (v : Word) : State :=
  if !ringsOn s then s
  else if v.toNat % 64 ≠ 0 then { s with host := { s.host with baddb := true } }
  else
    let t := field v 15 6
    consume 2048 (setSession s n { session s n with sqTail := BitVec.ofNat 10 t }) n t

/-- PCI_SQ_TAIL_WRITE (R320). -/
def execPciSqTailWrite (n : Fin 16) (tail : BitVec 32) (wrote : List (Nat × BitVec 8)) (s : State) :
    Host.Outcome State Fault Refusal :=
  .next (if ringsOn s then
      sqTailSet { s with host := { s.host with rings := ringWrite s.host.rings n wrote } } n tail
    else s)

/-! ### MSI-X (R321) -/

/-- Vector n of a session signalled, at most once per IMOD microseconds, and never where its transport is Ethernet. -/
def msixSession (s : State) (n : Nat) : State :=
  let v := session s n
  if onEthernet v then s
  else if v.imodRun then setSession s n { v with msixDue := true }
  else msixSend (setSession s n { v with imodRun := decide (v.liveImod ≠ 0) }) n

/-- MSIX_IMOD_EXPIRY (R321): what became due is signalled and a new interval starts, unless the session's transport is Ethernet
by now. -/
def execMsixImodExpiry (n : Fin 16) (s : State) : Host.Outcome State Fault Refusal :=
  let v := session s n
  .next (if v.imodRun then
      (if v.msixDue && !onEthernet v then msixSend (setSession s n { v with msixDue := false }) n
       else setSession s n { v with imodRun := false, msixDue := false })
    else s)

/-- PCI_MSIX_SW written. -/
def msixSwSet (s : State) (v : Word) : State :=
  let k := field v 5 0
  if 17 ≤ k ∧ s.mstate ≠ .reset ∧ s.mstate ≠ .safe then msixSend s k else s

/-- PCI_MSIX_SW_WRITE (R321). -/
def execPciMsixSwWrite (v : BitVec 32) (s : State) : Host.Outcome State Fault Refusal := .next (msixSwSet s v)

/-! ### Completion rings (R321) -/

/-- Units of a completion ring; none outside the sizes 16-24. -/
def cqUnits (v : Session) : Nat :=
  if 16 ≤ v.liveLsize.toNat ∧ v.liveLsize.toNat ≤ 24 then 2 ^ (v.liveLsize.toNat - 6) else 0

/-- Units written and not consumed. -/
def cqUsed (v : Session) : Nat :=
  (v.cqTail + cqUnits v - v.cqHead.toNat % cqUnits v) % cqUnits v

/-- The host address of unit k of a completion ring. -/
def cqAddr (v : Session) (k : Nat) : BitVec 64 := v.liveBase + BitVec.ofNat 64 (k * 64)

/-- A frame put into the ring: a pad first where it would pass the end. None while the host must consume. -/
def cqPlace (s : State) (n : Nat) (f : Frame) : Option State :=
  let v := session s n
  let u := cqUnits v
  let k := frameUnits (32 + f.data.length)
  let tail := v.cqTail % u
  let wrap := decide (u < tail + k)
  let need := if wrap then (u - tail) + k else k
  if u = 0 ∨ u ≤ cqUsed v + need then none
  else
    let at_ := if wrap then 0 else tail
    let s1 := if wrap then output s (.cqPad n (cqAddr v tail)) else s
    let s2 := output s1 (.cqFrame n (cqAddr v at_) (sealFrame s f))
    let t := (at_ + k) % u
    let s3 := setSession s2 n { session s2 n with cqTail := t }
    some (output s3 (.cqTail n v.liveWb (t * 64)))

/-- The first frame of a list that may be sent now, and the others. -/
def takeFrame (s : State) : List OutFrame → Option (OutFrame × List OutFrame)
  | [] => none
  | o :: os => if maySend s o.f then some (o, os) else (takeFrame s os).map (fun r => (r.1, o :: r.2))

/-- CQ_FRAME_WRITE (R321). -/
def execCqFrameWrite (n : Fin 16) (s : State) : Host.Outcome State Fault Refusal :=
  .next (if ringsOn s then
      match takeFrame s (session s n).toSend with
      | none => s
      | some (o, rest) =>
        let s1 := setSession s n { session s n with toSend := rest }
        match cqPlace s1 n o.f with
        | none => s
        | some s2 => settleHost (msixSession s2 n)
    else s)

/-- PCI_CQ_HEAD written: a field that stores, whoever writes it (00 R7). -/
def cqHeadSet (s : State) (n : Nat) (v : Word) : State :=
  if regsUp s then setSession s n { session s n with cqHead := BitVec.ofNat 18 (field v 23 6) } else s

/-- PCI_CQ_HEAD_WRITE (R321): the host's write, through an endpoint that works. -/
def execPciCqHeadWrite (n : Fin 16) (v : BitVec 32) (s : State) : Host.Outcome State Fault Refusal :=
  .next (if ringsOn s then cqHeadSet s n v else s)

/-! ### Heartbeats and events (R316, R317) -/

/-- Machine state as PCI_MSTATE codes it. -/
def mstateCode (m : MState) : Nat :=
  match m with
  | .reset => 1
  | .boot => 1
  | .run => 2
  | .halt => 3
  | .safe => 4

def nldIsoWord (s : State) : Word := w32 (s.nld.isoChips.toNat * 65536 + s.nld.isoDies.toNat)

/-- Payload of a heartbeat. -/
def hbBytes (s : State) : List Byte :=
  ofWords [loWord s.tb, hiWord s.tb, w32 (8 * b2n (!s.host.hbFresh) + mstateCode s.mstate), s.host.hbWord, nldIsoWord s,
    0, 0, 0]

/-- HEARTBEAT (R316): a period of PCI_HB_CTL has ended. -/
def execHeartbeat (s : State) : Host.Outcome State Fault Refusal :=
  .next (if decide (s.host.hbCtl ≠ 0) && (decide (s.mstate = .run) || decide (s.mstate = .halt)) then
      let s1 := sendAll s 4 0 (hbBytes s) none s.host.sessions
      macFlush { s1 with host := { s1.host with hbFresh := false } }
    else s)

/-- Die and queue of PCI_EVQ and PCI_WUPD_Q. -/
def hqEn (w : Word) : Bool := bit w 31
def hqDie (w : Word) : Nat := field w 10 9
def hqQueue (w : Word) : Nat := field w 6 0

/-- No event waits to be sent to a session that takes them. -/
def eventsSent (s : State) : Bool := s.host.sessions.all (fun e => !subscribed e.2 || decide (evWaiting s e.1 = 0))

/-- A pop of the event queue is under way. -/
def eventAsked (s : State) : Bool := (allAsks s).any (fun x => decide (x.2.who = .eventQueue))

/-- EVENT_QUEUE_POP (R317): the engine asks over the link for the next event, once the earlier ones have gone out; it does not wait at
an empty queue (DEDUCED, log entry 36). -/
def execEventQueuePop (s : State) : Host.Outcome State Fault Refusal :=
  let w := s.host.evq
  let d := hqDie w
  .next (if hqEn w && (decide (s.mstate = .run) || decide (s.mstate = .halt)) && hostOn s && eventsSent s && diesJoined s 4 d
        && !eventAsked s then
      (sendAsk s { kind := kQPOP, tryB := true, src := 0x401, addr := queueAddr (ownName s d (hqQueue w)) } .eventQueue).getD s
    else s)

/-! ### Reset of the endpoint (R327) -/

def isPcie (v : Session) : Bool := decide (v.owner = some .pcie)

/-- Sessions closed without a completion: those that a test picks. -/
def closeQuiet (s : State) (p : Session → Bool) : List Nat → State
  | [] => s
  | n :: ns =>
    closeQuiet (if p (session s n) then startClose s n none else s) p ns

/-- The endpoint reset: its sessions close, and what it held of them is gone. -/
def pcieReset (s : State) : State :=
  let lost := s.host.sessions.flatMap (fun e => e.2.toSend.filterMap (·.record))
  let s1 := { s with host := { s.host with
    sessions := s.host.sessions.map (fun e => (e.1, { e.2 with toSend := [], imodRun := false, msixDue := false })),
    inbox := s.host.inbox.filter (fun e => decide (e.ep ≠ .pcie)), msixTab := [], pba := 0 } }
  settleHost (rewindHost (closeQuiet s1 isPcie (upTo 16)) lost)

/-- What PCIE_PERST_N does once it is low behind its filter (R327). -/
def perstLow (s : State) : State :=
  let s1 := pcieReset s
  { s1 with host := { s1.host with perst := true } }

/-- PCIE_PERST (R327, 16 R388): PCIE_PERST_N goes low, as a level or by a pulse of some width (log entry 11). -/
def execPciePerst (s : State) : Host.Outcome State Fault Refusal :=
  .next (if s.host.perst then s else filtered .perst s perstLow)

/-- FUNCTION_LEVEL_RESET (R327). -/
def execFunctionLevelReset (s : State) : Host.Outcome State Fault Refusal :=
  .next (if s.host.perst then s else pcieReset s)

/-- PCIE_PERST_RELEASE (R326). -/
def execPciePerstRelease (s : State) : Host.Outcome State Fault Refusal :=
  .next { s with host := { s.host with perst := false } }

/-! ### Registers (Table 13-9) -/

def pciCount (s : State) (k : PciCounter) : Word :=
  match k with
  | .crcerr => s.host.crcerr
  | .dup => s.host.dup
  | .busy => s.host.busy

def pciCountClear (s : State) (k : PciCounter) : State :=
  match k with
  | .crcerr => { s with host := { s.host with crcerr := 0 } }
  | .dup => { s with host := { s.host with dup := 0 } }
  | .busy => { s with host := { s.host with busy := 0 } }

/-- PCI_COUNTER_READ (R323). -/
def execPciCounterRead (k : PciCounter) (s : State) : Host.Outcome State Fault Refusal :=
  .next (if regsUp s then pciCountClear (outRead s (pciCount s k)) k else s)

/-- PCI_SESS_STAT. -/
def sessStat (v : Session) : Word :=
  let code := match v.owner with
    | none => 0
    | some .pcie => 1
    | some (.eth _ _ _) => 2
  w32 (code * 2 ^ 30 + v.outst.length)

/-- The registers of a session's ring after a write of the one at an offset. -/
def cqRegPut (v : Session) (r : Nat) (x : Word) : Session :=
  match r with
  | 0x08 => { v with cqBase := hiWord v.cqBase ++ (x &&& 0xFFFF_F000) }
  | 0x0C => { v with cqBase := x ++ loWord v.cqBase }
  | 0x10 => { v with cqImod := x.extractLsb' 16 16, cqLsize := x.extractLsb' 0 5 }
  | 0x18 => { v with cqWb := hiWord v.cqWb ++ (x &&& 0xFFFF_FFF8) }
  | 0x1C => { v with cqWb := x ++ loWord v.cqWb }
  | _ => v

/-- Session registers after a write; the tail and the consumed offset have their own operations. While the session is open the
ring in force stays as it is until the session next opens; else the written half or field acts at once (R323). -/
def cqRegSet (v : Session) (r : Nat) (x : Word) : Session :=
  let v1 := cqRegPut v r x
  if v.owner.isSome then v1
  else match r with
    | 0x08 => { v1 with liveBase := hiWord v.liveBase ++ loWord v1.cqBase }
    | 0x0C => { v1 with liveBase := hiWord v1.cqBase ++ loWord v.liveBase }
    | 0x10 => { v1 with liveImod := v1.cqImod, liveLsize := v1.cqLsize }
    | 0x18 => { v1 with liveWb := hiWord v.liveWb ++ loWord v1.cqWb }
    | 0x1C => { v1 with liveWb := hiWord v1.cqWb ++ loWord v.liveWb }
    | _ => v1

/-- Registers of session n (offset within its 0x40 bytes), read; write-only ones read 0. -/
def cqRegGet (v : Session) (r : Nat) : Option Word :=
  match r with
  | 0x00 => some 0
  | 0x04 => some (w32 (v.sqHead.toNat * 64))
  | 0x08 => some (loWord v.cqBase)
  | 0x0C => some (hiWord v.cqBase)
  | 0x10 => some (w32 (v.cqImod.toNat * 65536 + v.cqLsize.toNat))
  | 0x14 => some (w32 (v.cqHead.toNat * 64))
  | 0x18 => some (loWord v.cqWb)
  | 0x1C => some (hiWord v.cqWb)
  | 0x20 => some (sessStat v)
  | _ => none

end Sys2Proof.Machine
end

