-- ==== Sys2Proof/Machine/Eth.lean ====
section
/-! DEFINITION. The Ethernet MACs (13 R302-R304, R324, R328). -/

namespace Sys2Proof.Machine

/-- The MACs are out of reset (Table 13-12). -/
def macOn (s : State) (m : Nat) : Bool := bit (mac s m).liveCfg 31 && engineOn s

/-! ### Receiving (R302, R304) -/

/-- Bytes of a frame on the wire. -/
def ethLen (f : EthFrame) : Nat := 14 + (if f.vlan.isSome then 4 else 0) + f.payload.length + 4

/-- The tag of a frame is acceptable: none, or with VLAN = 1 one that matches VID (log entry 33). -/
def vlanOk (v : Mac) (f : EthFrame) : Bool :=
  match f.vlan with
  | none => true
  | some k => bit v.liveCfg 12 && decide (k.toNat = field v.liveCfg 11 0)

/-- Acceptance of a frame whose FCS is right. -/
def ethAccepts (v : Mac) (f : EthFrame) : Bool :=
  decide (64 ≤ ethLen f) && decide (ethLen f ≤ 9216) && decide (f.dst = v.liveMac) && !f.dst.getLsbD 40
    && decide (f.etype = v.liveEtype) && vlanOk v f

/-- The endpoint that a frame comes from. -/
def ethEp (m : Nat) (f : EthFrame) : HostEp := .eth m f.src f.vlan

/-- A frame that found no room (R304). -/
def ethOverrun (s : State) (m : Nat) : State :=
  let v := { mac s m with ovrn := satAdd (mac s m).ovrn 1 }
  let due := match v.lastOvrn with
    | none => true
    | some t => decide (since s t ≥ 1000000000)
  if due then warn (setMac s m { v with lastOvrn := some s.tb }) (srcWord s skEngine 4 (euMac m)) 0x0070 (w32 m) v.ovrn 0
  else setMac s m v

/-- ETH_FRAME_RECEIVE (R302, R304). -/
def execEthFrameReceive (m : Fin 2) (f : EthFrame) (s : State) : Host.Outcome State Fault Refusal :=
  let v := mac s m
  .next (if macOn s m && v.link then
      (if macFill s m + f.payload.length > macBuffer then ethOverrun s m
       else if !f.fcsGood then setMac s m { v with fcserr := satAdd v.fcserr 1 }
       else if !ethAccepts v f then setMac s m { v with other := satAdd v.other 1 }
       else pauseCheck (intake (setMac s m { v with rxok := satAdd v.rxok 1 }) (ethEp m f) f.payload) m)
    else s)

/-- ETH_PAUSE_RECEIVE (R304). -/
def execEthPauseReceive (m : Fin 2) (quanta : BitVec 16) (s : State) : Host.Outcome State Fault Refusal :=
  .next (if macOn s m && bit (mac s m).liveCfg 16 then
      settleHost (setMac s m { mac s m with txHeld := decide (quanta ≠ 0) })
    else s)

/-- PAUSE_TIMER_EXPIRY (R304). -/
def execPauseTimerExpiry (m : Fin 2) (s : State) : Host.Outcome State Fault Refusal :=
  .next (settleHost (setMac s m { mac s m with txHeld := false }))

/-! ### Link (R328) -/

/-- ETH_LINK_CHANGE (R328). -/
def execEthLinkChange (m : Fin 2) (up : Bool) (speed : BitVec 3) (s : State) : Host.Outcome State Fault Refusal :=
  .next (if macOn s m then
      settleHost (setMac s m { mac s m with link := up, speed := if up then speed else (mac s m).speed })
    else s)

/-- A session held through MAC m. -/
def ofMac (m : Nat) (v : Session) : Bool :=
  match v.owner with
  | some (.eth j _ _) => decide (j = m)
  | _ => false

/-- A frame waits for a session that MAC m's link carried. -/
def forSession (s : State) (m : Nat) (e : (BitVec 48 × Option (BitVec 12)) × OutFrame) : Bool :=
  let v := session s (frSess e.2.f)
  match v.owner with
  | some (.eth j a k) => decide (j = m) && decide ((a, k) = e.1)
  | _ => false

/-- ETH_LINK_DOWN_TIMEOUT (R328): the link has been down for 100 ms. -/
def execEthLinkDownTimeout (m : Fin 2) (s : State) : Host.Outcome State Fault Refusal :=
  let v := mac s m
  .next (if engineOn s && !v.link then
      let gone := v.txq.filter (forSession s m)
      let s1 := setMac s m { v with
        txq := v.txq.filter (fun e => !forSession s m e), unsent := satAdd v.unsent gone.length }
      settleHost (rewindHost (closeQuiet s1 (ofMac m) (upTo 16)) (gone.filterMap (·.2.record)))
    else s)

/-! ### Registers (Table 13-10) -/

def mEthCfg : Word := 0xF801_1FFF

/-- ETH_CFG written: EN going from 0 to 1 puts the configuration into force. -/
def ethCfgSet (s : State) (m : Nat) (x : Word) : State :=
  let v := mac s m
  let c := x &&& mEthCfg
  if s.mstate = .reset ∨ s.mstate = .safe then s
  else if bit c 31 then
    (if bit v.cfg 31 then setMac s m { v with cfg := c }
     else setMac s m { v with cfg := c, liveCfg := c, liveMac := v.mac, liveEtype := v.etype })
  else setMac s m { v with cfg := c, liveCfg := 0, link := false, txHeld := false, pauseSent := false }

/-- ETH_ENABLE (R324). -/
def execEthEnable (m : Fin 2) (v : BitVec 32) (s : State) : Host.Outcome State Fault Refusal := .next (ethCfgSet s m v)

def mMdio : Word := 0xF3FF_FFFF

/-- ETH_MDIO written: GO = 1 starts a frame. While one runs the fields are stored, and GO reads 1 until that frame has ended
(R324; DEDUCED, log entry 33: no second frame starts). -/
def mdioSet (s : State) (m : Nat) (x : Word) : State :=
  let v := mac s m
  if s.mstate = .reset ∨ s.mstate = .safe then s
  else if bit v.mdio 31 then setMac s m { v with mdio := (x &&& mMdio) ||| 0x8000_0000 }
  else
    let s1 := setMac s m { v with mdio := x &&& mMdio, mdioFrame := x &&& mMdio }
    if bit x 31 then output s1 (.mdio m (x &&& mMdio)) else s1

/-- MDIO_FRAME (R324). -/
def execMdioFrame (m : Fin 2) (v : BitVec 32) (s : State) : Host.Outcome State Fault Refusal := .next (mdioSet s m v)

/-- The frame reads: OP 2 in clause 22, OP 2 and 3 in clause 45. -/
def mdioReads (w : Word) : Bool := if bit w 30 then decide (field w 29 28 ≥ 2) else decide (field w 29 28 = 2)

/-- MDIO_FRAME_END (R324). -/
def execMdioFrameEnd (m : Fin 2) (data : BitVec 16) (s : State) : Host.Outcome State Fault Refusal :=
  let v := mac s m
  .next (if bit v.mdio 31 then
      let w := v.mdio &&& 0x7FFF_FFFF
      setMac s m { v with mdio := if mdioReads v.mdioFrame then (w &&& 0xFFFF_0000) ||| w32 data.toNat else w }
    else s)

def ethCount (v : Mac) (k : EthCounter) : Word :=
  match k with
  | .rxok => v.rxok
  | .other => v.other
  | .fcserr => v.fcserr
  | .ovrn => v.ovrn
  | .unsent => v.unsent

def ethCountClear (v : Mac) (k : EthCounter) : Mac :=
  match k with
  | .rxok => { v with rxok := 0 }
  | .other => { v with other := 0 }
  | .fcserr => { v with fcserr := 0 }
  | .ovrn => { v with ovrn := 0 }
  | .unsent => { v with unsent := 0 }

/-- ETH_COUNTER_READ (R324). -/
def execEthCounterRead (m : Fin 2) (k : EthCounter) (s : State) : Host.Outcome State Fault Refusal :=
  .next (if regsUp s then setMac (outRead s (ethCount (mac s m) k)) m (ethCountClear (mac s m) k) else s)

end Sys2Proof.Machine
end

