-- ==== Sys2Proof/Machine/Fabric.lean ====
section
/-! DEFINITION. Reads of the time base and the mesh stall monitors (02 R49, R50; 10 R250; 13 R323). -/

namespace Sys2Proof.Machine

/-- The number of a requester that has shadows. -/
def reqCode (a : Requester) : Nat :=
  match a with
  | .spire d n => d.val * 32 + n.val
  | .boot => 128
  | .host => 129

/-- The die a requester sends from. -/
def reqDie (a : Requester) : Nat :=
  match a with
  | .spire d _ => d
  | _ => 4

/-- The numbers of a requester's shadows: that of SYS_TB_HI, one whichever die it reads (02 R49), and that of NLD_TOFS_HI. -/
def shadowTb (a : Requester) : Nat := reqCode a * 16
def shadowTofs (a : Requester) : Nat := reqCode a * 16 + 8

def setShadow (s : State) (k : Nat) (v : Word) : State := { s with shadows := tabSet s.shadows k v }

/-- SYS_TB_LO read: the low word, the high word captured; of a die whose VCORE has moved too fast, unspecified ones (16 R376). -/
def tbLoRead (s : State) (a : Requester) (d : Nat) : Word × State :=
  let lo := dieSays s d (loWord s.tb)
  let hi := dieSays lo.2 d (hiWord s.tb)
  (lo.1, setShadow hi.2 (shadowTb a) hi.1)

/-- NLD_TOFS_LO read. -/
def tofsLoRead (s : State) (a : Requester) : Word × State := (loWord s.nld.tofs, setShadow s (shadowTofs a) (hiWord s.nld.tofs))

/-- A requester runs: a Spire in RUN, the boot sequencer in BOOT, the host transaction engine on a request that it performs (01
Table 1-10; 13 R314). -/
def reqRuns (s : State) (a : Requester) : Bool :=
  match a with
  | .spire d n => decide (s.mstate = .run) && decide ((spire s d n).st = .running)
  | .boot => decide (s.mstate = .boot)
  | .host => decide (s.mstate = .run ∨ s.mstate = .halt)

/-- Whether a requester's read reaches die d. -/
def reqReaches (s : State) (a : Requester) (d : Nat) : Bool := reqRuns s a && diesJoined s (reqDie a) d

/-- What a read gives, sent out. -/
def outOf (r : Word × State) : State := outRead r.2 r.1

/-- SYS_TB_LO_READ (02 R49). -/
def execSysTbLoRead (a : Requester) (d : Fin 5) (s : State) : Host.Outcome State Fault Refusal :=
  .next (if reqReaches s a d then outOf (tbLoRead s a d) else s)

/-- NLD_TOFS_LO_READ (10 R250). -/
def execNldTofsLoRead (a : Requester) (s : State) : Host.Outcome State Fault Refusal :=
  .next (if reqReaches s a 4 then outOf (tofsLoRead s a) else s)

/-- PCI_TB_LO_READ (13 R323): the engine's shadow takes the high word. -/
def execPciTbLoRead (s : State) : Host.Outcome State Fault Refusal :=
  .next (if s.mstate ≠ .reset then outRead { s with host := { s.host with tbHi := hiWord s.tb } } (loWord s.tb) else s)

/-! ### The stall monitor (02 R50) -/

/-- The LIMIT word of a STALL_LONG record (17 Table 17-4): the field as it stands. With LIMIT = 0, which acts as 1 (02
Table 2-8), that the record gives the stored 0 is the model's choice (DESIGN CHOICE, log entry 55). -/
def stallLimitOf (v : SysDie) : Word := w32 v.stallLimit.toNat

/-- The mesh input ports of Table 9-6 (09 R221): the first and the last number of each run, on a C-die and on H. -/
def portsOfC : List (Nat × Nat) :=
  [(0x0000, 0x0007), (0x0020, 0x0027), (0x0040, 0x005F), (0x0060, 0x0067), (0x0100, 0x017F), (0x0200, 0x02FF), (0x0300, 0x0302)]
def portsOfH : List (Nat × Nat) :=
  [(0x0400, 0x0402), (0x0404, 0x0405), (0x0408, 0x040B), (0x0410, 0x0413), (0x0420, 0x0420), (0x0430, 0x0433), (0x0440, 0x0444)]

/-- Whether die d has a mesh input port of this number. -/
def meshPort (d : Fin 5) (port : Nat) : Bool :=
  (if d.val = 4 then portsOfH else portsOfC).any (fun r => decide (r.1 ≤ port) && decide (port ≤ r.2))

/-- STALL_LONG (R50): one episode for a port that has none running. A number of no port names nothing that could wait (09 R221). -/
def execStallLong (d : Fin 5) (port : BitVec 16) (s : State) : Host.Outcome State Fault Refusal :=
  let v := sysDie s d
  .next (if decide (s.mstate ≠ .reset) && v.stallEn && meshPort d port.toNat && !decide (port ∈ v.episodes) then
      let s1 := setSysDie s d { v with
        stallCnt := satAdd v.stallCnt 1, stallPort := port, episodes := v.episodes ++ [port] }
      warn s1 (srcWord s1 skDie d 0) 0x0010 (w32 port.toNat) (stallLimitOf v) 0
    else s)

/-- STALL_EPISODE_END (R50). -/
def execStallEpisodeEnd (d : Fin 5) (port : BitVec 16) (s : State) : Host.Outcome State Fault Refusal :=
  let v := sysDie s d
  .next (setSysDie s d { v with episodes := v.episodes.filter (fun p => decide (p ≠ port)) })

/-- SYS_STALL_CNT_READ (R50). -/
def execSysStallCntRead (d : Fin 5) (s : State) : Host.Outcome State Fault Refusal :=
  let v := sysDie s d
  .next (if regsUp s then setSysDie (outRead s v.stallCnt) d { v with stallCnt := 0 } else s)

end Sys2Proof.Machine
end

