-- ==== Sys2Proof/Machine/Power.lean ====
section
/-! DEFINITION. Supplies, reset pins and the governor (chapter 16; 02 R46-R53 for the time base's clock). -/

namespace Sys2Proof.Machine

/-! ### Supplies and RST_N (R371-R376) -/

/-- POWER_UP (R372, R390): the supplies come up, for the first time or again after they have fallen; the part is in RESET
and POR is the only cause. Supplies that are good do not come up. -/
def execPowerUp (s : State) : Host.Outcome State Fault Refusal :=
  .next (if s.power.powered && s.power.good then s
    else
      let s1 := enterReset s true 0
      { s1 with power := { s1.power with powered := true, good := false, low := [] } })

/-- POWER_GOOD (R373): 1 ms above every threshold; with RST_N high RESET is left. `test` is what the TEST balls read. -/
def execPowerGood (test : BitVec 4) (s : State) : Host.Outcome State Fault Refusal :=
  .next (if s.power.powered && !s.power.good then
      leaveReset { s with power := { s.power with good := true, low := [], test := test } }
    else s)

/-- The cause bit of a rail in SYS_RSTCAUSE (Table 16-6). -/
def railCause (r : Rail) : BitVec 14 :=
  match r with
  | .vcore n => BitVec.ofNat 14 (2 ^ (8 + n.val))
  | .vsram => 0x1000
  | _ => 0x2000

/-- BROWN_OUT (R375, R390; 17 R407): RESET with the rail's cause; VSRAM counts as a power-on too. -/
def execBrownOut (r : Rail) (s : State) : Host.Outcome State Fault Refusal :=
  .next (if s.power.powered then
      let low := if r ∈ s.power.low then s.power.low else s.power.low ++ [r]
      enterReset { s with power := { s.power with good := false, low := low } } (decide (r = .vsram)) (railCause r)
    else s)

/-- The part in RESET because of its pin. -/
def pinReset (s : State) : State :=
  enterReset { s with power := { s.power with rstN := false } } false rcPIN

/-- RST_N_LOW (R373, R388): a low pulse that passes the filter resets, one that does not is ignored, and one of a width that Table 16-4
leaves open does either. -/
def execRstNLow (ns : Nat) (s : State) : Host.Outcome State Fault Refusal :=
  .next (if !s.power.rstN then s else throughFilter .rstN ns s pinReset)

/-- RST_N_HIGH (R373): the pin rises; with power-good RESET is left. -/
def execRstNHigh (test : BitVec 4) (s : State) : Host.Outcome State Fault Refusal :=
  .next (if s.power.rstN then s else leaveReset { s with power := { s.power with rstN := true, test := test } })

/-- The link endpoints of die d with anything in them; `setEndp` and `setParty` draw other contents at each later change. -/
def slewLinks (n : Nld) (d k : Nat) : Nld :=
  { n with
    eps := [0, 1, 2].foldl (fun t i => tabSet t (3 * d + i) (slewedEndp (3 * k + i))) n.eps,
    parties := [0, 1, 2].foldl (fun t i => tabSet t (8 + (3 * d + i)) (slewedParty (3 * k + i))) n.parties }

/-- VCORE_FAST_SLEW (R376): everything the die holds or computes is unspecified until the next RESET (log entry 23). -/
def execVcoreFastSlew (d : Fin 4) (s : State) : Host.Outcome State Fault Refusal :=
  .next (if s.mstate = .reset then s
    else { putCd s d (freeDie s.free) with nld := slewLinks s.nld d s.free, free := s.free + 1 })

/-! ### The time base and its clock (02 R46, R51-R53) -/

/-- TIME_BASE_START (02 R46): the first edge after RST_N release is the first that adds 10. -/
def execTimeBaseStart (s : State) : Host.Outcome State Fault Refusal :=
  .next (if decide (s.mstate ≠ .reset) && !s.tbStarted && s.refclk then { s with tbStarted := true, tb := 10 } else s)

/-- The aligned 1 us windows that have passed on the time base (02 R53). -/
def windowsPassed (s : State) : Nat := s.tb.toNat / 1000

/-- The running window joins the spoiled ones, of which the last two can still matter: the running one and the one that ended last. -/
def spoil (bad : List Nat) (w : Nat) : List Nat := (w :: bad.filter (fun x => decide (x ≠ w))).take 2

/-- REFCLK_LOST set and the running speed window spoiled, on every die. -/
def clockLostOn (s : State) : List Nat → State
  | [] => s
  | d :: ds =>
    clockLostOn (setSysDie s d { sysDie s d with refclkLost := true, speedBad := spoil (sysDie s d).speedBad (windowsPassed s) }) ds

/-- The banks being programmed stop in FAULT, and their tokens come back (04 R105). -/
def stopProgramming (s : State) : State :=
  { mapDies s (fun c => { c with
      domes := c.domes.map (fun e => (e.1, { e.2 with b0 := bankStops e.2.b0, b1 := bankStops e.2.b1 })) }) with tokenHeld := [] }

/-- What a loss of REFCLK_IN sets off in the present machine state: in RUN, and as a further halting fault in HALT, a FATAL
record and HALT; the boot sequencer only waits (R52; 17 R412). -/
def clockLoss (s : State) : State :=
  if s.mstate = .run ∨ s.mstate = .halt then
    haltFault s hcREFCLK (mkRec s sevFatal 3 (srcWord s skDie 4 0) 0x0011 (loWord s.tb) (hiWord s.tb) 0)
  else s

/-- REFCLK_LOST (02 R52): 1 us without an edge. The time base holds and every die's bit is set; a loss that lasts sets the
bits again. -/
def execRefclkLost (s : State) : Host.Outcome State Fault Refusal :=
  .next (if s.mstate = .reset then { s with refclk := false }
    else if s.refclk then clockLoss (stopProgramming (clockLostOn { s with refclk := false } (upTo 5)))
    else clockLostOn s (upTo 5))

/-- The window of die d that has ended last is whole and not yet reported: windows are aligned, each ends once, and one in
which REFCLK_IN was lost never completes (02 R53). -/
def windowDue (s : State) (d : Nat) : Bool :=
  decide (windowsPassed s ≠ 0) && decide (windowsPassed s ≠ (sysDie s d).speedSeen)
    && decide (windowsPassed s - 1 ∉ (sysDie s d).speedBad)

/-- SPEED_WINDOW_END (02 R53): the aligned window that has just ended gives RATE. -/
def execSpeedWindowEnd (d : Fin 5) (rate : BitVec 16) (s : State) : Host.Outcome State Fault Refusal :=
  .next (if tbRuns s && windowDue s d then
      setSysDie s d { sysDie s d with rate := rate, speedValid := true, speedSeen := windowsPassed s }
    else s)

/-! ### The governor (R377-R380, R390, R393, R395) -/

/-- SYS_VREQn as a write leaves it: codes above 50 store 50. -/
def vreqSet (s : State) (n : Nat) (v : Word) : State :=
  { s with power := { s.power with
    vreq := listSet s.power.vreq n (BitVec.ofNat 6 (min 50 (field v 5 0))), asked := listSet s.power.asked n true } }

/-- VREQ_WRITE (R395): effective from the next tick. -/
def execVreqWrite (n : Fin 4) (v : BitVec 32) (s : State) : Host.Outcome State Fault Refusal :=
  .next (if !regsUp s then s else vreqSet s n v)

/-- LIMIT in 0.1 W: below 15 W acts as 15, above 60 as 60 (R380). -/
def envLimit (s : State) : Nat := 10 * max 15 (min 60 s.power.limit.toNat)

/-- The envelope cap after a tick. -/
def capENext (p limit cap : Nat) : Nat :=
  if p > limit then cap - 1 else if p + 10 < limit then min (cap + 1) 50 else cap

/-- The thermal cap after a tick. -/
def capTNext (halted slow : Bool) (cap : Nat) : Nat :=
  if halted then 0 else if slow then cap - 1 else min (cap + 1) 50

/-- The applied code one step nearer its target. -/
def vappNext (target : Nat) (v : BitVec 6) : BitVec 6 :=
  if target < v.toNat then v - 1 else if target > v.toNat then v + 1 else v

def railTarget (s : State) (n : Nat) : Nat :=
  min (s.power.vreqOn.getD n 0).toNat (min (s.power.capE.getD n 0) (s.power.capT.getD n 0))

/-- In BOOT the target is the code of RESET, 30, until SYS_VREQn is written (R377; DEDUCED, log entry 48). -/
def railHeld (s : State) (n : Nat) : Bool := decide (s.mstate = .boot) && !s.power.asked.getD n false

/-- The code applied to rail n after a tick; one that holds goes to 30 (DEDUCED, log entry 48). -/
def railNext (s : State) (n : Nat) : BitVec 6 :=
  vappNext (if railHeld s n then 30 else railTarget s n) (s.power.vapp.getD n 0)

/-- LIM of SYS_VAPPn: the lowest of request, envelope and thermal cap, a tie naming the higher number (R390). -/
def railLim (s : State) (n : Nat) : Nat :=
  if s.power.capT.getD n 0 = railTarget s n then 2 else if s.power.capE.getD n 0 = railTarget s n then 1 else 0

/-! ### Sensor states (R383, R384) -/

/-- 0 NORMAL, 1 WARN, 2 SLOW, 3 HALT. -/
def sensorState (v : Sensor) : Nat := if v.halt.flag then 3 else if v.slow.flag then 2 else if v.warn.flag then 1 else 0

/-- A sensor that takes part: valid, and not one of F's while F is isolated (R394). -/
def sensorOn (s : State) (i : Nat) : Bool := (sensor s i).valid && !(decide (i ≥ 36) && dieIsolated s 5)

def sensorDie (i : Nat) : Nat := if i < 32 then i / 8 else if i < 36 then 4 else 5

/-- The state of a die: the highest of its sensors'. -/
def dieThermal (s : State) (d : Nat) : Nat :=
  ((upTo 38).filter (fun i => decide (sensorDie i = d) && sensorOn s i)).foldl (fun m i => max m (sensorState (sensor s i))) 0

def anySensorAt (s : State) (k : Nat) : Bool := (upTo 6).any (fun d => decide (dieThermal s d ≥ k))

/-- GOVERNOR_TICK (R378, R379): the caps, the applied codes, UNMET. -/
def execGovernorTick (pwr : BitVec 12) (s : State) : Host.Outcome State Fault Refusal :=
  .next (if tbRuns s then
      let p := pwr.toNat
      let limit := envLimit s
      let stopped := decide (s.mstate = .halt) || decide (s.mstate = .safe)
      let hSlow := decide (dieThermal s 4 ≥ 2)
      let q := { s.power with
        pwr := pwr,
        vreqOn := s.power.vreq,
        capE := s.power.capE.map (capENext p limit),
        capT := (upTo 4).map (fun n => capTNext stopped (hSlow || decide (dieThermal s n ≥ 2)) (s.power.capT.getD n 0)) }
      let s1 := { s with power := q }
      let low := s.power.vapp.all (fun v => decide (v = 0))
      let s2 := { s1 with power := { q with
        vapp := (upTo 4).map (railNext s1),
        govcnt := if (upTo 4).any (fun n => decide (railLim s1 n = 1)) then satAdd q.govcnt 1 else q.govcnt,
        unmet := (q.unmet && decide (p ≥ limit)) || (low && decide (p > limit)) } }
      if low && decide (p > limit) && !s.power.unmet then
        warn s2 (srcWord s2 skDie 4 0) 0x0090 (w32 p) (w32 s.power.limit.toNat) 0
      else s2
    else s)

/-- SYS_GOVCNT_READ (R390). -/
def execSysGovcntRead (s : State) : Host.Outcome State Fault Refusal :=
  .next (if regsUp s then { outRead s s.power.govcnt with power := { s.power with govcnt := 0 } } else s)

end Sys2Proof.Machine
end

