-- ==== Sys2Proof/Machine/Uart.lean ====
section
/-! DEFINITION. The commands of the serial ports U0-U3 (chapter 14). -/

namespace Sys2Proof.Machine

/-! ### Configuration (R344, R345) -/

/-- A ring lies inside its Vault. -/
def ringOk (w : Word) : Bool :=
  decide (6 ≤ field w 29 26) && decide (field w 29 26 ≤ 15) && decide (ringBase w + 2 * ringDepth w ≤ vaultSize)

/-- The bit rate is above r: 96 MHz x 16 / (OVS x BDIV) > r (R331), in synchronous mode 96 MHz / (2 x BDIV[19:4]) > r (R339). -/
def rateAbove (v : Uart) (r : Nat) : Bool :=
  decide (96000000 * 16 > r * ((if uMode v = 1 then 2 else if uOvs8 v then 8 else 16) * uBdiv v))

/-- A Bell of a C-die of the own chip, named as R192 says. -/
def ownBell (s : State) (w : Nat) : Bool := !nameBad s w 8 && decide (nameChip w = ownChip s)

/-- The limits that an enabled configuration keeps. -/
def uartOk (s : State) (v : Uart) : Bool :=
  decide (5 ≤ uDbits v) && decide (uDbits v ≤ 9) && decide (uPar v ≤ 4) && ringOk v.rxring && ringOk v.txring
    && decide (16 ≤ uBdiv v) && decide (uMode v ≠ 3)
    && (decide (uMode v ≠ 1) || (decide (uBdiv v % 16 = 0) && decide (uBdiv v / 16 ≥ 4)))
    && (decide (uMode v ≠ 2) || (!uOvs8 v && !rateAbove v 115200))
    && (decide (uSleep v ≠ 1) || !rateAbove v 230400)
    && ownBell s (uReady v) && ownBell s (uFree v) && ownBell s (uAvail v) && ownBell s (uDone v)
    && ownBell s (field v.wake 15 0)

/-- The port as an accepted EN = 1 leaves it: its configuration in force, counts from 0, nothing held (R344, R346). It listens from now
on: a character whose start edge came before is lost to it (R346, R347). -/
def uartStarted (s : State) (v : Uart) : Uart :=
  { v with
    st := .active, cfgerr := false, held := none, rxk := 0, txk := 0, txBusy := false, waitHigh := false, waking := false,
    idleFrom := s.tb, driven := true, stopAt := none, txGot := none, txAsk := false, gen := v.gen + 1,
    stopping := false, enWait := false, hearFrom := some s.tb,
    live := ⟨v.cfg, v.baud, v.rxring, v.txring, v.rxbell, v.txbell, v.wake⟩, freeFrom := nameCount s (uFree v),
    availFrom := nameCount s (uAvail v) }

/-- A port whose EN = 1 breaks a limit: EN stays 0 and CFGERR is set (R344, R345). -/
def uartRefused (v : Uart) : Uart := { v with cfg := v.cfg &&& 0x7FFF_FFFF, cfgerr := true, enWait := false }

/-- EN of a port's UART_CFG put into effect or refused. -/
def uartApply (s : State) (u : Nat) : State :=
  let v := uart s u
  setUart s u (if uartOk s v then uartStarted s v else uartRefused v)

/-- EN = 1 written in HALT, where no port runs (01 Table 1-10): accepted or refused at once, and an accepted one acts as RUN is entered
(DEDUCED, log entry 57). -/
def uartArm (s : State) (u : Nat) : State :=
  let v := uart s u
  setUart s u (if uartOk s v then { v with cfgerr := false, enWait := true } else uartRefused v)

/-- Ports whose EN = 1 was written in HALT and that have stopped: it acts, the machine having entered RUN. -/
def resumeUarts (s : State) : List Nat → State
  | [] => s
  | u :: us => resumeUarts (if (uart s u).enWait && !(uart s u).stopping then uartApply s u else s) us

/-- A write of UART_CFG: while EN = 1 only one that clears EN acts; EN set in BOOT acts at the release (R344, R346), EN set in HALT as RUN
is entered (log entry 57). EN = 1 written to a port that still stops acts when it has stopped (DEDUCED, log entry 53). -/
def uartCfgWrite (s : State) (u : Nat) (x : Word) : State :=
  let v := uart s u
  let y := x &&& 0xFF7F_8000
  if uEn v then
    if bit y 31 then s
    else
      let s1 := uartStop s u true
      setUart s1 u { uart s1 u with cfg := y, enWait := false }
  else
    let s1 := setUart s u { v with cfg := y, enWait := v.stopping && bit y 31 }
    if !bit y 31 then s1
    else if s.mstate = .halt then uartArm s1 u
    else if s.mstate = .run ∧ !v.stopping then uartApply s1 u else s1

/-- UART_ENABLE (R345): a write of UART_CFG with EN = 1. -/
def execUartEnable (u : Fin 4) (v : BitVec 32) (s : State) : Host.Outcome State Fault Refusal :=
  .next (if regsUp s then uartCfgWrite s u (v ||| 0x8000_0000) else s)

/-- UART_DISABLE (R347): EN cleared, the other fields as they are. -/
def execUartDisable (u : Fin 4) (s : State) : Host.Outcome State Fault Refusal :=
  .next (if regsUp s then uartCfgWrite s u ((uart s u).cfg &&& 0x7FFF_FFFF) else s)

/-! ### Receiving (R332-R336) -/

/-- The parity bit that a character's data asks for under the selected parity. -/
def parityBit (par data : Nat) : Bool :=
  let odd := decide ((((upTo 9).filter (fun i => data / 2 ^ i % 2 = 1)).length) % 2 = 1)
  if par = 1 then odd else if par = 2 then !odd else decide (par = 3)

/-! The bit decision (R332, R340). A tick is a level with whether a reference edge falls on it. -/

/-- Ticks of an asynchronous line, which fell from `prev`: every falling edge is a reference edge. -/
def nrzTicks : Bool → List Bool → List (Bool × Bool)
  | _, [] => []
  | prev, x :: xs => (x, prev && !x) :: nrzTicks x xs

/-- The oscillator period of tick i: the first edge at or after its exact time (R331). -/
def tickTime (bdiv i : Nat) : Nat := (i * bdiv + 15) / 16

/-- A pulse of 0.5 us or more, 48 periods of 96 MHz; a shorter one is filtered out. -/
def pulseTaken (p : Nat × Nat) : Bool := decide (48 ≤ p.2)

/-- Whether each of n ticks is the first at or after the leading edge of an accepted pulse. -/
def sirEdges (bdiv n : Nat) (ps : List (Nat × Nat)) : List Bool :=
  (upTo n).map (fun i => ps.any (fun p =>
    pulseTaken p && decide (p.1 ≤ tickTime bdiv i) && (decide (i = 0) || decide (tickTime bdiv (i - 1) < p.1))))

/-- Ticks of an IrDA line: the leading edge of an accepted pulse is a reference edge and begins a bit of level 0, of which `left`
ticks are still to come. -/
def sirTicks (ovs : Nat) : Nat → List Bool → List (Bool × Bool)
  | _, [] => []
  | left, e :: es =>
    if e then (false, true) :: sirTicks ovs (ovs - 1) es else (decide (left = 0), false) :: sirTicks ovs (left - 1) es

/-- The bits decided from ticks, in order: the majority of the samples at ticks OVS/2 - 1, OVS/2 and OVS/2 + 1 of each bit,
whose count a reference edge restarts. `pos` is the tick within the bit, `ones` the samples that were 1. -/
def decideBits (ovs : Nat) : Nat → Nat → List (Bool × Bool) → List Bool
  | _, _, [] => []
  | pos, ones, (x, edge) :: r =>
    let p := if edge then 0 else pos
    let k := (if edge then 0 else ones) + b2n (x && decide (ovs / 2 - 1 ≤ p) && decide (p ≤ ovs / 2 + 1))
    let more := if p + 1 = ovs then decideBits ovs 0 0 r else decideBits ovs (p + 1) k r
    if p = ovs / 2 + 1 then decide (2 ≤ k) :: more else more

def uOvs (v : Uart) : Nat := if uOvs8 v then 8 else 16

/-- The bits of a character on the line. -/
def rxLine (v : Uart) (c : RxChar) : List Bool :=
  decideBits (uOvs v) 0 0 (if uMode v = 2 then sirTicks (uOvs v) 0 (sirEdges (uBdiv v) c.ticks.length c.pulses)
    else nrzTicks true c.ticks)

/-- A number whose bits stand in a list, least significant first. -/
def bitsNat : List Bool → Nat
  | [] => 0
  | b :: bs => b2n b + 2 * bitsNat bs

/-- A character as the shifter has decided it. -/
structure RxBits where
  start : Bool
  data : Nat
  parity : Bool
  stop : Bool
  deriving DecidableEq, Repr

def rxBits (v : Uart) (c : RxChar) : RxBits :=
  let bs := rxLine v c
  { start := bs.getD 0 true, data := bitsNat ((bs.drop 1).take (uDbits v)), parity := bs.getD (1 + uDbits v) true,
    stop := bs.getD (1 + uDbits v + b2n (decide (uPar v ≠ 0))) true }

/-- Every bit up to the first stop bit has been decided. -/
def rxWhole (v : Uart) (c : RxChar) : Bool := decide (2 + uDbits v + b2n (decide (uPar v ≠ 0)) ≤ (rxLine v c).length)

/-- Nanoseconds since the start edge of a character that now ends. -/
def rxTime (v : Uart) (c : RxChar) : Nat := c.ticks.length * uBdiv v * 1000 / 1536

/-- A character as the holding register takes it: data and tags PE, FE, BRK (R334). -/
def rxEntry (v : Uart) (c : RxBits) : Nat :=
  let data := c.data
  let brk := decide (data = 0) && !c.stop && (decide (uPar v = 0) || !c.parity)
  let pe := decide (uPar v ≠ 0) && decide (c.parity ≠ parityBit (uPar v) data)
  data + 2 ^ 9 * b2n pe + 2 ^ 10 * b2n (!c.stop) + 2 ^ 11 * b2n brk

/-- The port receives: it is ACTIVE, or the character was under way when HALT came (R348). -/
def uReceives (s : State) (v : Uart) (c : RxChar) : Bool :=
  uWorks v || (match v.stopAt with
    | some t => decide (since s t ≤ rxTime v c)
    | none => false)

/-- The receiver listened when a character began: ready, not waiting for the line to rise, not before it looked for start bits again
after a break or a deep wake (R334, R343), and in IrDA not while the port sent or in the 100 us after (R340). -/
def uListens (s : State) (v : Uart) (c : RxChar) : Bool :=
  uReceives s v c && decide (uMode v ≠ 1) && !v.waitHigh && !v.waking
    && (match v.hearFrom with
      | some t => decide (rxTime v c ≤ since s t)
      | none => true)
    && !(decide (uMode v = 2) && (v.txBusy || match v.lastTx with
      | some t => decide (since s t < 100000 + rxTime v c)
      | none => false))

/-- An overrun: one WARN record in each second that has one (R335). -/
def uartOverrun (s : State) (u : Nat) : State :=
  let v := uart s u
  let n := satAdd v.ovrn 1
  let s1 := setUart s u { v with ovrn := n }
  match v.lastOvrn with
  | some t =>
    if since s t < 1000000000 then s1
    else warn (setUart s1 u { uart s1 u with lastOvrn := some s.tb }) (srcWord s skEngine 4 (euUart u)) 0x0071 (w32 u) n 0
  | none => warn (setUart s1 u { uart s1 u with lastOvrn := some s.tb }) (srcWord s skEngine 4 (euUart u)) 0x0071 (w32 u) n 0

/-- An entry moved into the holding register; a full one is overwritten with OVR. -/
def uartHold (s : State) (u : Nat) (e : Nat) : State :=
  let v := uart s u
  let full := v.held.isSome
  let s1 := setUart s u { v with
    held := some (BitVec.ofNat 16 (e + 2 ^ 12 * b2n full)),
    pe := satAdd v.pe (e / 2 ^ 9 % 2), fe := satAdd v.fe (e / 2 ^ 10 % 2), brk := satAdd v.brk (e / 2 ^ 11 % 2),
    waitHigh := decide (e / 2 ^ 11 % 2 = 1), idleFrom := s.tb, stopAt := none }
  if full then uartOverrun s1 u else s1

/-- UART_CHAR_RECEIVED (R332, R334, R335): a false start writes nothing, and the line is idle again. -/
def execUartCharReceived (u : Fin 4) (c : RxChar) (s : State) : Host.Outcome State Fault Refusal :=
  let v := uart s u
  .next (if uListens s v c then
      (if (rxBits v c).start then setUart s u { v with idleFrom := s.tb }
       else if rxWhole v c then uartHold s u (rxEntry v (rxBits v c))
       else s)
    else s)

/-- UART_RX_ENGINE_TAKE (R336). -/
def execUartRxEngineTake (u : Fin 4) (s : State) : Host.Outcome State Fault Refusal :=
  .next (uartTake s u)

/-- UART_RX_HIGH_BIT_TIME (R334, R343). -/
def execUartRxHighBitTime (u : Fin 4) (s : State) : Host.Outcome State Fault Refusal :=
  .next (setUart s u { uart s u with
    waitHigh := false, idleFrom := s.tb, hearFrom := if (uart s u).waitHigh then some s.tb else (uart s u).hearFrom })

/-! ### Transmitting (R337-R339) -/

/-- The bits of a transmit entry on the line: start, data, parity and stop bits, or a break of one character and one bit (R337). -/
def txBits (v : Uart) (e : Nat) : List Bool :=
  let data := (upTo (uDbits v)).map (fun i => decide (e / 2 ^ i % 2 = 1))
  let par := if uPar v = 0 then [] else [parityBit (uPar v) (e % 2 ^ uDbits v)]
  let stops := if uStop2 v then [true, true] else [true]
  let char := false :: data ++ par ++ stops
  if e / 2 ^ 11 % 2 = 1 then char.map (fun _ => false) ++ [false, true] else char

/-- Un_TX: bit by bit, or in IrDA by sixteenths of a bit, a pulse of three for each 0 (R340). -/
def txLine (v : Uart) (e : Nat) : List Bool :=
  if uMode v = 2 then
    (txBits v e).flatMap (fun b => (upTo 16).map (fun i => !b && decide (i < 3)))
  else txBits v e

/-- The bits of a transmit entry in synchronous mode: the data bits alone, or a break of one character and one bit, then 1 for one
bit (R337, R339; that Un_SCK runs through a break is DEDUCED, log entry 53). -/
def syncBits (v : Uart) (e : Nat) : List Bool :=
  if e / 2 ^ 11 % 2 = 1 then List.replicate (uDbits v + 1) false ++ [true]
  else (upTo (uDbits v)).map (fun i => decide (e / 2 ^ i % 2 = 1))

/-- Un_SCK and Un_TX by half periods: Un_TX changes as Un_SCK leaves the CPOL level (R339). -/
def syncHalves (v : Uart) (e : Nat) : List (Bool × Bool) := (syncBits v e).flatMap (fun b => [(!uCpol v, b), (uCpol v, b)])

/-- The character clocked in: Un_RX sampled at the edges that return to the CPOL level, least significant bit first (R339). -/
def syncRx (v : Uart) (rx : BitVec 9) : Nat := bitsNat ((upTo (uDbits v)).map rx.getLsbD)

/-- The next transmit entry has been counted by AVAIL, from its value at EN (R337, R346; DEDUCED, log entry 53). -/
def uHasTx (s : State) (v : Uart) : Bool := counted (nameCount s (uAvail v) - v.availFrom) (w32 (v.txk + 1))

/-- The next transmit entry asked for over the link to its ring. -/
def uartTxAsk (s : State) (u : Nat) : State :=
  let v := uart s u
  if v.txAsk then s
  else (ringAsk (setUart s u { v with txAsk := true }) u v.txring v.txk kRD [] (.serialOut u v.gen)).getD s

/-- UART_TX_CHAR (R337, R338): not while a character is being sent, nor with CTS high under FLOW. The entry is read first. -/
def execUartTxChar (u : Fin 4) (s : State) : Host.Outcome State Fault Refusal :=
  let v := uart s u
  .next (if uWorks v && decide (uMode v ≠ 1) && !v.txBusy && uHasTx s v && !(uFlow v && v.ctsHigh) then
      match v.txGot with
      | some e => output (setUart s u { v with txBusy := true, txGot := none }) (.txChar u e (txLine v e.toNat))
      | none => uartTxAsk s u
    else s)

/-- The character being sent has left a port that stops: the port goes OFF, and in RUN an EN = 1 written meanwhile acts
(R346 to R348). -/
def uartStopped (s : State) (u : Nat) : State :=
  let v := uart s u
  let s1 := setUart s u { v with st := .off, stopping := false }
  if v.enWait ∧ s.mstate = .run then uartApply s1 u else s1

/-- UART_TX_DONE (R337): the last stop bit has left; 1 is added to DONE. It is the character boundary at which a port that stops goes
OFF (R347, R348). -/
def execUartTxDone (u : Fin 4) (s : State) : Host.Outcome State Fault Refusal :=
  let v := uart s u
  .next (if v.txBusy then
      let s1 := addNamed (setUart s u { v with txBusy := false, txk := v.txk + 1, lastTx := some s.tb }) 4 (uPort u)
        (uDone (if v.stopping then inForce v else v)) 1 .boot
      if v.stopping then uartStopped s1 u else s1
    else s)

/-- The level of Un_CTS_N behind its filter (R338). -/
def ctsLevel (u : Fin 4) (high : Bool) (s : State) : State := setUart s u { uart s u with ctsHigh := high }

/-- UART_CTS_CHANGE (R338, 16 R388): a level, or a pulse of some width, at Un_CTS_N (log entry 11). -/
def execUartCtsChange (u : Fin 4) (high : Bool) (s : State) : Host.Outcome State Fault Refusal :=
  .next (filtered .fast s (ctsLevel u high))

/-- UART_SYNC_CHAR (R339): one character out and one in, while an entry, the holding register and a slot are there. The entry is read
first. -/
def execUartSyncChar (u : Fin 4) (data : BitVec 9) (s : State) : Host.Outcome State Fault Refusal :=
  let v := uart s u
  .next (if uWorks v && decide (uMode v = 1) && uHasTx s v && v.held.isNone && uSlotFree s v then
      match v.txGot with
      | some e =>
        let t := setUart s u { v with
          txk := v.txk + 1, txGot := none, held := some (BitVec.ofNat 16 (syncRx v data)) }
        addNamed (output t (.syncChar u e (syncHalves v e.toNat))) 4 (uPort u) (uDone v) 1 .boot
      | none => uartTxAsk s u
    else s)

/-- Un_RTS_N: with FLOW high while the holding register is full or fewer than 4 slots are free, else low (R338). -/
def rtsHigh (s : State) (v : Uart) : Bool := uFlow v && decide (uMode v ≠ 1) && (v.held.isSome || !uSlotsFree s v 4)

/-! ### Sleep and wake (R330, R341-R343) -/

/-- The fast oscillator runs: some enabled port is ACTIVE (R330). -/
def oscillatorRuns (s : State) : Bool := (upTo 4).any (fun u =>
  (uEn (uart s u) || (uart s u).stopping) && decide ((uart s u).st = .active))

/-- UART_SLEEP_ENTRY (R341): Un_RX idle for IDLE us, nothing held and every counted entry sent. -/
def execUartSleepEntry (u : Fin 4) (s : State) : Host.Outcome State Fault Refusal :=
  let v := uart s u
  .next (if uWorks v && decide (uMode v ≠ 1) && decide (uSleep v ≠ 0) && v.held.isNone && !v.txBusy
      && !uHasTx s v && !v.waitHigh && !v.waking && decide (since s v.idleFrom ≥ field v.wake 31 16 * 1000) then
      setUart s u { v with st := if uSleep v = 1 then .catch_ else .deep }
    else s)

/-- A wake (R341-R343): the wake Bell is added to; UART_WAKES counts the wakes from DEEP, and an edge that wakes a port there loses its
character. -/
def uartWoken (u : Fin 4) (byRx : Bool) (s : State) : State :=
  let v := uart s u
  if (decide (v.st = .catch_) || decide (v.st = .deep)) && (byRx || uHasTx s v) then
      let deep := decide (v.st = .deep) && byRx
      addNamed (setUart s u { v with
        st := .active, waking := deep, wakes := satAdd v.wakes (b2n (decide (v.st = .deep))),
        idleFrom := if byRx then s.tb else v.idleFrom }) 4 (uPort u) (field v.wake 15 0) 1 .boot
  else s

/-- UART_WAKE (R341-R343): by an edge of Un_RX that passes its filter (16 R388, log entry 11), or by an entry to send. -/
def execUartWake (u : Fin 4) (byRx : Bool) (s : State) : Host.Outcome State Fault Refusal :=
  .next (if byRx then filtered .fast s (uartWoken u true) else uartWoken u false s)

/-- DEEP_WAKE_READY (R343): with Un_RX low the receiver waits for it to rise. -/
def execDeepWakeReady (u : Fin 4) (rxHigh : Bool) (s : State) : Host.Outcome State Fault Refusal :=
  let v := uart s u
  .next (if v.waking then setUart s u { v with waking := false, waitHigh := !rxHigh, idleFrom := s.tb, hearFrom := some s.tb } else s)

/-- UART_COUNTER_READ (R344). -/
def execUartCounterRead (u : Fin 4) (k : UartCounter) (s : State) : Host.Outcome State Fault Refusal :=
  let v := uart s u
  .next (if regsUp s then match k with
      | .ovrn => setUart (outRead s v.ovrn) u { v with ovrn := 0 }
      | .fe => setUart (outRead s v.fe) u { v with fe := 0 }
      | .pe => setUart (outRead s v.pe) u { v with pe := 0 }
      | .brk => setUart (outRead s v.brk) u { v with brk := 0 }
      | .wakes => setUart (outRead s v.wakes) u { v with wakes := 0 }
    else s)

end Sys2Proof.Machine
end

