-- ==== Sys2Proof/Machine/Faults.lean ====
section
/-! DEFINITION. The commands of the fault log, the machine watchdog and the recovery actions (chapter 17). -/

namespace Sys2Proof.Machine

/-! ### The log (R398-R400) -/

/-- Whether held record i is the first of its source. -/
def firstOfSource (l : List HeldRec) (i : Nat) : Bool :=
  match l.drop i with
  | [] => false
  | h :: _ => (l.take i).all (fun x => decide (recSource x.w ≠ recSource h.w))

/-- FAULT_RECORD_LOG (R398, R399): the i-th held record enters the log when a slot is free. -/
def execFaultRecordLog (i : Nat) (s : State) : Host.Outcome State Fault Refusal :=
  .next (match s.faults.held.drop i with
    | [] => s
    | h :: _ =>
      if decide (s.mstate ≠ .reset) && decide (logCount s < 256) && firstOfSource s.faults.held i then
        logTake { s with faults := { s.faults with held := s.faults.held.eraseIdx i } } h.w
      else s)

/-- A push into the fault queue is under way. -/
def faultAsked (s : State) : Bool :=
  (allAsks s).any (fun x => decide (x.2.who = .faultQueue) && decide (txnKind x.2.txn = kQPUSH))

/-- FAULT_QUEUE_DELIVER (R400): the next record is pushed over the link into the fault queue, where it waits its turn (09 R211); it
counts as delivered once that queue has taken it. A DISABLED queue answers NONAME, and the push waits at H, which makes it again (09
R219). -/
def execFaultQueueDeliver (s : State) : Host.Outcome State Fault Refusal :=
  let i := clipNext s s.faults.qNext
  let d := s.faults.qDie.toNat
  let q := s.faults.qQueue.toNat
  .next (if decide (s.mstate ≠ .reset) && s.faults.qEn && decide (i ≠ s.faults.tail) && diesJoined s 4 d
      && !faultAsked s then
      (sendAsk s { kind := kQPUSH, src := 0x401, addr := queueAddr (ownName s d q), len := 32, payload := ofWords (logRecord s i) }
        .faultQueue).getD s
    else s)

/-- SYS_FLOG_HEAD as a write leaves it (R400, R411). -/
def flogHeadSet (s : State) (v : Word) : State :=
  if (s.faults.auto && (s.faults.qEn || hostOn s)) || decide (s.mstate = .safe)
      || decide ((v - s.faults.head).toNat > logCount s) then s
  else { s with faults := { s.faults with head := v } }

/-- FLOG_HEAD_WRITE (R400). -/
def execFlogHeadWrite (v : BitVec 32) (s : State) : Host.Outcome State Fault Refusal :=
  .next (if !regsUp s then s else flogHeadSet s v)

/-! ### The machine watchdog (R404) -/

/-- The watchdog's period starts again. -/
def wdRestart (s : State) : State := { s with faults := { s.faults with wdFrom := s.tb } }

/-- The part in RESET and out of it again by the recovery action (R406), when the TEST balls are sampled again: what they read at
that moment no command gives, so it is a free value, and one that reads high keeps the part in RESET (18 R416, log entry 50). -/
def recovReset (s : State) : State :=
  let s1 := enterReset s false rcRECOV
  leaveReset { s1 with power := { s1.power with test := (Config.freeWord s1.free).extractLsb' 0 4 }, free := s1.free + 1 }

/-- The record of an expiry. -/
def wdRec (s : State) (sev act : Nat) : List Word :=
  mkRec s sev act (srcWord s skEngine 4 euWatchdog) 0x00A0 (w32 s.faults.wdPeriod.toNat) (w32 s.faults.wdAct.toNat) 0

/-- Whether the watchdog's period has passed in RUN. -/
def wdOver (s : State) : Bool :=
  decide (s.mstate = .run) && decide (s.faults.wdPeriod ≠ 0)
    && decide (since s s.faults.wdFrom ≥ s.faults.wdPeriod.toNat * 1000000)

/-- H sends F the write of FIO_CTL that sets SAFE, over the link between them (R404; 10 R230); nothing where the link is DOWN. It leaves
by the host engine's port (PRESUMED, log entry 34), and nobody waits for its answer. -/
def fSendSafe (s : State) : State :=
  (sendAsk s { kind := kWR, src := 0x401, addr := devAddr (ownChip s) 5 0xF00010000, len := 4, payload := wordLe 2 } .boot).getD s

/-- What an expiry does. -/
def wdActs (s : State) : State :=
  match s.faults.wdAct.toNat with
  | 0 => wdRestart (raise s (wdRec s sevWarn 0))
  | 1 =>
    let s1 := raise s (wdRec s sevWarn 2)
    wdRestart (fSendSafe s1)
  | 2 => haltFault s hcWDOG (wdRec s sevFatal 3)
  | _ => recovReset (raise s (wdRec s sevFatal 5))

/-- The watchdog's expiry, where its period has passed. -/
def wdExpire (s : State) : State := if wdOver s then wdActs s else s

/-- PCI_HB_WORD as a write leaves it: the heartbeat is fresh and the watchdog restarts (13 R316). -/
def hbWordPut (s : State) (v : Word) : State := wdRestart { s with host := { s.host with hbWord := v, hbFresh := true } }

/-- A write that restarts the watchdog. One in the tick of the expiry, or later, is too late: the expiry stands and comes
first, and where it resets the part the write is lost (R404). -/
def wdWrite (s : State) (f : State → State) : State :=
  if wdOver s then (if (wdActs s).mstate = .run ∨ (wdActs s).mstate = .halt then f (wdActs s) else wdActs s) else f s

/-- A write of PCI_HB_WORD. -/
def hbWordSet (s : State) (v : Word) : State := wdWrite s (fun t => hbWordPut t v)

/-- PCI_HB_WORD_WRITE (R404). -/
def execPciHbWordWrite (v : BitVec 32) (s : State) : Host.Outcome State Fault Refusal :=
  .next (if !regsUp s then s else hbWordSet s v)

/-- SYS_WD as a write leaves it. -/
def wdPut (s : State) (v : Word) : State :=
  wdRestart { s with faults := { s.faults with wdAct := v.extractLsb' 30 2, wdPeriod := v.extractLsb' 0 16 } }

/-- A write of SYS_WD. -/
def wdSet (s : State) (v : Word) : State := wdWrite s (fun t => wdPut t v)

/-- SYS_WD_WRITE (R404). -/
def execSysWdWrite (v : BitVec 32) (s : State) : Host.Outcome State Fault Refusal :=
  .next (if !regsUp s then s else wdSet s v)

/-- MACHINE_WDOG_EXPIRY (R404). -/
def execMachineWdogExpiry (s : State) : Host.Outcome State Fault Refusal :=
  .next (wdExpire s)

/-! ### Recovery (R405, R406) -/

/-- THM_STAT.HALTCLR: some sensor takes part, and none that does is in HALT (16 R385, log entry 28). -/
def haltClear (s : State) : Bool :=
  (upTo 38).any (sensorOn s) && (upTo 38).all (fun i => !sensorOn s i || decide (sensorState (sensor s i) ≠ 3))

/-- TB_RUN reads 1 on every die: the time base counts (02 R51, R52). -/
def tbAll (s : State) : Bool := tbRuns s

/-- Whether a RESUME is carried out. -/
def resumeOk (s : State) : Bool :=
  let m := s.faults.hmask
  decide (s.mstate = .halt) && !m.getLsbD hcVAULT && !m.getLsbD hcMEM && (!m.getLsbD hcTHERMAL || haltClear s)
    && (!m.getLsbD hcREFCLK || tbAll s)

/-- External ports that HALT closed read DOWN from RESUME on (R405). -/
def portsDown (s : State) : List Nat → State
  | [] => s
  | e :: es => portsDown (if (endp s e).st = .closed then setEndp s e { endp s e with st := .down } else s) es

/-- RESUME (R405). Spires and serial ports that were enabled in HALT start with it (log entry 57). -/
def resumeRun (s : State) : State :=
  if resumeOk s then
    let s1 := { s with faults := { s.faults with hkind := 0, hmask := 0 } }
    let s2 := startAllArmed (startSpires s1 s1.boot.started)
    feResume (resumeUarts (setMState (portsDown s2 extEps) .run) (upTo 4))
  else { s with faults := { s.faults with refused := true } }

/-- SYS_RECOV as a write leaves it: RESUME, RESET, or nothing. -/
def recovWrite (s : State) (v : Word) : State :=
  if field v 31 16 ≠ 0xA5C3 then s
  else if field v 1 0 = 1 then resumeRun s
  else if field v 1 0 = 2 ∧ (s.mstate = .run ∨ s.mstate = .halt) then recovReset s
  else s

/-- RESUME_ACTION (R405): a write of SYS_RECOV. -/
def execResumeAction (v : BitVec 32) (s : State) : Host.Outcome State Fault Refusal :=
  .next (if !regsUp s then s else recovWrite s v)

/-- RESET_ACTION (R406): a write of SYS_RECOV. -/
def execResetAction (v : BitVec 32) (s : State) : Host.Outcome State Fault Refusal :=
  .next (if !regsUp s then s else recovWrite s v)

end Sys2Proof.Machine
end

