-- ==== Sys2Proof/Machine/Field.lean ====
section
/-! DEFINITION. The commands of the field die: its states, current loops, digital outputs and digital inputs
(chapter 15). -/

namespace Sys2Proof.Machine

/-! ### States (R350-R352, R364, R369) -/

/-- MSTATE_REPORT (R350): F acts on the oldest report that its endpoint has taken; where it has none, H's oldest report leaves over the
SYS channel, or is lost where F is out of reach (DESIGN CHOICE, log entry 82). -/
def execMstateReport (s : State) : Host.Outcome State Fault Refusal :=
  .next (match nextTxn (endp s 21) kREPORT with
    | some t =>
      let s1 := takeTxn s 21 t
      if s.f.powered then ((reportOf (txnOperand t).toNat).map (fReport s1)).getD s1 else s1
    | none =>
      match s.f.reports with
      | [] => s
      | m :: rest =>
        let s1 := { s with f := { s.f with reports := rest } }
        if fReached s1 then sendReport s1 m else fLost s1 m)

/-- VFIELD_RISE (R350, R369): F starts in RSAFE, and stays there where its link has been isolated. -/
def execVfieldRise (s : State) : Host.Outcome State Fault Refusal :=
  .next (if s.f.powered then s
    else { s with f := { s.f with
      powered := true, lone := !diesJoined s 4 5, di := (upTo 8).map (fun n => (n, { diCh s n with changed := s.tb })) } })

/-- F_RESET (R369): F's state is lost and its link with it (log entry 29). -/
def execFReset (s : State) : Host.Outcome State Fault Refusal :=
  .next (if s.f.powered then
      let s1 := { s with f := { State.reset.f with powered := false, reports := s.f.reports } }
      if s.mstate = .reset then s1 else isolateDie s1 16 5
    else s)

/-- FUV_TIMEOUT (R351). -/
def execFuvTimeout (s : State) : Host.Outcome State Fault Refusal :=
  .next (if s.mstate = .reset then s else fSafe s fcFUV)

/-- F_LINK_TIMEOUT (R351). -/
def execFLinkTimeout (s : State) : Host.Outcome State Fault Refusal :=
  .next (if s.mstate = .reset then s else fSafe s fcLINK)

/-- FIO_SAFE (R351). -/
def execFioSafe (s : State) : Host.Outcome State Fault Refusal := .next (fOrderedSafe s)

/-- FIO_REARM (R352). -/
def execFioRearm (s : State) : Host.Outcome State Fault Refusal := .next (fAsked s (fun t => fioCtlWrite t 1))

/-- The watchdog runs, and its period has passed on the time base t millionths times over. -/
def fWdPast (s : State) (t : Nat) : Bool :=
  decide (s.f.st = .live) && decide (s.f.wd ≠ 0) && decide (since s s.f.wdFrom ≥ s.f.wd.toNat * t)

/-- The output watchdog starts its period again. A kick, or a write of FIO_WD, that comes when the period must have passed, at
1.02 times the period (R349), is too late: the expiry has come first (R364). -/
def fWdRestart (s : State) : State :=
  let s1 := if fWdPast s 1020000 then fSafe s fcWDOG else s
  { s1 with f := { s1.f with wdFrom := s.tb, wdLoose := false } }

/-- FIO_WD_KICK (R364): any value kicks. -/
def execFioWdKick (_v : BitVec 32) (s : State) : Host.Outcome State Fault Refusal :=
  .next (fAsked s fWdRestart)

/-- FIO_WD as a write leaves it. -/
def fioWdSet (s : State) (v : Word) : State :=
  let s1 := fWdRestart s
  { s1 with f := { s1.f with wd := v.extractLsb' 0 10 } }

/-- FIO_WD_WRITE (R364). -/
def execFioWdWrite (v : BitVec 32) (s : State) : Host.Outcome State Fault Refusal :=
  .next (fAsked s (fun t => fioWdSet t v))

/-- The period of the output watchdog may have passed on F's oscillator, which runs within 2 % (R349, R364), also while the time
base stands: how far F's oscillator is then ahead, only the command tells. -/
def fWdOver (s : State) : Bool := fWdPast s (if s.f.wdLoose || !s.refclk then 0 else 980000)

/-- FIO_WD_EXPIRY (R364). -/
def execFioWdExpiry (s : State) : Host.Outcome State Fault Refusal := .next (if fWdOver s then fSafe s fcWDOG else s)

/-! ### Current loops (R355-R357) -/

/-- Records of F carry H's time base when they reach H (17 Table 17-1); none while F cannot reach it (R368). -/
def fieldWarn (s : State) (unit kind : Nat) (d5 d6 d7 : Word) : State :=
  if fReached s then warn s (srcWord s skField 5 unit) kind d5 d6 d7 else s

/-- FIO_AO_CMD as a write leaves it: in LIVE the channel takes the code. -/
def aoCodeSet (s : State) (n : Nat) (v : Word) : State :=
  let a : Ao := { ao s n with code := v.extractLsb' 0 16 }
  setAo s n (if s.f.st = .live then { a with out := aoCommand a } else a)

/-- FIO_AO_CFG as a write leaves it. -/
def aoCfgSet (s : State) (n : Nat) (v : Word) : State :=
  let a : Ao := { ao s n with en := bit v 31, safem := v.extractLsb' 0 2 }
  setAo s n (if s.f.st = .live then { a with out := aoCommand a } else a)

/-- AO_CMD_WRITE (R355). -/
def execAoCmdWrite (n : Fin 4) (v : BitVec 32) (s : State) : Host.Outcome State Fault Refusal :=
  .next (fAsked s (fun t => aoCodeSet t n v))

/-- F measures: it has its supply and is out of reset. -/
def fWorks (s : State) : Bool := s.f.powered && decide (s.mstate ≠ .reset)

/-- AO_MEAS_UPDATE (R355, R357): readback, and LOOPUV below 9.0 V. -/
def execAoMeasUpdate (n : Fin 4) (i : BitVec 16) (vhead vloop : BitVec 12) (s : State) : Host.Outcome State Fault Refusal :=
  .next (if fWorks s then
      setAo s n { ao s n with meas := i, vhead := vhead, vloop := vloop, loopuv := decide (vloop.toNat < 900) }
    else s)

/-- AO_COMPLIANCE_SET (R356): one record each time the flag is set; only a channel that regulates has a command to miss. -/
def execAoComplianceSet (n : Fin 4) (s : State) : Host.Outcome State Fault Refusal :=
  let v := ao s n
  .next (if fWorks s && !v.compliance && decide (v.out ≠ 0) then
      fieldWarn (setAo s n { v with compliance := true }) n 0x0080 (w32 v.code.toNat) (w32 v.meas.toNat) (w32 v.vhead.toNat)
    else s)

/-- AO_COMPLIANCE_CLEAR (R356). -/
def execAoComplianceClear (n : Fin 4) (s : State) : Host.Outcome State Fault Refusal :=
  .next (setAo s n { ao s n with compliance := false })

/-- AO_OPEN_SET (R357): with a command of 1 mA or more. -/
def execAoOpenSet (n : Fin 4) (s : State) : Host.Outcome State Fault Refusal :=
  let v := ao s n
  .next (if fWorks s && !v.openLoop && decide (v.out.toNat ≥ 2000) then
      fieldWarn (setAo s n { v with openLoop := true }) n 0x0081 (w32 v.code.toNat) (w32 v.meas.toNat) 0
    else s)

/-- AO_OPEN_CLEAR (R357). -/
def execAoOpenClear (n : Fin 4) (s : State) : Host.Outcome State Fault Refusal :=
  .next (setAo s n { ao s n with openLoop := false })

/-! ### Digital outputs (R358-R360) -/

/-- FIO_DO_CMD as a write leaves it: in LIVE the channels take it. -/
def doCmdSet (s : State) (v : Word) : State :=
  let s1 := { s with f := { s.f with doCmd := v.extractLsb' 0 8 } }
  if s.f.st = .live then outsLive s1 else s1

/-- DO_CMD_WRITE (R358). -/
def execDoCmdWrite (v : BitVec 32) (s : State) : Host.Outcome State Fault Refusal :=
  .next (fAsked s (fun t => doCmdSet t v))

/-- DO_OVERLOAD (R359): the channel limits its current. -/
def execDoOverload (n : Fin 8) (s : State) : Host.Outcome State Fault Refusal :=
  .next (if fWorks s && doOn (doCh s n) then setDoCh s n { doCh s n with limit := true } else s)

/-- DO_LATCH_OFF (R359): off at 165 degrees; after the 8th retry for good. -/
def execDoLatchOff (n : Fin 8) (s : State) : Host.Outcome State Fault Refusal :=
  let v := doCh s n
  .next (if fWorks s && doOn v then
      let v1 : DoCh := { v with off := true, limit := true, openld := false }
      if v.retry = 8 then fieldWarn (setDoCh s n { v1 with flt := true }) (8 + n.val) 0x0083 (w32 v.retry) 0 0
      else setDoCh s n v1
    else s)

/-- DO_RETRY (R359): a channel latched off and still commanded on turns on again. -/
def execDoRetry (n : Fin 8) (s : State) : Host.Outcome State Fault Refusal :=
  let v := doCh s n
  .next (if fWorks s && v.on && v.off && !v.flt then
      setDoCh s n { v with off := false, retry := v.retry + 1, ext := false }
    else s)

/-- DO_RETRY_RESET (R359). -/
def execDoRetryReset (n : Fin 8) (s : State) : Host.Outcome State Fault Refusal :=
  let v := doCh s n
  .next (if doOn v && decide (v.retry ≠ 0) then setDoCh s n { v with retry := 0, limit := false } else s)

/-- FLT cleared where a bit of the mask is set: the channel follows its command, in a new sequence (R359). -/
def doClear (s : State) (v : Word) : State :=
  let one := fun (n : Nat) =>
    let c := doCh s n
    if bit v n && c.flt then { c with flt := false, off := false, limit := false, retry := 0, ext := c.ext && !c.on } else c
  { s with f := { s.f with dout := (upTo 8).map (fun n => (n, one n)) } }

/-- DO_FAULT_CLEAR (R359): a write of FIO_DO_CLR. -/
def execDoFaultClear (v : BitVec 32) (s : State) : Host.Outcome State Fault Refusal :=
  .next (fAsked s (fun t => doClear t v))

/-- DO_OPENLD_SET (R358). -/
def execDoOpenldSet (n : Fin 8) (s : State) : Host.Outcome State Fault Refusal :=
  .next (if fWorks s && doOn (doCh s n) then setDoCh s n { doCh s n with openld := true } else s)

/-- DO_OPENLD_CLEAR (R358). -/
def execDoOpenldClear (n : Fin 8) (s : State) : Host.Outcome State Fault Refusal :=
  .next (setDoCh s n { doCh s n with openld := false })

/-- DO_EXT_DRIVE_SET (R358): an off channel's pin is driven; one record each time. -/
def execDoExtDriveSet (n : Fin 8) (s : State) : Host.Outcome State Fault Refusal :=
  let v := doCh s n
  .next (if fWorks s && !doOn v && !v.ext then fieldWarn (setDoCh s n { v with ext := true }) (8 + n.val) 0x0082 0 0 0
    else s)

/-- DO_EXT_DRIVE_CLEAR (R358). -/
def execDoExtDriveClear (n : Fin 8) (s : State) : Host.Outcome State Fault Refusal :=
  .next (setDoCh s n { doCh s n with ext := false })

/-! ### Digital inputs (R362, R363) -/

/-- Event enables of FIO_DI_EVT: FEN in bits 15:8, REN in 7:0; the edge bits lie likewise. -/
def diEdgeBit (n : Nat) (rise : Bool) : Nat := if rise then n else 8 + n

/-- FILT as it acts, in tenths of a millisecond (R362). -/
def diTenths (v : DiCh) : Nat := max 1 (min 250 v.filt.toNat)

/-- The samples of input n may have differed from its filtered state without a break for as long as FILT says, on F's oscillator,
which runs within 2 % of the time base (R349, R362); where the time base has stood meanwhile, only the command tells. -/
def diSettled (s : State) (n : Nat) : Bool :=
  !s.refclk || s.f.diLoose.getLsbD n || decide (since s (diCh s n).changed ≥ diTenths (diCh s n) * 98000)

/-- What a change of the filtered state of input n does (R362, R363): the edge bit, then the Bell, which must lie on a C-die of the
own chip. -/
def diChanged (n : Fin 8) (s : State) : State :=
  let v := diCh s n
  if fWorks s && diSettled s n then
      let i := diEdgeBit n (!v.state)
      let s1 := setDiCh s n { v with state := !v.state, changed := s.tb }
      let s2 := { s1 with f := { s1.f with
        edge := s1.f.edge ||| BitVec.ofNat 16 (2 ^ i), diLoose := s1.f.diLoose &&& ~~~(BitVec.ofNat 8 (2 ^ n.val)) } }
      let w := field s.f.evt 31 16
      if bit s.f.evt i && decide (nameChip w = ownChip s) then addNamed s2 5 0 w 1 .boot else s2
  else s

/-- DI_FILTERED_CHANGE (R362): a level or pulse that passes the glitch filter of DI0-DI7 first (16 R388, log entry 11). -/
def execDiFilteredChange (n : Fin 8) (s : State) : Host.Outcome State Fault Refusal :=
  .next (filtered .di s (diChanged n))

end Sys2Proof.Machine
end

