-- ==== Sys2Proof/Machine/Nonlin.lean ====
section
/-! DEFINITION. The nonlinear functions of a Lantern (06 R150, Table 6-1). The part's algorithms are not published, so a
result is the candidate that `Config` leaves free where it lies within the published bound, and the nearest number where
it does not (log entry 20); EXP, LN, SIGM and TANH take their candidates only where all of them together are monotonic. The exact results are approximated far more closely than the bounds ask. -/

namespace Sys2Proof.Machine

/-! ### Fixed point with 256 fraction bits -/

def fixP : Nat := 256
def fixOne : Nat := 2 ^ fixP

/-- Terms z^(2k+1) / (2k+1) from k on; p is the power. -/
def atanhSum : Nat → Nat → Nat → Nat → Nat
  | 0, _, _, _ => 0
  | n + 1, k, p, z2 => p / (2 * k + 1) + atanhSum n (k + 1) (p * z2 / fixOne) z2

/-- atanh z for 0 ≤ z ≤ 1/3. -/
def fixAtanh (z : Nat) : Nat := atanhSum 90 0 z (z * z / fixOne)

def fixLn2 : Nat := 2 * fixAtanh (fixOne / 3)

/-- Terms r^i / i! from i on; t is the i-th. -/
def expSum : Nat → Nat → Nat → Nat → Nat
  | 0, _, _, _ => 0
  | n + 1, i, t, r => t + expSum n (i + 1) (t * r / (fixOne * (i + 1))) r

/-- A positive real as m · 2^e, approximated. -/
structure Approx where
  m : Nat
  e : Int
  deriving DecidableEq, Repr

/-- e^x for x in fixed point. Far below every format it is 2^-300. -/
def approxExp (x : Int) : Approx :=
  if x < -200 * (fixOne : Int) then ⟨1, -300⟩
  else
    let k := x / (fixLn2 : Int)
    ⟨expSum 64 0 fixOne (x - k * fixLn2).toNat, k - fixP⟩

/-- m · 2^e in fixed point; every binary32 number has e ≥ -149. Values past 1000 are cut to 1000. -/
def fixOf (m : Nat) (e : Int) : Nat :=
  if topExp m e > 9 then 1000 * fixOne else m * 2 ^ (e + fixP).toNat

/-- ln (m · 2^e), m > 0, as a sign and an approximation. -/
def approxLn (m : Nat) (e : Int) : Bool × Approx :=
  let k := topExp m e
  let f := m * fixOne / 2 ^ Nat.log2 m
  let v : Int := k * fixLn2 + 2 * (fixAtanh ((f - fixOne) * fixOne / (f + fixOne)) : Nat)
  (decide (v < 0), ⟨v.natAbs, -(fixP : Int)⟩)

/-- 1 / (1 + e^-x) for x = ± a, a in fixed point. -/
def approxSigm (neg : Bool) (a : Nat) : Approx :=
  let E := approxExp (-(a : Int))
  let one := 2 ^ (-E.e).toNat
  ⟨(if neg then E.m else one) * 2 ^ 600 / (one + E.m), -600⟩

/-- tanh a, a > 0 in fixed point. -/
def approxTanh (a : Nat) : Approx :=
  let E := approxExp (-(2 * a : Nat))
  let one := 2 ^ (-E.e).toNat
  ⟨(one - E.m) * 2 ^ 600 / (one + E.m), -600⟩

/-- 1 / (m · 2^e), the last bit telling whether something is left. -/
def approxRcp (m : Nat) (e : Int) : Approx :=
  ⟨2 * (2 ^ 300 / m) + b2n (decide (2 ^ 300 % m ≠ 0)), -e - 301⟩

/-- 1 / √(m · 2^e), the last bit telling whether something is left. -/
def approxRsqrt (m : Nat) (e : Int) : Approx :=
  let m1 := if e % 2 = 0 then m else 2 * m
  let e1 := if e % 2 = 0 then e else e - 1
  let q := 2 ^ 400 / m1
  let r := isqrt q
  ⟨2 * r + b2n (decide (r * r * m1 ≠ 2 ^ 400)), -(e1 / 2) - 201⟩

/-! ### Bounds -/

/-- m1 · 2^e1 ≤ m2 · 2^e2. -/
def scaledLe (m1 : Nat) (e1 : Int) (m2 : Nat) (e2 : Int) : Bool :=
  let e := min e1 e2
  decide (m1 * 2 ^ (e1 - e).toNat ≤ m2 * 2 ^ (e2 - e).toNat)

/-- The exponent of an ulp of an exact result (R150). -/
def ulpExp (f : FFmt) (y : Approx) : Int := max (topExp y.m y.e) (fEmin f) - f.mb

/-- A finite candidate lies within k · 2^q of (-1)^s · y. -/
def within (f : FFmt) (c : Nat) (s : Bool) (y : Approx) (k : Nat) (q : Int) : Bool :=
  match unpack f c with
  | .fin sc mc ec =>
    let d := exactSum sc mc ec (!s) y.m y.e
    scaledLe d.2.1 d.2.2 k q
  | _ => false

/-- A candidate cut to its format. -/
def cutTo (f : FFmt) (c : Word) : Nat := c.toNat % 2 ^ (1 + f.eb + f.mb)

/-- The candidate where it is acceptable, else the nearest number. -/
def nlPick (f : FFmt) (c : Nat) (s : Bool) (y : Approx) (ok : Bool) : Nat := if ok then c else (roundTo f 0 s y.m y.e).1

/-- Bounds in ulps: Table 6-1 in binary32, one ulp in binary16. -/
def ulps (f : FFmt) (k : Nat) : Nat := if f = b32 then k else 1

/-- A function of R150 at one operand, given whether its candidates are taken: the result with what it raises, and whether
the candidate there is acceptable. -/
abbrev NlFun := Bool → Nat → (Nat × Exc) × Bool

/-- Every operand of a format. -/
def fAll (f : FFmt) : List Nat := upTo (2 ^ (1 + f.eb + f.mb))

/-- The candidates of a function make a function that meets R150: each lies within its bound, and together they are monotonic
non-decreasing. -/
def nlWhole (f : FFmt) (g : NlFun) : Bool :=
  (fAll f).all (fun x => (g true x).2) &&
    (fAll f).all (fun x => (fAll f).all (fun y => !fLt f x y || !fLt f (g true y).1.1 (g true x).1.1))

/-- A monotonic function of R150: its candidates as a whole, or the nearest numbers as a whole. -/
def nlMono (f : FFmt) (g : NlFun) (x : Nat) : Nat × Exc := (g (nlWhole f g) x).1

/-- The exact result is below the smallest normal (R150). -/
def nlTiny (f : FFmt) (y : Approx) : Bool := decide (topExp y.m y.e < fEmin f)

def fOne (f : FFmt) : Nat := fBias f * 2 ^ f.mb
def fHalf (f : FFmt) : Nat := (fBias f - 1) * 2 ^ f.mb

/-- num/den < m · 2^e. -/
def aboveDec (m : Nat) (e : Int) (num den : Nat) : Bool := !scaledLe (m * den) e num 0

/-! ### The functions -/

/-- EXP at one operand. -/
def nlExpAt (f : FFmt) (use : Bool) (x : Nat) : (Nat × Exc) × Bool :=
  match unpack f x with
  | .nan _ => (nanResult f [x], true)
  | .inf s => ((if s then 0 else fInf f false, excNone), true)
  | .fin s m e =>
    let hi := if f = b32 then aboveDec m e 887228 10000 else aboveDec m e 11089 1000
    let lo := if f = b32 then aboveDec m e 873365 10000 else aboveDec m e 9704 1000
    if m = 0 then ((fOne f, excNone), true)
    else if !s && hi then ((fInf f false, { ov := true, nx := true }), true)
    else
      let a : Int := fixOf m e
      let y := approxExp (if s then -a else a)
      let c := cutTo f (if f = b32 then Config.exp32 (w32 x) else Config.exp16 (w32 x))
      let k := if s && lo then 1 else ulps f 2
      ((nlPick f c false y use, { nx := true, uf := (s && lo) || nlTiny f y }), within f c false y k (ulpExp f y) && !fSign f c)

/-- EXP. -/
def nlExp (f : FFmt) (x : Nat) : Nat × Exc := nlMono f (nlExpAt f) x

/-- LN at one operand (R150): a finite negative one sets INV, as Table 6-1 names for it, and INX, as LN does for every input but ±0,
the infinities and 1.0. A NaN operand sets neither (DEDUCED, log entry 20). -/
def nlLnAt (f : FFmt) (use : Bool) (x : Nat) : (Nat × Exc) × Bool :=
  match unpack f x with
  | .nan _ => (nanResult f [x], true)
  | .inf s => (if s then fInvalid f else (x, excNone), true)
  | .fin s m e =>
    if m = 0 then ((fInf f true, excDz), true)
    else if s then ((fNaN f, { nv := true, nx := true }), true)
    else if x = fOne f then ((0, excNone), true)
    else
      let y := approxLn m e
      let c := cutTo f (if f = b32 then Config.ln32 (w32 x) else Config.ln16 (w32 x))
      ((nlPick f c y.1 y.2 use, { nx := true, uf := nlTiny f y.2 }), within f c y.1 y.2 (ulps f 2) (ulpExp f y.2))

/-- LN. -/
def nlLn (f : FFmt) (x : Nat) : Nat × Exc := nlMono f (nlLnAt f) x

/-- SIGM at one operand. -/
def nlSigmAt (f : FFmt) (use : Bool) (x : Nat) : (Nat × Exc) × Bool :=
  match unpack f x with
  | .nan _ => (nanResult f [x], true)
  | .inf s => ((if s then 0 else fOne f, excNone), true)
  | .fin s m e =>
    if m = 0 then ((fHalf f, excNone), true)
    else
      let y := approxSigm s (fixOf m e)
      let c := cutTo f (if f = b32 then Config.sigm32 (w32 x) else Config.sigm16 (w32 x))
      let rel := decide (f = b32) && s && aboveDec m e 87 1 || within f c false y (ulps f 3) (ulpExp f y)
      let ok := rel && (decide (f ≠ b32) || within f c false y 1 (-24)) && !fSign f c && !fLt f (fOne f) c
      ((nlPick f c false y use, { nx := true, uf := nlTiny f y }), ok)

/-- SIGM. -/
def nlSigm (f : FFmt) (x : Nat) : Nat × Exc := nlMono f (nlSigmAt f) x

/-- TANH at one operand. -/
def nlTanhAt (f : FFmt) (use : Bool) (x : Nat) : (Nat × Exc) × Bool :=
  match unpack f x with
  | .nan _ => (nanResult f [x], true)
  | .inf s => ((fSignBit f s + fOne f, excNone), true)
  | .fin s m e =>
    if m = 0 then ((x, excNone), true)
    else
      let y := approxTanh (fixOf m e)
      if f = b32 && !scaledLe 1 (-12) m e then ((x, { nx := true, uf := scaledLe m e 1 (fEmin f) }), true)
      else
        let c := cutTo f (if f = b32 then Config.tanh32 (w32 x) else Config.tanh16 (w32 x))
        let ok := within f c s y (ulps f 3) (ulpExp f y) && !fLt f (fOne f) (fAbs f c) && decide (fSign f c = s)
        ((nlPick f c s y use, { nx := true, uf := scaledLe m e 1 (fEmin f) }), ok)

/-- TANH. -/
def nlTanh (f : FFmt) (x : Nat) : Nat × Exc := nlMono f (nlTanhAt f) x

/-- RCP. The reciprocal of a subnormal that is too large for the format is an infinity with OVF and INX (DEDUCED, log entry 20). -/
def nlRcp (f : FFmt) (x : Nat) : Nat × Exc :=
  match unpack f x with
  | .nan _ => nanResult f [x]
  | .inf s => (fZero f s, excNone)
  | .fin s m e =>
    if m = 0 then (fInf f s, excDz)
    else
      let y := approxRcp m e
      let near := roundTo f 0 s y.m y.e
      if near.2.ov || !near.2.nx then near
      else
        let c := cutTo f (if f = b32 then Config.rcp32 (w32 x) else Config.rcp16 (w32 x))
        let ok := within f c s y 1 (ulpExp f y) && decide (fSign f c = s)
        (nlPick f c s y ok, { nx := true, uf := nlTiny f y })

/-- RSQRT. -/
def nlRsqrt (f : FFmt) (x : Nat) : Nat × Exc :=
  match unpack f x with
  | .nan _ => nanResult f [x]
  | .inf s => if s then fInvalid f else (0, excNone)
  | .fin s m e =>
    if m = 0 then (fInf f s, excDz)
    else if s then fInvalid f
    else
      let y := approxRsqrt m e
      let c := cutTo f (if f = b32 then Config.rsqrt32 (w32 x) else Config.rsqrt16 (w32 x))
      let r := nlPick f c false y (within f c false y 1 (ulpExp f y))
      let sq := match unpack f r with
        | .fin _ mr er => scaledLe (mr * mr * m) (2 * er + e) 1 0 && scaledLe 1 0 (mr * mr * m) (2 * er + e)
        | _ => false
      (r, { nx := !sq })

end Sys2Proof.Machine
end

