-- ==== Sys2Proof/Machine/Plinth.lean ====
section
/-! DEFINITION. The commands of a Plinth: CLEAR, PRELOAD, DRAIN, READT, WRITET and CHAIN (05 sections 5.1.6, 5.1.7, 5.2.3
and 5.2.4), and stores to it. -/

namespace Sys2Proof.Machine

/-! ### Fields (Table 5-2) -/

/-- DFMT and SFMT. -/
def dataFmt (k : Nat) : Option NFmt :=
  match k with
  | 0 => some .v8
  | 1 => some .g8
  | 2 => some .b16
  | 3 => some .b32
  | 4 => some .i8
  | 5 => some .i16
  | 6 => some .i32
  | _ => none

/-- YFMT. -/
def yFmt (k : Nat) : NFmt :=
  match k with
  | 0 => .v8
  | 1 => .g8
  | 2 => .b16
  | _ => .b32

/-- The rows that a command names lie in the Plinth. -/
def rowsOk (u : UnitCmd) : Bool := decide (cmdRow u + cmdM u ≤ 512)

/-- The stride of written rows: their length rounded up to 64 bytes (R123). -/
def rowStride (n : Nat) : Nat := (n + 63) / 64 * 64

/-- Opcode and masks of a command. -/
def plOk (u : UnitCmd) (opc : Nat) (masks : List Word) : Bool :=
  decide (cmdOpc u = opc) && masksOk masks u.w && rowsOk u

/-- The columns of a command's rows. -/
def cmdCells (u : UnitCmd) : List (Nat × Nat) :=
  (upTo (cmdM u)).flatMap (fun m => (upTo (cmdN u)).map (fun n => (m, n)))

def cellIdx (u : UnitCmd) (c : Nat × Nat) : Nat := (cmdRow u + c.1) * 64 + c.2

/-- The Plinth's part of a command refused. -/
def plReject (s : State) (d : Fin 4) (n : Fin 8) : State := finishCmd s (.plinth d n) 1 0 0

/-- The Plinth's command in execution handed to its meaning where the opcode is its own; any other opcode that a Plinth
does not accept is refused. -/
def plRun (s : State) (d : Fin 4) (n : Fin 8) (opc : Nat) (f : UnitCmd → State) : State :=
  match (plinth s d n).cmd with
  | none => s
  | some u =>
    if (plinth s d n).settling || (plinth s d n).awaiting then s
    else if cmdOpc u = opc then f u
    else if cmdOpc u < 8 ∨ 13 < cmdOpc u then plReject s d n
    else s

/-- Pairs that were held and now follow in order are folded, on every cell of a command. -/
def foldCells (s : State) (d n : Nat) : List Nat → State
  | [] => s
  | i :: is => foldCells (foldHeld (plinth s d n).held.length s d n i) d n is

/-! ### CLEAR, PRELOAD, WRITET (R129) -/

/-- CLEAR. -/
def execClear (d : Fin 4) (n : Fin 8) (s : State) : Host.Outcome State Fault Refusal :=
  .next (plRun s d n 8 (fun u =>
    if plOk u 8 [0xF800_000E, mRows, 0, 0, 0, 0, 0, mAll] then
      let p := clearAccs (plinth s d n) (cmdRow u) (cmdM u) (cmdN u)
      finishCmd (setPlinth s d n (setMode p (cmdRow u) (cmdM u) (bit (wordAt u.w 0) 27))) (.plinth d n) 0 0 0
    else plReject s d n))

/-- A value read as binary32, exactly and flushed (R66, R129). -/
def toB32 (f : NFmt) (x : Nat) : Nat × Tally :=
  match f with
  | .b32 => flush32 x
  | .b16 => if isSub b16 x then (fZero b32 (fSign b16 x), tallyFlush) else convert .b16 .b32 ⟨false, false, false⟩ 0 0 x
  | f => convert f .b32 ⟨false, false, false⟩ 0 0 x

/-- The sum word that PRELOAD writes for an element. -/
def preWord (f : NFmt) (x : Nat) : Nat × Tally :=
  if nfIsInt f then (intBits 32 (signed (nfBits f) x), {}) else toB32 f x

/-- An element of a row in memory. -/
def elemAt (bs : List Byte) (f : NFmt) (i : Nat) : Nat := leNat ((bs.drop (i * nfSize f)).take (nfSize f))

/-- Accumulators written by PRELOAD and WRITET: NEXT 0, count 1. -/
def putAccs (p : Plinth) : List (Nat × Word × Word) → Plinth
  | [] => p
  | (i, v, e) :: r => putAccs { p with acc := tabSet p.acc i ⟨v, e, 0, 1⟩ } r

/-- Accumulators written, the rows' mode set, and what was held folded where it follows; the command completes. -/
def plWritten (s : State) (d : Fin 4) (n : Fin 8) (u : UnitCmd) (int : Bool) (es : List ((Nat × Word × Word) × Tally)) :
    State :=
  let t := tallyAll es
  let p := setMode (putAccs (plinth s d n) (es.map (·.1))) (cmdRow u) (cmdM u) int
  let s1 := plFlags (setPlinth s d n p) d n t.flags
  finishCmd (foldCells s1 d n ((cmdCells u).map (cellIdx u))) (.plinth d n) 0 (counterWord t.sat t.flush) 0

/-- Bytes from the first to the last that PRELOAD reads (log entry 30). -/
def preLen (u : UnitCmd) (f : NFmt) : Nat :=
  let row := cmdN u * nfSize f
  if bit (wordAt u.w 0) 24 then row else (cmdM u - 1) * rowStride row + row

/-- The rows that PRELOAD reads, without the gaps between them: offset and length of each. -/
def preSpans (u : UnitCmd) (f : NFmt) : List (Nat × Nat) :=
  let row := cmdN u * nfSize f
  if bit (wordAt u.w 0) 24 then [(0, row)] else (upTo (cmdM u)).map (fun m => (m * rowStride row, row))

/-- The elements of a PRELOAD. With BCAST = 1 a flushed source value counts for each row that it is written to (DEDUCED, log entry
72). -/
def preElems (u : UnitCmd) (f : NFmt) (bs : List Byte) : List ((Nat × Word × Word) × Tally) :=
  let stride := if bit (wordAt u.w 0) 24 then 0 else rowStride (cmdN u * nfSize f)
  (cmdCells u).map (fun c =>
    let r := preWord f (elemAt (bs.drop (c.1 * stride)) f c.2)
    ((cellIdx u c, w32 r.1, 0), r.2))

/-- PRELOAD (R129). -/
def execPreload (d : Fin 4) (n : Fin 8) (s : State) : Host.Outcome State Fault Refusal :=
  .next (plRun s d n 9 (fun u =>
    match dataFmt (field (wordAt u.w 0) 27 25) with
    | none => plReject s d n
    | some f =>
      let a := vAddr (wordAt u.w 3)
      if plOk u 9 [0xFF00_000E, mRows, 0, mAddr, 0, 0, 0, mAll] && inVault a (preLen u f) then
        match rdSpans s d a (preLen u f) (preSpans u f) (w32 (0x20 + n.val)) with
        | (none, t) => t
        | (some bs, t) => plWritten t d n u (nfIsInt f) (preElems u f bs)
      else plReject s d n))

/-- Bytes of a raw tile, rows 512 bytes apart. -/
def rawLen (u : UnitCmd) : Nat := (cmdM u - 1) * 512 + cmdN u * 8

/-- The rows of a raw tile, without the gaps between them. -/
def rawSpans (u : UnitCmd) : List (Nat × Nat) := (upTo (cmdM u)).map (fun m => (m * 512, cmdN u * 8))

/-- A raw word as WRITET takes it into an FP or an INT row. -/
def rawWord (int : Bool) (x : Word) : Word × Tally :=
  if int then (x, {}) else let r := flush32 x.toNat; (w32 r.1, r.2)

/-- The elements of a WRITET. -/
def rawElems (u : UnitCmd) (int : Bool) (bs : List Byte) : List ((Nat × Word × Word) × Tally) :=
  (cmdCells u).map (fun c =>
    let b := bs.drop (c.1 * 512 + c.2 * 8)
    let v := rawWord int (leWord (b.take 4))
    let e := if int then (0, {}) else rawWord false (leWord ((b.drop 4).take 4))
    ((cellIdx u c, v.1, e.1), tallyAdd v.2 e.2))

/-- WRITET (R129). -/
def execWritet (d : Fin 4) (n : Fin 8) (s : State) : Host.Outcome State Fault Refusal :=
  .next (plRun s d n 12 (fun u =>
    let a := vAddr (wordAt u.w 3)
    if plOk u 12 [0xF800_000E, mRows, 0, mAddr, 0, 0, 0, mAll] && inVault a (rawLen u) then
      match rdSpans s d a (rawLen u) (rawSpans u) (w32 (0x20 + n.val)) with
      | (none, t) => t
      | (some bs, t) => plWritten t d n u (bit (wordAt u.w 0) 27) (rawElems u (bit (wordAt u.w 0) 27) bs)
    else plReject s d n))

/-! ### READT (R113, R129) -/

/-- The two words of an accumulator as the address space shows them; the error word of an INT row reads 0 (R110). -/
def accWords (p : Plinth) (i : Nat) : Word × Word :=
  ((acc p i).sum, if rowIsInt p (i / 64) then 0 else (acc p i).err)

/-- Some accumulator that a command reads has passed 65,536 terms (R116). -/
def anyLong (p : Plinth) (u : UnitCmd) : Bool := (cmdCells u).any (fun c => decide ((acc p (cellIdx u c)).cnt > 65536))

/-- Rows of bytes written to the Vault, each at its address. -/
def wrRows (s : State) (d : Nat) (port : Word) : List (Nat × List Byte) → Option State × State
  | [] => (some s, s)
  | (a, bs) :: rest =>
    match wrVault s d a bs port with
    | (some t, _) => wrRows t d port rest
    | (none, t) => (none, t)

/-- The raw rows of a READT. -/
def rawRows (p : Plinth) (u : UnitCmd) : List (Nat × List Byte) :=
  (upTo (cmdM u)).map (fun m => (vAddr (wordAt u.w 3) + m * 512,
    (upTo (cmdN u)).flatMap (fun n => let a := accWords p (cellIdx u (m, n)); wordLe a.1 ++ wordLe a.2)))

/-- A READT whose rows have settled. -/
def readtRun (s : State) (d : Fin 4) (n : Fin 8) (u : UnitCmd) : State :=
  let p := plinth s d n
  match wrRows s d (w32 (0x20 + n.val)) (rawRows p u) with
  | (none, t) => t
  | (some t, _) => finishCmd t (.plinth d n) (if anyLong p u then 0x0A else 0) 0 0

/-! ### DRAIN (R121-R123; 03 R72) -/

structure DrainCmd where
  df : NFmt
  mode : Nat
  k : Nat
  keep : Bool
  yf : NFmt
  t : Nat
  daddr : Nat
  yaddr : Nat
  pcol : Nat
  nc : NCtl
  deriving Repr

def drainFields (u : UnitCmd) : Option DrainCmd :=
  let w := wordAt u.w 0
  match dataFmt (field w 27 25) with
  | none => none
  | some f =>
    some { df := f, mode := field w 24 22, k := field w 21 17 + 1, keep := bit w 16, yf := yFmt (field w 15 14),
           t := (wordAt u.w 2).toNat, daddr := vAddr (wordAt u.w 3), yaddr := vAddr (wordAt u.w 4),
           pcol := field (wordAt u.w 5) 31 16, nc := nctlOf w }

/-- Elements that a DRAIN writes in a row. -/
def drainCols (u : UnitCmd) (c : DrainCmd) : Nat := if c.mode = 5 then c.k else cmdN u

/-- Bytes from YADDR that a DRAIN reads or writes. -/
def drainY (u : UnitCmd) (c : DrainCmd) : Nat :=
  match c.mode with
  | 1 => 4 * cmdM u
  | 2 => 4 * cmdM u
  | 3 => cmdN u * nfSize c.yf
  | 4 => cmdN u * nfSize c.yf
  | 5 => 2 * cmdM u * c.k
  | _ => 0

def drainOk (u : UnitCmd) (c : DrainCmd) : Bool :=
  let row := drainCols u c * nfSize c.df
  plOk u 10 [0xFFFF_C00E, mRows, mAll, mAddr, mAddr, 0xFFFF_0000, 0, mAll] && decide (c.mode ≤ 5)
    && (decide (c.mode ≠ 5) || decide (c.k ≤ cmdN u)) && inVault c.daddr ((cmdM u - 1) * rowStride row + row)
    && (decide (c.mode = 0) || inVault c.yaddr (drainY u c))

/-- An element on its way: its binary32 value, the integer it stays where an INT row goes to an integer format, and the
integer that an INT row's values compare by. -/
structure DElem where
  v : Nat
  int : Option Int
  cmp : Option Int
  deriving DecidableEq, Repr

/-- v under R72; t is the flushed scale. -/
def drainV (p : Plinth) (c : DrainCmd) (t i : Nat) : DElem × Tally :=
  let a := acc p i
  if rowIsInt p (i / 64) then
    let x := signed 32 a.sum.toNat
    if nfIsInt c.df then (⟨flInt a.sum.toNat, some x, some x⟩, {})
    else let r := flMul (flInt a.sum.toNat) t; (⟨r.1, none, some x⟩, r.2)
  else
    let r1 := flAdd a.sum.toNat a.err.toNat
    let r2 := flMul r1.1 t
    (⟨r2.1, none, none⟩, tallyAdd r1.2 r2.2)

/-- v + y and v · y: an element that is still an integer (R122) takes part exactly. -/
def elemAdd (e : DElem) (y : Nat) : Nat × Tally :=
  match e.int with
  | some x => flAddInt x y
  | none => flAdd e.v y
def elemMul (e : DElem) (y : Nat) : Nat × Tally :=
  match e.int with
  | some x => flMulInt x y
  | none => flMul e.v y

/-- Step 2 of R121: ADD or MUL with y, which every element forms and flushes for itself. -/
def drainWithY (c : DrainCmd) (e : DElem) (y : Nat × Tally) : DElem × Tally :=
  if c.mode = 3 then let r := elemAdd e y.1; (⟨r.1, none, e.cmp⟩, tallyAdd y.2 r.2)
  else if c.mode = 4 then let r := elemMul e y.1; (⟨r.1, none, e.cmp⟩, tallyAdd y.2 r.2)
  else (e, {})

/-- y of every column, converted and flushed. -/
def drainYs (u : UnitCmd) (c : DrainCmd) (bs : List Byte) : List (Nat × Tally) :=
  if c.mode = 3 ∨ c.mode = 4 then (upTo (cmdN u)).map (fun n => toB32 c.yf (elemAt bs c.yf n)) else []

/-- Row m of a DRAIN after steps 1 and 2. -/
def drainRow (p : Plinth) (u : UnitCmd) (c : DrainCmd) (t : Nat) (ys : List (Nat × Tally)) (m : Nat) :
    List (DElem × Tally) :=
  (upTo (cmdN u)).map (fun n =>
    let e := drainV p c t (cellIdx u (m, n))
    let r := drainWithY c e.1 (ys.getD n (0, {}))
    (r.1, tallyAdd e.2 r.2))

/-- Generators of lanes and what conversions have counted. -/
structure Gens where
  seed : Word
  base : Nat
  tab : Tab Word
  tally : Tally
  deriving Repr

/-- The generator of a lane. -/
def genOf (g : Gens) (lane : Nat) : Word := tabGet (genInit g.seed (g.base + lane)) g.tab lane

/-- One element converted in a lane: its generator advances where R68 says so. -/
def convLane (g : Gens) (lane : Nat) (src dst : NFmt) (nc : NCtl) (rm x : Nat) : Nat × Gens :=
  if nc.sr && convDraws src dst then
    let n := lfsrNext12 (genOf g lane)
    let r := convert src dst nc rm (n.toNat % 4096) x
    (r.1, { g with tab := tabSet g.tab lane n, tally := tallyAdd g.tally r.2 })
  else
    let r := convert src dst nc rm 0 x
    (r.1, { g with tally := tallyAdd g.tally r.2 })

/-- A binary16 result below its normal range is flushed on its way out of a Plinth (03 R66), after rule L has rounded it:
INX of the rounding stays, and a value that rounded to zero counts no flush (DEDUCED, log entry 61). -/
def flushOut (dst : NFmt) (x : Nat) : Nat × Tally :=
  if dst = .b16 && isSub b16 x then (fZero b16 (fSign b16 x), tallyFlush) else (x, {})

/-- An element written in DFMT (step 3 of R121). Rule L rounds to nearest-even here: a Plinth has no rounding attribute
(DEDUCED, log entry 61). -/
def drainConv (g : Gens) (lane : Nat) (c : DrainCmd) (e : DElem) : Nat × Gens :=
  let r := match e.int with
    | some x => convLane g lane .i32 c.df c.nc 0 (intBits 32 x)
    | none => convLane g lane .b32 c.df c.nc 0 e.v
  let f := flushOut c.df r.1
  (f.1, { r.2 with tally := tallyAdd r.2.tally f.2 })

/-- Elements written from lane 256 + j on. -/
def drainConvs (c : DrainCmd) : Gens → Nat → List DElem → List Nat × Gens
  | g, _, [] => ([], g)
  | g, j, e :: es =>
    let r := drainConv g (256 + j) c e
    let rest := drainConvs c r.2 (j + 1) es
    (r.1 :: rest.1, rest.2)

/-- The no-number of a format; 0 for an integer one. -/
def noNumber (f : NFmt) : Nat :=
  match f with
  | .v8 | .g8 => 0x7F
  | .b16 => fNaN b16
  | .b32 => fNaN b32
  | _ => 0

/-- The bytes of elements of a format. -/
def elemBytes (f : NFmt) (xs : List Nat) : List Byte := xs.flatMap (natLe (nfSize f))

/-- a comes before b in TOPK: larger, or equal with the lower position (R123). -/
def topBefore (a b : Nat × DElem) : Bool :=
  match a.2.cmp, b.2.cmp with
  | some x, some y => decide (y < x) || (decide (x = y) && decide (a.1 < b.1))
  | _, _ => fLt b32 b.2.v a.2.v || (!fLt b32 a.2.v b.2.v && decide (a.1 < b.1))

/-- Put in its place among elements in order. -/
def topInsert (a : Nat × DElem) : List (Nat × DElem) → List (Nat × DElem)
  | [] => [a]
  | b :: bs => if topBefore a b then a :: b :: bs else b :: topInsert a bs

/-- The K first eligible elements of a row with their columns. -/
def topK (k : Nat) (es : List DElem) : List (Nat × DElem) :=
  let el := ((upTo es.length).zip es).filter (fun e => !isNaN b32 e.2.v)
  (el.foldl (fun l e => topInsert e l) []).take k

/-- ROWMAX of a row; +0 is taken before -0 (DEDUCED, log entry 61). -/
def rowMax (es : List DElem) : Nat :=
  match es.filter (fun e => !isNaN b32 e.v) with
  | [] => fNaN b32
  | e :: r => r.foldl (fun m x => (fMax b32 m x.v).1) e.v

/-- ROWSUM of a row, from its first v on (DEDUCED, log entry 61). -/
def rowSum (es : List DElem) : Nat × Tally :=
  match es with
  | [] => (0, {})
  | e :: r =>
    let o := r.foldl (fun (m : Nat × Tally) x => let a := flAdd m.1 x.v; (a.1, tallyAdd m.2 a.2)) (e.v, {})
    (if isNaN b32 o.1 then fNaN b32 else o.1, o.2)

/-- What row m of a DRAIN writes: rows of bytes with their addresses; generators and counts go along. A column number past 0xFFFF is
written modulo 65,536, and equal values are ordered by column (DEDUCED, log entry 61). -/
def drainOut (u : UnitCmd) (c : DrainCmd) (g : Gens) (m : Nat) (es : List DElem) : List (Nat × List Byte) × Gens :=
  if c.mode = 5 then
    let top := topK c.k es
    let r := drainConvs c g 0 (top.map (·.2))
    let vals := (r.1 ++ List.replicate c.k (noNumber c.df)).take c.k
    let poss := ((top.map (fun (e : Nat × DElem) => (c.pcol + e.1) % 65536)) ++ List.replicate c.k 0xFFFF).take c.k
    let tile : Nat × List Byte := (c.daddr + m * rowStride (c.k * nfSize c.df), elemBytes c.df vals)
    ([tile, (c.yaddr + 2 * (m * c.k), poss.flatMap (natLe 2))], r.2)
  else
    let r := drainConvs c g 0 es
    let tile := (c.daddr + m * rowStride (cmdN u * nfSize c.df), elemBytes c.df r.1)
    if c.mode = 1 then ([tile, (c.yaddr + 4 * m, natLe 4 (rowMax es))], r.2)
    else if c.mode = 2 then
      let q := rowSum es
      ([tile, (c.yaddr + 4 * m, natLe 4 q.1)], { r.2 with tally := tallyAdd r.2.tally q.2 })
    else ([tile], r.2)

/-- Every row from m on: what is written, generators and counts, and the running maximum. -/
def drainRows (p : Plinth) (u : UnitCmd) (c : DrainCmd) (t : Nat) (ys : List (Nat × Tally)) :
    Nat → Nat → Gens → Nat → List (Nat × List Byte) × Gens × Nat
  | 0, _, g, mx => ([], g, mx)
  | k + 1, m, g, mx =>
    let row := drainRow p u c t ys m
    let es := row.map (·.1)
    let o := drainOut u c { g with tally := tallyAdd g.tally (tallyAll row) } m es
    let rest := drainRows p u c t ys k (m + 1) o.2 (es.foldl (fun x e => runMax x e.v) mx)
    (o.1 ++ rest.1, rest.2)

/-- A pending reseed takes effect (03 R75). -/
def plReseed (s : State) (p : Plinth) : Plinth :=
  if p.reseed then { p with genSeed := p.seed ^^^ w32 (ownChip s * 16384), gens := [], reseed := false } else p

/-- A DRAIN whose rows have settled. Its T is read, and flushed, once, whether or not an element takes it (DEDUCED, log entry
72), and with KEEP = 0 its rows keep their mode (DEDUCED, log entry 58). -/
def drainRun (s : State) (d : Fin 4) (n : Fin 8) (u : UnitCmd) (c : DrainCmd) : State :=
  let port := w32 (0x20 + n.val)
  let yr := if c.mode = 3 ∨ c.mode = 4 then rdVault s d c.yaddr (drainY u c) port else (some [], s)
  match yr with
  | (none, t) => t
  | (some yb, s1) =>
    let p := plinth s1 d n
    let tf := flush32 c.t
    let ys := drainYs u c yb
    let g : Gens := ⟨p.genSeed, d.val * 4096 + n.val * 512, p.gens, tf.2⟩
    let r := drainRows p u c tf.1 ys (cmdM u) 0 g 0
    match wrRows s1 d port r.1 with
    | (none, t) => t
    | (some s2, _) =>
      let t := r.2.1.tally
      let q := plinth s2 d n
      let q1 := { q with gens := r.2.1.tab, runmax := w32 r.2.2 }
      let q2 := if c.keep then q1 else clearAccs q1 (cmdRow u) (cmdM u) (cmdN u)
      finishCmd (plFlags (setPlinth s2 d n q2) d n t.flags) (.plinth d n) (if anyLong p u then 0x0A else 0)
        (counterWord t.sat t.flush) (w32 r.2.2)

/-! ### CHAIN (R124-R126) -/

/-- The tile that a CHAIN's rows hold. -/
def chainLocal (p : Plinth) (u : UnitCmd) : List (Nat × List (Word × Word × Nat)) :=
  (upTo (cmdM u)).map (fun m => (m, (upTo (cmdN u)).map (fun n =>
    let i := cellIdx u (m, n)
    ((accWords p i).1, (accWords p i).2, (acc p i).cnt))))

/-- One element combined with the incoming one (R124); in an INT row the int32 words are added and the error word is 0
(DEDUCED, log entry 58). -/
def chainElem (int : Bool) (a b : Word × Word × Nat) : (Word × Word × Nat) × Tally :=
  let cnt := min (a.2.2 + b.2.2) 65537
  if int then ((a.1 + b.1, 0, cnt), {})
  else
    let r := chainWords a.1.toNat a.2.1.toNat b.1.toNat b.2.1.toNat
    ((w32 r.1, w32 r.2.1, cnt), r.2.2)

def chainZip (int : Bool) : List (Word × Word × Nat) → List (Word × Word × Nat) → List ((Word × Word × Nat) × Tally)
  | a :: as, b :: bs => chainElem int a b :: chainZip int as bs
  | _, _ => []

/-- The combined tile. -/
def chainMix (p : Plinth) (u : UnitCmd) (b : ChainBuf) : List ((Nat × List (Word × Word × Nat)) × Tally) :=
  (chainLocal p u).map (fun r =>
    let z := chainZip (rowIsInt p (cmdRow u + r.1)) (tabGet [] b.rows r.1) r.2
    ((r.1, z.map (·.1)), tallyAll z))

/-- A tile put into the rows of a LAST position: the commit. -/
def chainPut (p : Plinth) (u : UnitCmd) : List (Nat × List (Word × Word × Nat)) → Plinth
  | [] => p
  | (m, es) :: rest =>
    let put := fun (q : Plinth) (e : Nat × (Word × Word × Nat)) =>
      let i := cellIdx u (m, e.1)
      setAcc q i { acc q i with sum := e.2.1, err := e.2.2.1, cnt := e.2.2.2 }
    chainPut (((upTo es.length).zip es).foldl put p) u rest

def tileLong (rows : List (Nat × List (Word × Word × Nat))) : Bool := rows.any (fun r => r.2.any (fun e => decide (e.2.2 > 65536)))

/-- The outgoing tile of a position committed or sent. -/
def chainLeave (s : State) (d : Fin 4) (n : Fin 8) (u : UnitCmd) (rows : List (Nat × List (Word × Word × Nat))) : State :=
  let st : Nat := if tileLong rows then 0x0A else 0
  let s1 := setPlinth s d n { plinth s d n with chainStat := BitVec.ofNat 8 st }
  if cmdLast u then chainEnd (setPlinth s1 d n (chainPut (plinth s1 d n) u rows)) d n st
  else chainSend s1 d n u rows

/-- A CHAIN whose rows have settled (R124). -/
def chainRun (s : State) (d : Fin 4) (n : Fin 8) (u : UnitCmd) : State :=
  let s1 := setPlinth s d n { plinth s d n with awaiting := true, chainCnt := 0 }
  if chainCut s d u then chainBreak s1 d n
  else if cmdFirst u then chainLeave s1 d n u (chainLocal (plinth s d n) u)
  else s1

/-- The whole tile of a buffer has arrived and fits the command. -/
def chainWhole (u : UnitCmd) (b : ChainBuf) : Bool := decide (b.rows.length = cmdM u)

/-- CHAIN_COMBINE (R124, R126): the incoming tile is combined, or the break that keeps it away is found. A row or column count
that differs is found as soon as one row of the tile has arrived; the break frees the buffer, and rows of the same CHID that
arrive later take a buffer again. R126 says neither when it is found nor what becomes of those rows, and R124 not when the local rows
are read: here they are read as the tile is combined (DESIGN CHOICE, log entry 73). -/
def execChainCombine (d : Fin 4) (n : Fin 8) (s : State) : Host.Outcome State Fault Refusal :=
  let p := plinth s d n
  .next (match p.cmd with
    | none => s
    | some u =>
      if p.awaiting && !cmdFirst u && !chainSends p then
        match chainBuf p (cmdChid u) with
        | none => if chainCut s d u then chainBreak s d n else s
        | some b =>
          if b.broken || decide (b.m ≠ cmdM u) || decide (b.n ≠ cmdN u) || chainCut s d u then chainBreak s d n
          else if chainWhole u b then
            let mix := chainMix p u b
            let t := tallyAll mix
            let s1 := plFlags (setPlinth s d n { p with
              chainCnt := counterWord t.sat 0, foldflush := satAdd p.foldflush t.flush }) d n t.flags
            chainLeave (chainFree s1 d n (cmdChid u)) d n u (mix.map (·.1))
          else s
      else s)

/-! ### Settling (R113) -/

/-- A reader of rows that has settled does its work. -/
def readerRun (s : State) (d : Fin 4) (n : Fin 8) (u : UnitCmd) : State :=
  if (cd s d).vaultClearing ∧ cmdOpc u ≠ 13 then setPlinth s d n { plinth s d n with settling := true }
  else
  let s1 := setPlinth s d n { plinth s d n with settling := false, read := some (cmdRow u, cmdM u) }
  if cmdOpc u = 11 then readtRun s1 d n u
  else if cmdOpc u = 13 then chainRun s1 d n u
  else match drainFields u with
    | some c => drainRun s1 d n u c
    | none => s1

/-- A reader starts: at once if its rows have settled, else when they have. -/
def readerStart (s : State) (d : Fin 4) (n : Fin 8) (u : UnitCmd) : State :=
  if settled (plinth s d n) (cmdRow u) (cmdM u) then readerRun s d n u
  else setPlinth s d n { plinth s d n with settling := true }

/-- PLINTH_SETTLED (R113). -/
def execPlinthSettled (d : Fin 4) (n : Fin 8) (s : State) : Host.Outcome State Fault Refusal :=
  .next (match (plinth s d n).cmd with
    | some u =>
      if (plinth s d n).settling && settled (plinth s d n) (cmdRow u) (cmdM u) then readerRun s d n u else s
    | none => s)

/-- READT (R129). -/
def execReadt (d : Fin 4) (n : Fin 8) (s : State) : Host.Outcome State Fault Refusal :=
  .next (plRun s d n 11 (fun u =>
    if plOk u 11 [0xF000_000E, mRows, 0, mAddr, 0, 0, 0, mAll] && inVault (vAddr (wordAt u.w 3)) (rawLen u) then
      readerStart s d n u
    else plReject s d n))

/-- DRAIN (R121). -/
def execDrain (d : Fin 4) (n : Fin 8) (s : State) : Host.Outcome State Fault Refusal :=
  .next (plRun s d n 10 (fun u =>
    match drainFields u with
    | none => plReject s d n
    | some c =>
      if drainOk u c then readerStart (setPlinth s d n (plReseed s (plinth s d n))) d n u else plReject s d n))

/-- CHAIN (R124). -/
def execChain (d : Fin 4) (n : Fin 8) (s : State) : Host.Outcome State Fault Refusal :=
  .next (plRun s d n 13 (fun u =>
    if plOk u 13 [0xFC00_000E, mRows, 0xFFFF_0000, 0xFFC0, 0xFFC0, 0, 0, mAll] && decide (cmdM u ≤ 64) then
      readerStart s d n u
    else plReject s d n))

/-! ### The address space and the registers (R110, R129, R132) -/

/-- A word stored at an offset of a Plinth's region: flushed in an FP row; the error word of an INT row ignores it. -/
def plinthStore (s : State) (d n off : Nat) (v : Word) : State :=
  let p := plinth s d n
  let i := off / 8
  let a := acc p i
  if rowIsInt p (i / 64) then
    if off % 8 < 4 then setPlinth s d n { p with acc := tabSet p.acc i { a with sum := v } } else s
  else
    let r := flush32 v.toNat
    let a1 : Acc := if off % 8 < 4 then { a with sum := w32 r.1 } else { a with err := w32 r.1 }
    plFlags (setPlinth s d n { p with acc := tabSet p.acc i a1 }) d n r.2.flags

/-- The word at an offset of a Plinth's region. -/
def plinthLoad (p : Plinth) (off : Nat) : Word := if off % 8 < 4 then (accWords p (off / 8)).1 else (accWords p (off / 8)).2

/-- PLINTH_STORE (R129): of an aligned word. -/
def execPlinthStore (d : Fin 4) (n : Fin 8) (off : BitVec 18) (v : BitVec 32) (s : State) :
    Host.Outcome State Fault Refusal :=
  .next (if decide (off.toNat % 4 = 0) && regsUp s then plinthStore s d n off.toNat v else s)

/-- PLN_DISC_READ (R132). -/
def execPlnDiscRead (d : Fin 4) (n : Fin 8) (s : State) : Host.Outcome State Fault Refusal :=
  .next (if regsUp s then setPlinth (outRead s (plinth s d n).disc) d n { plinth s d n with disc := 0 } else s)

/-- PLN_FOLDFLUSH_READ (R132). -/
def execPlnFoldflushRead (d : Fin 4) (n : Fin 8) (s : State) : Host.Outcome State Fault Refusal :=
  .next (if regsUp s then setPlinth (outRead s (plinth s d n).foldflush) d n { plinth s d n with foldflush := 0 } else s)

/-- A seed written: it takes effect at the unit's next operation (03 R75). -/
def plSeedSet (s : State) (d n : Nat) (v : Word) : State := setPlinth s d n { plinth s d n with seed := v, reseed := true }
def lnSeedSet (s : State) (d n : Nat) (v : Word) : State := setLantern s d n { lantern s d n with seed := v, reseed := true }

/-- SEED_WRITE (03 R75). -/
def execSeedWrite (d : Fin 4) (u : SeedUnit) (v : BitVec 32) (s : State) : Host.Outcome State Fault Refusal :=
  .next (if !regsUp s then s else match u with
      | .plinth n => plSeedSet s d n v
      | .lantern n => lnSeedSet s d n v)

end Sys2Proof.Machine
end

