-- ==== Sys2Proof/Machine/LanternOps.lean ====
section
/-! DEFINITION. What the instructions of a Lantern share: the instruction layout and its checks (06 R144, R145, R152-R154),
the tile registers, the operands and the end of a RUN. -/

namespace Sys2Proof.Machine

/-! ### Instructions (R152) -/

/-- The fields of Table 6-3. -/
structure LnInsn where
  opc : Nat
  td : Nat
  ta : Nat
  tb : Nat
  fmt : Nat
  nctl : Nat
  immb : Bool
  ch : Bool
  rsv : Bool
  imm : Word
  deriving DecidableEq, Repr, Inhabited

/-- The fields of a 64-bit instruction. -/
def lnDecode (x : Nat) : LnInsn :=
  { opc := x / 2 ^ 57 % 128, td := x / 2 ^ 52 % 32, ta := x / 2 ^ 47 % 32, tb := x / 2 ^ 42 % 32, fmt := x / 2 ^ 39 % 8,
    nctl := x / 2 ^ 35 % 16, immb := x / 2 ^ 34 % 2 = 1, ch := x / 2 ^ 33 % 2 = 1, rsv := x / 2 ^ 32 % 2 = 1,
    imm := w32 x }

/-- Bytes of program memory of one Lantern. -/
def lnPmemSize : Nat := 0x8000

/-- Instruction i of the program memory. -/
def lnFetch (s : State) (d n i : Nat) : LnInsn := lnDecode (leNat (memBytes 0 (cd s d).lnPmem (n * lnPmemSize + 8 * i) 8))

/-! ### Opcodes (Table 6-4) -/

inductive LnTb where
  | none | reg | base
  deriving DecidableEq, Repr

/-- The formats of a row; `ign` is one that the instruction ignores (R153). -/
inductive LnFmts where
  | none | any | ign | f | i | fi
  deriving DecidableEq, Repr

/-- One row of Table 6-4: the uses T, L and C, the formats, which fields the instruction uses, whether IMMB may be 1, and
the bits of IMM used with IMMB = 0. -/
structure LnOp where
  t : Bool
  l : Bool
  c : Bool
  fmts : LnFmts
  td : Bool
  ta : Bool
  tb : LnTb
  immb : Bool
  imm : Word
  nctl : Bool
  deriving DecidableEq, Repr

/-- An instruction of two sources, the second of which may be IMM. -/
def lnBin (k : LnFmts) : LnOp := ⟨true, true, true, k, true, true, .reg, true, 0, false⟩
/-- An instruction of one source. -/
def lnUn (k : LnFmts) (imm : Word) (nctl : Bool) : LnOp := ⟨true, true, true, k, true, true, .none, false, imm, nctl⟩
/-- An instruction allowed in tile programs only. -/
def lnTile (k : LnFmts) (td ta : Bool) (tb : LnTb) (immb : Bool) (imm : Word) : LnOp :=
  ⟨true, false, false, k, td, ta, tb, immb, imm, false⟩

/-- Table 6-4. -/
def lnOp (opc : Nat) : Option LnOp :=
  match opc with
  | 0x01 => some ⟨true, true, false, .none, false, false, .none, false, 0, false⟩
  | 0x02 => some (lnTile .none false false .none false 0)
  | 0x03 => some (lnTile .none false false .none false 0x7)
  | 0x04 => some (lnTile .none false false .none false 0x3FFFF)
  | 0x08 => some (lnTile .any true false .base false 0xFFFF_FFFF)
  | 0x09 => some (lnTile .any false true .base false 0xFFFF_FFFF)
  | 0x0A => some (lnTile .any false true .base false 0x01FF_FFFF)
  | 0x0B => some (lnTile .none false false .base false 0x01FF_FFFF)
  | 0x0C => some (lnTile .none true false .none false 0x01FF_0030)
  | 0x0D => some (lnTile .none true false .none false 0x01FF_0030)
  | 0x10 => some (lnUn .ign 0 false)
  | 0x11 => some (lnTile .ign true true .none false 0)
  | 0x12 => some (lnTile .ign true true .none false 0xF)
  | 0x13 => some (lnTile .ign true true .none false 0xF)
  | 0x14 => some ⟨true, true, true, .none, true, false, .none, false, 0, false⟩
  | 0x15 => some ⟨false, true, false, .none, true, true, .none, false, 0, false⟩
  | 0x16 => some ⟨true, true, true, .ign, true, true, .reg, false, 0x1F, false⟩
  | 0x20 => some (lnBin .fi)
  | 0x21 => some (lnBin .fi)
  | 0x22 => some (lnBin .fi)
  | 0x23 => some ⟨true, true, true, .f, true, true, .reg, false, 0x1F, false⟩
  | 0x24 => some (lnBin .fi)
  | 0x25 => some (lnBin .fi)
  | 0x26 => some (lnUn .fi 0 false)
  | 0x27 => some (lnUn .fi 0 false)
  | 0x28 => some (lnBin .f)
  | 0x29 => some (lnUn .f 0 false)
  | 0x2A => some (lnBin .i)
  | 0x2B => some (lnBin .i)
  | 0x2C => some (lnBin .i)
  | 0x2D => some (lnBin .i)
  | 0x2E => some (lnBin .i)
  | 0x30 => some (lnBin .fi)
  | 0x31 => some (lnBin .fi)
  | 0x32 => some (lnBin .fi)
  | 0x33 => some (lnBin .f)
  | 0x38 => some (lnUn .any 0x7 true)
  | 0x40 => some (lnUn .f 0 false)
  | 0x41 => some (lnUn .f 0 false)
  | 0x42 => some (lnUn .f 0 false)
  | 0x43 => some (lnUn .f 0 false)
  | 0x44 => some (lnUn .f 0 false)
  | 0x45 => some (lnUn .f 0 false)
  | 0x50 => some (lnTile .fi true true .none false 0x13)
  | 0x58 => some (lnTile .ign true true .reg true 0)
  | 0x59 => some (lnTile .ign true true .reg true 0)
  | _ => none

def lnFmtOk (a : LnFmts) (k : Nat) : Bool :=
  match a with
  | .none => decide (k = 0)
  | .any => decide (k < 7)
  | .ign => decide (k < 7)
  | .f => decide (k = 2) || decide (k = 3)
  | .i => decide (k = 6)
  | .fi => decide (k = 2) || decide (k = 3) || decide (k = 6)

/-- The bits of IMM that an instruction uses (R152): as an operand of binary16 the low half, but all of it for a row that moves
words and ignores FMT (Table 6-4). -/
def lnImmMask (o : LnOp) (i : LnInsn) : Word :=
  if i.immb then (if i.fmt = 2 ∧ o.fmts ≠ .ign then 0xFFFF else 0xFFFF_FFFF) else o.imm

/-- The checks of R154 that depend on one instruction alone; PRDX is held to the bound of PRD (DEDUCED, log entry 31). -/
def lnFields (o : LnOp) (i : LnInsn) : Bool :=
  !i.rsv && lnFmtOk o.fmts i.fmt && (!i.immb || o.immb) && decide (i.nctl % 2 = 0) && (o.nctl || decide (i.nctl = 0))
    && (o.td || decide (i.td = 0)) && (o.ta || decide (i.ta = 0))
    && (decide (i.tb = 0) || (decide (o.tb ≠ .none) && !i.immb)) && decide (i.imm &&& ~~~(lnImmMask o i) = 0)
    && (decide (i.opc ≠ 0x03) || decide (field i.imm 2 0 < 5))
    && ((decide (i.opc ≠ 0x0C) && decide (i.opc ≠ 0x0D)) || decide (field i.imm 24 16 ≤ 496))
    && (decide (i.opc ≠ 0x0D) || decide (i.td ≠ 31))
    && (decide (o.tb ≠ .base) || decide (i.tb < 5) || decide (i.tb = 31))
    && (decide (i.opc ≠ 0x50) || decide (field i.imm 1 0 ≠ 3))
    && (decide (i.opc ≠ 0x38) || decide (field i.imm 2 0 ≠ 7))

/-! ### Chains and lane programs (R144, R145) -/

/-- The instruction is marked C. -/
def lnIsC (i : LnInsn) : Bool :=
  match lnOp i.opc with
  | some o => o.c
  | none => false

def lnHasTa (i : LnInsn) : Bool :=
  match lnOp i.opc with
  | some o => o.ta
  | none => false

/-- The stages after a stage that wrote td, k at most, obey R144; the first of them is instruction j. -/
def lnStages (s : State) (d n : Nat) : Nat → Nat → Nat → Bool
  | 0, _, _ => false
  | k + 1, j, td =>
    if j ≥ 4096 then false
    else
      let i := lnFetch s d n j
      lnHasTa i && decide (i.ta = td)
        && (if i.ch then lnIsC i && lnStages s d n k (j + 1) i.td else lnIsC i || decide (i.opc = 0x09))

/-- The chain that starts at instruction j obeys R144. -/
def lnChainOk (s : State) (d n j : Nat) : Bool :=
  let i := lnFetch s d n j
  (decide (i.opc = 0x0C) || decide (i.opc = 0x08) || lnIsC i) && lnStages s d n 7 (j + 1) i.td

/-- A lane program of k instructions from index j obeys R145. -/
def lnLaneOk (s : State) (d n : Nat) : Nat → Nat → Bool
  | 0, _ => true
  | k + 1, j =>
    let i := lnFetch s d n j
    decide (j < 4096) && !i.ch
      && (match lnOp i.opc with
        | some o => o.l
        | none => false)
      && lnLaneOk s d n k (j + 1)

def lnLaneLen (i : LnInsn) : Nat := field i.imm 17 12 + 1
def lnLaneAt (i : LnInsn) : Nat := field i.imm 11 0

/-- The index of the instruction that comes to issue. -/
def lnAt (r : LnRun) : Nat :=
  match r.lane with
  | some l => l.1
  | none => r.pc

/-- The instruction that comes to issue passes R154. -/
def lnLegal (s : State) (d n : Nat) (r : LnRun) : Bool :=
  let i := lnFetch s d n (lnAt r)
  decide (lnAt r < 4096)
    && (match lnOp i.opc with
      | none => false
      | some o => (if r.lane.isSome then o.l else o.t) && lnFields o i)
    && (r.inChain || !i.ch || lnChainOk s d n (lnAt r))
    && (decide (i.opc ≠ 0x04) || lnLaneOk s d n (lnLaneLen i) (lnLaneAt i))

/-! ### The RUN -/

/-- The RUN ends with a status (R156). -/
def lnFinish (s : State) (d : Fin 4) (n : Fin 8) (r : LnRun) (st : Nat) : State :=
  let v := lantern s d n
  finishCmd (setLantern s d n { v with run := none }) (.lantern d n) st (counterWord r.sat r.flush)
    (w32 (v.lastpc.toNat * 65536 + v.k))

/-- The RUN after an instruction that has issued: the next one, in or after a lane program. -/
def lnNext (r : LnRun) (i : LnInsn) : LnRun :=
  match r.lane with
  | some (j, k) => if k ≤ 1 then { r with lane := none, pc := r.pc + 1 } else { r with lane := some (j + 1, k - 1) }
  | none => { r with pc := r.pc + 1, inChain := i.ch }

/-- Marks an instruction as issued: LNT_LASTPC, and LNT_STEPS where it issues by itself (R141, R157). Of a lane program LANE alone
counts, and LASTPC keeps its index (DEDUCED, log entry 31). -/
def lnMark (v : Lantern) (r : LnRun) : Lantern :=
  if r.lane.isSome then v
  else { v with lastpc := BitVec.ofNat 12 r.pc, steps := if r.inChain then v.steps else satAdd v.steps 1 }

/-- What an instruction counts goes to the RUN's counters, and its flags to the Lantern (R76, R148). -/
def lnCount (r : LnRun) (t : Tally) : LnRun := { r with sat := r.sat + t.sat, flush := r.flush + t.flush }

def lnFlag (v : Lantern) (t : Tally) : Lantern := { v with flags := v.flags ||| t.flags, dz := v.dz || t.dz }

/-- An instruction that has issued: its flags and counts, and the RUN goes on. -/
def lnDone (s : State) (d : Fin 4) (n : Fin 8) (r : LnRun) (i : LnInsn) (t : Tally) : State :=
  setLantern s d n { lnMark (lnFlag (lantern s d n) t) r with run := some (lnNext (lnCount r t) i) }

/-- The row of one opcode: it acts where the instruction that comes to issue has that opcode, stops the RUN where that
instruction fails a check, and is nothing where another opcode comes to issue. -/
def lnRow (s : State) (d : Fin 4) (n : Fin 8) (opc : Nat) (f : LnRun → LnInsn → State) : State :=
  match (lantern s d n).run with
  | none => s
  | some r =>
    if lnLegal s d n r then
      (if (lnFetch s d n (lnAt r)).opc = opc then f r (lnFetch s d n (lnAt r)) else s)
    else lnFinish s d n r 0x0C

/-! ### Tile registers (R137, R138) -/

/-- The words of register j. -/
def lnReg (v : Lantern) (j : Nat) : List Nat :=
  let t := v.tile.filter (fun e => decide (256 * j ≤ e.1) && decide (e.1 < 256 * j + 256))
  (upTo 256).map (fun w => (tabGet 0 t (256 * j + w)).toNat)

/-- Word w of register j. -/
def lnWord (v : Lantern) (j w : Nat) : Nat := (tabGet 0 v.tile (256 * j + w)).toNat

/-- The nonzero words among words from number k on. -/
def lnCells : Nat → List Nat → Tab Word
  | _, [] => []
  | k, x :: xs => if w32 x = 0 then lnCells (k + 1) xs else (k, w32 x) :: lnCells (k + 1) xs

/-- Register j written with 256 words. -/
def lnPut (v : Lantern) (j : Nat) (xs : List Nat) : Lantern :=
  { v with
    tile := v.tile.filter (fun e => decide (e.1 < 256 * j)) ++ lnCells (256 * j) (xs.take 256)
      ++ v.tile.filter (fun e => decide (256 * j + 256 ≤ e.1)) }

/-- An instruction that writes TD with results and counts what they count. -/
def lnWrite (s : State) (d : Fin 4) (n : Fin 8) (r : LnRun) (i : LnInsn) (xs : List (Nat × Tally)) : State :=
  lnDone (setLantern s d n (lnPut (lantern s d n) i.td (xs.map (·.1)))) d n r i (tallyAll xs)

/-- An instruction that only moves words. -/
def lnMove (s : State) (d : Fin 4) (n : Fin 8) (r : LnRun) (i : LnInsn) (xs : List Nat) : State :=
  lnWrite s d n r i (xs.map (fun x => (x, {})))

/-! ### Operands (R138, R148, R152) -/

/-- Words of TA and TB, or IMM in every word. -/
def lnA (v : Lantern) (i : LnInsn) : List Nat := lnReg v i.ta
def lnB (v : Lantern) (i : LnInsn) : List Nat := if i.immb then List.replicate 256 i.imm.toNat else lnReg v i.tb
def lnC (v : Lantern) (i : LnInsn) : List Nat := lnReg v (field i.imm 4 0)

/-- The floating format of FMT; int32 is handled apart. -/
def lnFf (i : LnInsn) : FFmt := if i.fmt = 2 then b16 else b32

def lnIsInt (i : LnInsn) : Bool := decide (i.fmt = 6)

/-- The bits of a word that its format reads. -/
def lnCut (f : FFmt) (x : Nat) : Nat := x % 2 ^ (1 + f.eb + f.mb)

/-- What an IEEE operation of a Lantern counts (R148). -/
def lnExc (e : Exc) : Tally := { flags := excTensor e, dz := e.dz }

/-- A result with the exceptions it raised. -/
def lnRes (r : Nat × Exc) : Nat × Tally := (r.1, lnExc r.2)

def lnTrue (b : Bool) : Nat := if b then 0xFFFF_FFFF else 0

/-- A two-operand instruction: its floating and its int32 operation on every word. -/
def lnBinary (s : State) (d : Fin 4) (n : Fin 8) (r : LnRun) (i : LnInsn) (ff : FFmt → Nat → Nat → Nat → Nat × Exc)
    (fi : Nat → Nat → Nat) : State :=
  let v := lantern s d n
  lnWrite s d n r i (((lnA v i).zip (lnB v i)).map (fun p =>
    if lnIsInt i then (fi p.1 p.2 % 2 ^ 32, {})
    else lnRes (ff (lnFf i) r.rm.toNat (lnCut (lnFf i) p.1) (lnCut (lnFf i) p.2))))

/-- A one-operand instruction. -/
def lnUnary (s : State) (d : Fin 4) (n : Fin 8) (r : LnRun) (i : LnInsn) (ff : FFmt → Nat → Nat → Nat × Exc)
    (fi : Nat → Nat) : State :=
  lnWrite s d n r i ((lnA (lantern s d n) i).map (fun x =>
    if lnIsInt i then (fi x % 2 ^ 32, {}) else lnRes (ff (lnFf i) r.rm.toNat (lnCut (lnFf i) x))))

/-- A comparison: floating ones are the quiet predicates (R148). -/
def lnCompare (s : State) (d : Fin 4) (n : Fin 8) (r : LnRun) (i : LnInsn) (ff : FFmt → Nat → Nat → Bool)
    (fi : Int → Int → Bool) : State :=
  lnBinary s d n r i (fun f _ x y => (lnTrue (ff f x y), cmpExc f x y)) (fun x y => lnTrue (fi (signed 32 x) (signed 32 y)))

end Sys2Proof.Machine
end

