-- ==== Sys2Proof/Machine/Lantern.lean ====
section
/-! DEFINITION. The RUN command and the instructions of a Lantern (06 R139-R154, Table 6-4). -/

namespace Sys2Proof.Machine

/-! ### RUN (R151) -/

/-- Fields of Table 6-2. -/
def runOk (u : UnitCmd) : Bool :=
  decide (cmdOpc u = 1) && decide (wordAt u.w 0 &&& ~~~(0xFEFF_0FFF : Word) = 0) && decide (field (wordAt u.w 0) 27 25 < 5)

def runEntry (u : UnitCmd) : Nat := field (wordAt u.w 0) 11 0

/-- The state of a RUN as it starts. -/
def runStart (u : UnitCmd) : LnRun :=
  { pc := runEntry u, rep := field (wordAt u.w 0) 23 16, p := (upTo 5).map (fun i => wordAt u.w (i + 1)),
    rm := (wordAt u.w 0).extractLsb' 25 3, sat := 0, flush := 0, longSum := false, inChain := false, lane := none }

/-- A pending reseed takes effect (03 R75). -/
def lnReseed (s : State) (v : Lantern) : Lantern :=
  if v.reseed then { v with genSeed := v.seed ^^^ w32 (ownChip s * 16384), gens := [], reseed := false } else v

/-- LNT_RUN (R139, R151, R158): the command at the Lantern starts, once no access that waits for it is left. -/
def execLntRun (d : Fin 4) (n : Fin 8) (s : State) : Host.Outcome State Fault Refusal :=
  let v := lantern s d n
  .next (match v.cmd, v.run with
    | some u, none =>
      if v.held ≠ [] then s
      else if runOk u then setLantern s d n { lnReseed s v with run := some (runStart u) }
      else finishCmd s (.lantern d n) 1 0 (w32 (v.lastpc.toNat * 65536 + v.k))
    | _, _ => s)

/-! ### Program control -/

/-- LNT_NOP. -/
def execLntNop (d : Fin 4) (n : Fin 8) (s : State) : Host.Outcome State Fault Refusal :=
  .next (lnRow s d n 0x01 (fun r i => lnDone s d n r i {}))

/-- The parameters after a repetition (R151). -/
def lnStride (p : List Word) (w6 : Word) : List Word :=
  let p0 := listSet p 0 (wordAt p 0 + (w6.extractLsb' 16 16).signExtend 32)
  listSet p0 1 (wordAt p0 1 + (w6.extractLsb' 0 16).signExtend 32)

/-- LNT_END (R139, R151): the program ends for this repetition, or for the RUN. -/
def execLntEnd (d : Fin 4) (n : Fin 8) (s : State) : Host.Outcome State Fault Refusal :=
  .next (lnRow s d n 0x02 (fun r _ =>
    let v := lnMark (lantern s d n) r
    match v.cmd with
    | none => s
    | some u =>
      if r.rep = 0 then lnFinish (setLantern s d n v) d n r (if r.longSum then 0x0A else 0)
      else
        setLantern s d n { v with
          run := some { r with rep := r.rep - 1, pc := runEntry u, p := lnStride r.p (wordAt u.w 6), inChain := false } }))

/-- LNT_SETRM (R148). -/
def execLntSetrm (d : Fin 4) (n : Fin 8) (s : State) : Host.Outcome State Fault Refusal :=
  .next (lnRow s d n 0x03 (fun r i => lnDone s d n { r with rm := i.imm.extractLsb' 0 3 } i {}))

/-- LNT_LANE (R145): its instructions come to issue one by one. -/
def execLntLane (d : Fin 4) (n : Fin 8) (s : State) : Host.Outcome State Fault Refusal :=
  .next (lnRow s d n 0x04 (fun r i =>
    setLantern s d n { lnMark (lantern s d n) r with run := some { r with lane := some (lnLaneAt i, lnLaneLen i) } }))

/-! ### Vault accesses (R146, R152, R155) -/

/-- The base parameter of LD, ST, STN and STK. -/
def lnBase (r : LnRun) (i : LnInsn) : Word := if i.tb < 5 then wordAt r.p i.tb else 0

/-- The address of LD, ST, STN and STK (log entry 31). -/
def lnAddr (r : LnRun) (i : LnInsn) : Nat := (lnBase r i + w32 (field i.imm 24 0)).toNat

/-- Row stride of LD and ST in bytes. -/
def lnRowStep (f : NFmt) (i : LnInsn) : Nat := if field i.imm 31 25 = 0 then 16 * nfSize f else 64 * field i.imm 31 25

/-- A tile in the Vault lies where R155 allows. -/
def lnTileOk (f : NFmt) (r : LnRun) (i : LnInsn) : Bool :=
  decide (lnAddr r i % nfSize f = 0) && inVault (lnAddr r i) (15 * lnRowStep f i + 16 * nfSize f)

def lnPort (n : Fin 8) : Word := w32 (0x60 + n.val)

/-- Rows of bytes read from the Vault. -/
def rdRows (s : State) (d : Nat) (port : Word) : List Nat → Nat → Option (List Byte) × State
  | [], _ => (some [], s)
  | a :: rest, len =>
    match rdVault s d a len port with
    | (none, t) => (none, t)
    | (some bs, t) =>
      match rdRows t d port rest len with
      | (none, u) => (none, u)
      | (some more, u) => (some (bs ++ more), u)

def lnRowAddrs (f : NFmt) (r : LnRun) (i : LnInsn) : List Nat := (upTo 16).map (fun k => lnAddr r i + k * lnRowStep f i)

/-- LNT_LD (R152). -/
def execLntLd (d : Fin 4) (n : Fin 8) (s : State) : Host.Outcome State Fault Refusal :=
  .next (lnRow s d n 0x08 (fun r i =>
    match dataFmt i.fmt with
    | none => s
    | some f =>
      if lnTileOk f r i then
        match rdRows s d (lnPort n) (lnRowAddrs f r i) (16 * nfSize f) with
        | (none, t) => t
        | (some bs, t) => lnMove t d n r i ((upTo 256).map (elemAt bs f))
      else lnFinish s d n r 0x0D))

/-- The low bytes of words as elements. -/
def lnBytes (f : NFmt) (xs : List Nat) : List Byte := elemBytes f xs

/-- LNT_ST (R152). -/
def execLntSt (d : Fin 4) (n : Fin 8) (s : State) : Host.Outcome State Fault Refusal :=
  .next (lnRow s d n 0x09 (fun r i =>
    match dataFmt i.fmt with
    | none => s
    | some f =>
      if lnTileOk f r i then
        let xs := lnA (lantern s d n) i
        let rows := (upTo 16).map (fun k => (lnAddr r i + k * lnRowStep f i, lnBytes f ((xs.drop (16 * k)).take 16)))
        match wrRows s d (lnPort n) rows with
        | (none, t) => t
        | (some t, _) => lnDone t d n r i {}
      else lnFinish s d n r 0x0D))

/-- Bytes stored at the address of an instruction, after which the RUN goes on as r1. -/
def lnStore (s : State) (d : Fin 4) (n : Fin 8) (r r1 : LnRun) (i : LnInsn) (bs : List Byte) : State :=
  if bs = [] then lnDone s d n r1 i {}
  else match wrVault s d (lnAddr r i) bs (lnPort n) with
    | (none, t) => t
    | (some t, _) => lnDone t d n r1 i {}

/-- LNT_STN (R146). -/
def execLntStn (d : Fin 4) (n : Fin 8) (s : State) : Host.Outcome State Fault Refusal :=
  .next (lnRow s d n 0x0A (fun r i =>
    match dataFmt i.fmt with
    | none => s
    | some f =>
      let v := lantern s d n
      let len := v.k * nfSize f
      if decide (lnAddr r i % nfSize f = 0) && (decide (len = 0) || inVault (lnAddr r i) len) then
        let r1 := if i.tb < 5 then { r with p := listSet r.p i.tb (wordAt r.p i.tb + w32 len) } else r
        lnStore s d n r r1 i (lnBytes f ((lnA v i).take v.k))
      else lnFinish s d n r 0x0D))

/-- LNT_STK (R146). -/
def execLntStk (d : Fin 4) (n : Fin 8) (s : State) : Host.Outcome State Fault Refusal :=
  .next (lnRow s d n 0x0B (fun r i =>
    if decide (lnAddr r i % 4 = 0) && inVault (lnAddr r i) 4 then lnStore s d n r r i (natLe 4 (lantern s d n).k)
    else lnFinish s d n r 0x0D))

/-! ### Plinth reads (R142) -/

def prdRow (i : LnInsn) : Nat := field i.imm 24 16
def prdCol (i : LnInsn) : Nat := 16 * field i.imm 5 4

/-- A reader of the Plinth runs on some of the 16 rows (R142 step 2). -/
def prdBusy (p : Plinth) (row : Nat) : Bool :=
  (upTo 16).any (fun k => rowsRead p (row + k)) ||
  (match p.cmd with
    | some u => (p.settling || p.awaiting) && decide (cmdRow u < row + 16) && decide (row < cmdRow u + cmdM u)
    | none => false)

/-- The accumulators that word w of a PRD reads. -/
def prdIdx (i : LnInsn) (w : Nat) : Nat := (prdRow i + w / 16) * 64 + prdCol i + w % 16

/-- A PRD or PRDX may read now. -/
def prdReady (p : Plinth) (i : LnInsn) : Bool := settled p (prdRow i) 16 && !prdBusy p (prdRow i)

/-- A pair for one of the 16 rows from `row` on is at an intake port. -/
def prdMeets (p : Plinth) (row : Nat) : Bool := (p.towerPort ++ p.domePort).any (fun x => inRows row 16 (x.idx / 64))

/-- LNT_STALL counts the steps of the read in which a pair of its rows waits, at most the four it takes (R142; log entry 32). -/
def prdStall (s : State) (d : Fin 4) (n : Fin 8) (row : Nat) : State :=
  if prdMeets (plinth s d n) row then
    let w := drawWord s
    setLantern w.2 d n { lantern w.2 d n with stall := satAdd (lantern w.2 d n).stall (w.1.toNat % 5) }
  else s

/-- The RUN after a read that meets an accumulator above 65,536 terms. -/
def prdLong (p : Plinth) (i : LnInsn) (r : LnRun) : LnRun :=
  { r with longSum := r.longSum || (upTo 256).any (fun w => decide ((acc p (prdIdx i w)).cnt > 65536)) }

/-- A word of PRD: fl32(sum + err), which sets OVF, INV and UNF as a drain's step does and never INX (DEDUCED, log entry 72). -/
def prdWord (p : Plinth) (k : Nat) : Nat × Tally :=
  if rowIsInt p (k / 64) then ((acc p k).sum.toNat, {}) else flAdd (acc p k).sum.toNat (acc p k).err.toNat

/-- LNT_PRD. -/
def execLntPrd (d : Fin 4) (n : Fin 8) (s : State) : Host.Outcome State Fault Refusal :=
  .next (lnRow s d n 0x0C (fun r i =>
    let p := plinth s d n
    if prdReady p i then
      lnWrite (prdStall s d n (prdRow i)) d n (prdLong p i r) i ((upTo 256).map (fun w => prdWord p (prdIdx i w)))
    else s))

/-- LNT_PRDX. -/
def execLntPrdx (d : Fin 4) (n : Fin 8) (s : State) : Host.Outcome State Fault Refusal :=
  .next (lnRow s d n 0x0D (fun r i =>
    let p := plinth s d n
    if prdReady p i then
      let s1 := prdStall s d n (prdRow i)
      let errs := (upTo 256).map (fun w => (accWords p (prdIdx i w)).2.toNat)
      let s2 := setLantern s1 d n (lnPut (lantern s1 d n) (i.td + 1) errs)
      lnMove s2 d n (prdLong p i r) i ((upTo 256).map (fun w => (acc p (prdIdx i w)).sum.toNat))
    else s))

/-! ### Moves -/

/-- LNT_MOV. -/
def execLntMov (d : Fin 4) (n : Fin 8) (s : State) : Host.Outcome State Fault Refusal :=
  .next (lnRow s d n 0x10 (fun r i => lnMove s d n r i (lnA (lantern s d n) i)))

/-- TD(r, c) := TA(f (r, c)). -/
def lnPermute (s : State) (d : Fin 4) (n : Fin 8) (r : LnRun) (i : LnInsn) (f : Nat → Nat → Nat × Nat) : State :=
  let a := lnA (lantern s d n) i
  lnMove s d n r i ((upTo 256).map (fun w =>
    let q := f (w / 16) (w % 16)
    a.getD (16 * q.1 + q.2) 0))

/-- LNT_TRN. -/
def execLntTrn (d : Fin 4) (n : Fin 8) (s : State) : Host.Outcome State Fault Refusal :=
  .next (lnRow s d n 0x11 (fun r i => lnPermute s d n r i (fun y x => (x, y))))

/-- LNT_BCR. -/
def execLntBcr (d : Fin 4) (n : Fin 8) (s : State) : Host.Outcome State Fault Refusal :=
  .next (lnRow s d n 0x12 (fun r i => lnPermute s d n r i (fun _ x => (field i.imm 3 0, x))))

/-- LNT_BCC. -/
def execLntBcc (d : Fin 4) (n : Fin 8) (s : State) : Host.Outcome State Fault Refusal :=
  .next (lnRow s d n 0x13 (fun r i => lnPermute s d n r i (fun y _ => (y, field i.imm 3 0))))

/-- LNT_LID. -/
def execLntLid (d : Fin 4) (n : Fin 8) (s : State) : Host.Outcome State Fault Refusal :=
  .next (lnRow s d n 0x14 (fun r i => lnMove s d n r i (upTo 256)))

/-- LNT_RIX: in each lane, its word of the register that its word of TA names. -/
def execLntRix (d : Fin 4) (n : Fin 8) (s : State) : Host.Outcome State Fault Refusal :=
  .next (lnRow s d n 0x15 (fun r i =>
    let v := lantern s d n
    lnMove s d n r i (((upTo 256).zip (lnA v i)).map (fun p => lnWord v (p.2 % 32) p.1))))

/-- LNT_SEL. -/
def execLntSel (d : Fin 4) (n : Fin 8) (s : State) : Host.Outcome State Fault Refusal :=
  .next (lnRow s d n 0x16 (fun r i =>
    let v := lantern s d n
    lnMove s d n r i ((((lnA v i).zip (lnB v i)).zip (lnC v i)).map (fun p => if p.2 ≠ 0 then p.1.1 else p.1.2))))

/-! ### Arithmetic (R148, R149) -/

/-- LNT_ADD. -/
def execLntAdd (d : Fin 4) (n : Fin 8) (s : State) : Host.Outcome State Fault Refusal :=
  .next (lnRow s d n 0x20 (fun r i => lnBinary s d n r i fAdd (fun x y => x + y)))

/-- LNT_SUB. -/
def execLntSub (d : Fin 4) (n : Fin 8) (s : State) : Host.Outcome State Fault Refusal :=
  .next (lnRow s d n 0x21 (fun r i => lnBinary s d n r i fSub (fun x y => x + (2 ^ 32 - y % 2 ^ 32))))

/-- LNT_MUL. -/
def execLntMul (d : Fin 4) (n : Fin 8) (s : State) : Host.Outcome State Fault Refusal :=
  .next (lnRow s d n 0x22 (fun r i => lnBinary s d n r i fMul (fun x y => x * y)))

/-- LNT_FMA: TA × TB + TC with one rounding. -/
def execLntFma (d : Fin 4) (n : Fin 8) (s : State) : Host.Outcome State Fault Refusal :=
  .next (lnRow s d n 0x23 (fun r i =>
    let v := lantern s d n
    let f := lnFf i
    lnWrite s d n r i ((((lnA v i).zip (lnB v i)).zip (lnC v i)).map (fun p =>
      lnRes (fFma f r.rm.toNat (lnCut f p.1.1) (lnCut f p.1.2) (lnCut f p.2))))))

/-- LNT_MIN: minimumNumber in a floating format, so that one NaN operand is ignored (DEDUCED, log entry 31); signed in int32. -/
def execLntMin (d : Fin 4) (n : Fin 8) (s : State) : Host.Outcome State Fault Refusal :=
  .next (lnRow s d n 0x24 (fun r i =>
    lnBinary s d n r i (fun f _ x y => fMin f x y) (fun x y => if signed 32 x ≤ signed 32 y then x else y)))

/-- LNT_MAX: maximumNumber in a floating format, so that one NaN operand is ignored (DEDUCED, log entry 31); signed in int32. -/
def execLntMax (d : Fin 4) (n : Fin 8) (s : State) : Host.Outcome State Fault Refusal :=
  .next (lnRow s d n 0x25 (fun r i =>
    lnBinary s d n r i (fun f _ x y => fMax f x y) (fun x y => if signed 32 y ≤ signed 32 x then x else y)))

/-- LNT_ABS: the sign bit cleared, of a NaN too, with no flag; int32 wraps (DEDUCED, log entry 31). -/
def execLntAbs (d : Fin 4) (n : Fin 8) (s : State) : Host.Outcome State Fault Refusal :=
  .next (lnRow s d n 0x26 (fun r i =>
    lnUnary s d n r i (fun f _ x => (fAbs f x, excNone)) (fun x => (signed 32 x).natAbs)))

/-- LNT_NEG: the sign bit changed, of a NaN too, with no flag; int32 wraps (DEDUCED, log entry 31). -/
def execLntNeg (d : Fin 4) (n : Fin 8) (s : State) : Host.Outcome State Fault Refusal :=
  .next (lnRow s d n 0x27 (fun r i =>
    lnUnary s d n r i (fun f _ x => (fNeg f x, excNone)) (fun x => 2 ^ 32 - x % 2 ^ 32)))

/-- LNT_DIV. -/
def execLntDiv (d : Fin 4) (n : Fin 8) (s : State) : Host.Outcome State Fault Refusal :=
  .next (lnRow s d n 0x28 (fun r i => lnBinary s d n r i fDiv (fun x _ => x)))

/-- LNT_SQRT. -/
def execLntSqrt (d : Fin 4) (n : Fin 8) (s : State) : Host.Outcome State Fault Refusal :=
  .next (lnRow s d n 0x29 (fun r i => lnUnary s d n r i fSqrt id))

/-- An instruction on int32 words alone. -/
def lnBits (s : State) (d : Fin 4) (n : Fin 8) (r : LnRun) (i : LnInsn) (f : Nat → Nat → Nat) : State :=
  lnBinary s d n r i (fun _ _ x y => (f x y, excNone)) f

/-- LNT_AND. -/
def execLntAnd (d : Fin 4) (n : Fin 8) (s : State) : Host.Outcome State Fault Refusal :=
  .next (lnRow s d n 0x2A (fun r i => lnBits s d n r i (fun x y => x &&& y)))

/-- LNT_OR. -/
def execLntOr (d : Fin 4) (n : Fin 8) (s : State) : Host.Outcome State Fault Refusal :=
  .next (lnRow s d n 0x2B (fun r i => lnBits s d n r i (fun x y => x ||| y)))

/-- LNT_XOR. -/
def execLntXor (d : Fin 4) (n : Fin 8) (s : State) : Host.Outcome State Fault Refusal :=
  .next (lnRow s d n 0x2C (fun r i => lnBits s d n r i (fun x y => x ^^^ y)))

/-- LNT_SHL. -/
def execLntShl (d : Fin 4) (n : Fin 8) (s : State) : Host.Outcome State Fault Refusal :=
  .next (lnRow s d n 0x2D (fun r i => lnBits s d n r i (fun x y => x * 2 ^ (y % 32))))

/-- LNT_SHR: arithmetic. -/
def execLntShr (d : Fin 4) (n : Fin 8) (s : State) : Host.Outcome State Fault Refusal :=
  .next (lnRow s d n 0x2E (fun r i => lnBits s d n r i (fun x y => intBits 32 (signed 32 x / (2 ^ (y % 32) : Nat)))))

/-! ### Comparisons -/

/-- LNT_CEQ. -/
def execLntCeq (d : Fin 4) (n : Fin 8) (s : State) : Host.Outcome State Fault Refusal :=
  .next (lnRow s d n 0x30 (fun r i => lnCompare s d n r i fCeq (fun x y => decide (x = y))))

/-- LNT_CLT. -/
def execLntClt (d : Fin 4) (n : Fin 8) (s : State) : Host.Outcome State Fault Refusal :=
  .next (lnRow s d n 0x31 (fun r i => lnCompare s d n r i fClt (fun x y => decide (x < y))))

/-- LNT_CLE. -/
def execLntCle (d : Fin 4) (n : Fin 8) (s : State) : Host.Outcome State Fault Refusal :=
  .next (lnRow s d n 0x32 (fun r i => lnCompare s d n r i fCle (fun x y => decide (x ≤ y))))

/-- LNT_CUN. -/
def execLntCun (d : Fin 4) (n : Fin 8) (s : State) : Host.Outcome State Fault Refusal :=
  .next (lnRow s d n 0x33 (fun r i => lnCompare s d n r i unordered (fun _ _ => false)))

/-! ### Conversion (R148, R73) -/

/-- Words converted in their rounding lanes from lane w on. -/
def lnConvs (src dst : NFmt) (nc : NCtl) (rm : Nat) : Gens → Nat → List Nat → List Nat × Gens
  | g, _, [] => ([], g)
  | g, w, x :: xs =>
    let r := convLane g w src dst nc rm (x % 2 ^ nfBits src)
    let rest := lnConvs src dst nc rm r.2 (w + 1) xs
    (r.1 :: rest.1, rest.2)

/-- LNT_CVT. -/
def execLntCvt (d : Fin 4) (n : Fin 8) (s : State) : Host.Outcome State Fault Refusal :=
  .next (lnRow s d n 0x38 (fun r i =>
    match dataFmt (field i.imm 2 0), dataFmt i.fmt with
    | some src, some dst =>
      let v := lantern s d n
      let g : Gens := ⟨v.genSeed, d.val * 4096 + n.val * 512, v.gens, {}⟩
      let nc : NCtl := ⟨decide (i.nctl / 8 % 2 = 1), decide (i.nctl / 4 % 2 = 1), decide (i.nctl / 2 % 2 = 1)⟩
      let o := lnConvs src dst nc r.rm.toNat g 0 (lnA v i)
      lnDone (setLantern s d n { lnPut v i.td o.1 with gens := o.2.tab }) d n r i o.2.tally
    | _, _ => s))

/-! ### Nonlinear functions (R150) -/

/-- A function of Table 6-1 on every word. -/
def lnNonlin (s : State) (d : Fin 4) (n : Fin 8) (r : LnRun) (i : LnInsn) (f : FFmt → Nat → Nat × Exc) : State :=
  lnUnary s d n r i (fun q _ x => f q x) id

/-- LNT_EXP. -/
def execLntExp (d : Fin 4) (n : Fin 8) (s : State) : Host.Outcome State Fault Refusal :=
  .next (lnRow s d n 0x40 (fun r i => lnNonlin s d n r i nlExp))

/-- LNT_LN. -/
def execLntLn (d : Fin 4) (n : Fin 8) (s : State) : Host.Outcome State Fault Refusal :=
  .next (lnRow s d n 0x41 (fun r i => lnNonlin s d n r i nlLn))

/-- LNT_SIGM. -/
def execLntSigm (d : Fin 4) (n : Fin 8) (s : State) : Host.Outcome State Fault Refusal :=
  .next (lnRow s d n 0x42 (fun r i => lnNonlin s d n r i nlSigm))

/-- LNT_TANH. -/
def execLntTanh (d : Fin 4) (n : Fin 8) (s : State) : Host.Outcome State Fault Refusal :=
  .next (lnRow s d n 0x43 (fun r i => lnNonlin s d n r i nlTanh))

/-- LNT_RCP. -/
def execLntRcp (d : Fin 4) (n : Fin 8) (s : State) : Host.Outcome State Fault Refusal :=
  .next (lnRow s d n 0x44 (fun r i => lnNonlin s d n r i nlRcp))

/-- LNT_RSQRT. -/
def execLntRsqrt (d : Fin 4) (n : Fin 8) (s : State) : Host.Outcome State Fault Refusal :=
  .next (lnRow s d n 0x45 (fun r i => lnNonlin s d n r i nlRsqrt))

/-! ### Reductions (R147) -/

/-- One level of a pairwise reduction. -/
def redLevel (f : Nat → Nat → Nat × Tally) : List (Nat × Tally) → List (Nat × Tally)
  | a :: b :: rest =>
    let r := f a.1 b.1
    (r.1, tallyAdd (tallyAdd a.2 b.2) r.2) :: redLevel f rest
  | l => l

/-- Sixteen elements reduced in four levels. -/
def redAll (f : Nat → Nat → Nat × Tally) (xs : List Nat) : Nat × Tally :=
  (redLevel f (redLevel f (redLevel f (redLevel f (xs.map (fun x => (x, ({} : Tally)))))))).headD (0, {})

/-- The operation of a RED. -/
def redOp (i : LnInsn) (rm : Nat) (x y : Nat) : Nat × Tally :=
  let k := field i.imm 1 0
  if lnIsInt i then
    (if k = 0 then ((x + y) % 2 ^ 32, {})
     else if k = 1 then (if signed 32 y ≤ signed 32 x then x else y, {})
     else (if signed 32 x ≤ signed 32 y then x else y, {}))
  else
    let f := lnFf i
    if k = 0 then lnRes (fAdd f rm x y) else if k = 1 then lnRes (fMax f x y) else lnRes (fMin f x y)

/-- LNT_RED. -/
def execLntRed (d : Fin 4) (n : Fin 8) (s : State) : Host.Outcome State Fault Refusal :=
  .next (lnRow s d n 0x50 (fun r i =>
    let cut := fun x => if lnIsInt i then x else lnCut (lnFf i) x
    let a := (lnA (lantern s d n) i).map cut
    let cols := bit i.imm 4
    let one := fun k => redAll (redOp i r.rm.toNat) ((upTo 16).map (fun j => a.getD (if cols then 16 * j + k else 16 * k + j) 0))
    let rs := (upTo 16).map one
    let xs := (upTo 256).map (fun w => (rs.getD (if cols then w % 16 else w / 16) (0, {})).1)
    lnDone (setLantern s d n (lnPut (lantern s d n) i.td xs)) d n r i (tallyAll rs)))

/-! ### Compress and expand (R146) -/

/-- LNT_CPRS. -/
def execLntCprs (d : Fin 4) (n : Fin 8) (s : State) : Host.Outcome State Fault Refusal :=
  .next (lnRow s d n 0x58 (fun r i =>
    let v := lantern s d n
    let act := (((lnA v i).zip (lnB v i)).filter (fun p => decide (p.2 ≠ 0))).map (·.1)
    lnMove (setLantern s d n { v with k := act.length }) d n r i ((act ++ List.replicate 256 0).take 256)))

/-- Elements put into the active places of a mask; the other places keep what they hold. -/
def lnSpread : List Nat → List (Nat × Nat) → List Nat
  | _, [] => []
  | xs, (mask, old) :: rest =>
    if mask = 0 then old :: lnSpread xs rest
    else match xs with
      | [] => 0 :: lnSpread [] rest
      | x :: more => x :: lnSpread more rest

/-- LNT_XPND. -/
def execLntXpnd (d : Fin 4) (n : Fin 8) (s : State) : Host.Outcome State Fault Refusal :=
  .next (lnRow s d n 0x59 (fun r i =>
    let v := lantern s d n
    lnMove s d n r i (lnSpread (lnA v i) ((lnB v i).zip (lnReg v i.td)))))

/-! ### Counters (R157) -/

/-- LNT_STALL_READ. -/
def execLntStallRead (d : Fin 4) (n : Fin 8) (s : State) : Host.Outcome State Fault Refusal :=
  .next (if regsUp s then setLantern (outRead s (lantern s d n).stall) d n { lantern s d n with stall := 0 } else s)

/-- LNT_STEPS_READ. -/
def execLntStepsRead (d : Fin 4) (n : Fin 8) (s : State) : Host.Outcome State Fault Refusal :=
  .next (if regsUp s then setLantern (outRead s (lantern s d n).steps) d n { lantern s d n with steps := 0 } else s)

end Sys2Proof.Machine
end

