-- ==== Sys2Proof/Machine/Link.lean ====
section
/-! DEFINITION. The link layer: flits, sequence numbers, replay, credits and pairs, training and retrain, and the time
exchange between packages (10 R232-R235, R242-R244, R247-R252; 15 R351). -/

namespace Sys2Proof.Machine

/-! ### Flits (R232, Table 10-3) -/

def flFK (f : Flit) : Nat := f.trailer.toNat / 2 ^ 61 % 8
def flVC (f : Flit) : Nat := f.trailer.toNat / 2 ^ 59 % 4
def flSEQ (f : Flit) : Byte := BitVec.ofNat 8 (f.trailer.toNat / 2 ^ 51)
def flACK (f : Flit) : Byte := BitVec.ofNat 8 (f.trailer.toNat / 2 ^ 43)
def flNAK (f : Flit) : Bool := f.trailer.toNat / 2 ^ 42 % 2 = 1
def flCRVC (f : Flit) : Nat := f.trailer.toNat / 2 ^ 40 % 4
def flCRN (f : Flit) : Nat := f.trailer.toNat / 2 ^ 36 % 16
def flPTAG (f : Flit) : BitVec 5 := BitVec.ofNat 5 (f.trailer.toNat / 2 ^ 31)

/-- The upper six bytes of a trailer, the most significant first. -/
def trailBytes (t : Nat) : List Byte := (natLe 6 (t / 2 ^ 16)).reverse

/-- CRC of a flit: the body, then trailer bits [63:16]. -/
def flitCrc (body : List Word) (t : Nat) : Nat := crc16 (ofWords (padTo 16 body) ++ trailBytes t)

def flitGood (f : Flit) : Bool := decide (flitCrc f.body f.trailer.toNat = f.trailer.toNat % 65536)

/-- The acknowledgement an endpoint gives: a first half of a pair is never acknowledged alone (R235). -/
def epAck (v : Endp) : Byte := v.erx - 1 - (if v.pair1.isSome then 1 else 0)

/-- The credits that the next flit returns: a channel and a number. -/
def owedNow (v : Endp) : Nat × Nat :=
  match (upTo 4).find? (fun c => decide (v.owe.getD c 0 ≠ 0)) with
  | some c => (c, min 15 (v.owe.getD c 0))
  | none => (0, 0)

/-- An endpoint after a flit has carried its acknowledgement and credits. -/
def afterFlit (v : Endp) : Endp :=
  { v with sinceAck := 0, owe := listSet v.owe (owedNow v).1 (v.owe.getD (owedNow v).1 0 - (owedNow v).2) }

/-- A flit as it leaves endpoint v. -/
def mkFlit (v : Endp) (fk vc : Nat) (seq : Byte) (nak : Bool) (tag : BitVec 5) (body : List Word) : Flit :=
  let t := fk * 2 ^ 61 + vc * 2 ^ 59 + seq.toNat * 2 ^ 51 + (epAck v).toNat * 2 ^ 43 + b2n nak * 2 ^ 42
    + (owedNow v).1 * 2 ^ 40 + (owedNow v).2 * 2 ^ 36 + tag.toNat * 2 ^ 31
  ⟨padTo 16 body, BitVec.ofNat 64 (t + flitCrc body t)⟩

def fkIDLE : Nat := 0
def fkCTRL : Nat := 1
def fkHDR : Nat := 2
def fkPAIR1 : Nat := 3
def fkPAIR2 : Nat := 4

/-- A flit leaves endpoint e, which then is as v; one of a die whose VCORE has moved too fast is unspecified (16 R376). -/
def sendFlit (s : State) (e : Ep) (v : Endp) (f : Flit) : State :=
  output (setEndp s (epCode e) v) (.flit e (if epSlewed s (epCode e) then slewedFlit (3 * s.free + epCode e % 3) else f))

/-- A flit without sequence number sent. -/
def sendPlain (s : State) (e : Ep) (fk : Nat) (nak : Bool) : State :=
  let v := endp s (epCode e)
  sendFlit s e (afterFlit v) (mkFlit v fk 0 0 nak 0 [])

/-- The endpoint has sent the first half of a pair and not the second. -/
def midPair (v : Endp) : Bool :=
  match v.sent.getLast? with
  | some x => decide (x.2.fk = fkPAIR1)
  | none => false

/-- A CTRL flit sent, or, between the halves of a pair on an in-package link, as soon as the pair is whole (R235, R38). -/
def sendCtrl (s : State) (e : Ep) (nak : Bool) : State :=
  let v := endp s (epCode e)
  if midPair v && !isExt (epCode e) then setEndp s (epCode e) { v with ctrl := if nak then 2 else max v.ctrl 1 }
  else sendPlain s e fkCTRL nak

/-! ### Sending (R233, R234, R237) -/

/-- A flit is the header of a request that has been sent before and waits to be sent again after a failover (R244). -/
def sentBefore (pa : Party) (f : TxFlit) : Bool := pa.outst.any (fun o => o.sent && decide (o.ask = f.ask))

/-- The header of a request still fits the limit of outstanding requests; one sent again after a failover counts already (R237,
R244). -/
def withinLimit (s : State) (e : Nat) (f : TxFlit) : Bool :=
  if f.fk = fkHDR ∧ f.ask ≠ 0 ∧ kindAnswered (field (wordAt f.body 0) 31 28) then
    match partyOf s e with
    | some p => decide (outstOn (party s p) f.vc < 64) || sentBefore (party s p) f
    | none => false
  else true

/-- Credits and replay room that a flit needs. -/
def roomFor (ext : Bool) (v : Endp) (f : TxFlit) : Bool :=
  let n := creditsFor ext f
  decide (v.credits.getD f.vc 0 ≥ n) && decide (v.sent.length + n ≤ 64)

/-- The input of endpoint e that a header comes by, which its channel serves in turn (02 R39; DESIGN CHOICE, log entry 64): an agent of its
die, another die of the package, or another chip. It is the source of a request and the target of a response. -/
def txInput (s : State) (e : Nat) (f : TxFlit) : Nat :=
  let t : Txn := ⟨f.body, []⟩
  let h := wordAt f.body 1
  let p := if txnKind t = kRSP then (addrChip (txnAddr t), addrDie (txnAddr t), 0) else (field h 15 13, field h 12 9, field h 31 16)
  if p.1 ≠ ownChip s then 16 + p.1 else if p.2.1 ≠ epDie e then p.2.1 else 1000 + p.2.2

/-- The input of a flit: that of its header, which channel c has kept for the pairs behind it. -/
def flitInput (s : State) (e : Nat) (v : Endp) (f : TxFlit) : Nat := if f.fk = fkHDR then txInput s e f else v.rr.getD f.vc 0

/-- An input of the reserved class of H, which goes before all other traffic: the receivers that cannot be held off (02 R43; Table 9-6). -/
def reservedInput (e k : Nat) : Bool := decide (epDie e = 4) && decide (k ∈ [0x404, 0x405, 0x408, 0x409, 0x40A, 0x40B].map (1000 + ·))

/-- Those of a list that go before the others: the ones of the reserved class, or all where there is none. -/
def urgent (l : List α) (p : α → Bool) : List α := if l.any p then l.filter p else l

/-- The pairs of channel c that stand before its next header in a list, and the rest. -/
def pairsOf (c : Nat) : List TxFlit → List TxFlit × List TxFlit
  | [] => ([], [])
  | f :: fs =>
    if f.vc ≠ c then ((pairsOf c fs).1, f :: (pairsOf c fs).2)
    else if f.fk = fkHDR then ([], f :: fs)
    else (f :: (pairsOf c fs).1, (pairsOf c fs).2)

/-- A header taken out of a list: its pairs, and the rest. -/
def takeOut (f : TxFlit) : List TxFlit → List TxFlit × List TxFlit
  | [] => ([], [])
  | g :: gs => if g = f then pairsOf f.vc gs else ((takeOut f gs).1, g :: (takeOut f gs).2)

/-- The header that channel c sends next: one that is sent again after a failover first, in the old order (R244), else that of the input
whose turn it is among those whose requests fit the limit of R237, the reserved class first. -/
def nextHdr (s : State) (e : Nat) (v : Endp) (c : Nat) : Option TxFlit :=
  let hs := v.txq.filter (fun f => decide (f.vc = c) && decide (f.fk = fkHDR))
  let again := fun (f : TxFlit) => decide (f.ask ≠ 0) && ((partyOf s e).map (fun p => sentBefore (party s p) f)).getD false
  match hs.find? again with
  | some f => some f
  | none =>
    let ok := urgent (hs.filter (withinLimit s e)) (fun f => reservedInput e (txInput s e f))
    ok.find? (fun f => decide (txInput s e f = nextInput (v.rr.getD c 0) (ok.map (txInput s e))))

/-- The flit that channel c would send next and the list without it: the rest of the transaction whose header has left, else the next
header, whose pairs then come first. -/
def chanNext (s : State) (e : Nat) (v : Endp) (c : Nat) : Option (TxFlit × List TxFlit) :=
  match v.txq.find? (fun f => decide (f.vc = c)) with
  | none => none
  | some g =>
    if g.fk ≠ fkHDR then (if roomFor (isExt e) v g then some (g, v.txq.erase g) else none)
    else match nextHdr s e v c with
      | none => none
      | some f => if roomFor (isExt e) v f then some (f, (takeOut f v.txq).1 ++ (takeOut f v.txq).2) else none

/-- The flit to send next and the rest of the list: the second half of a pair after the first, else that of the channel whose turn it
is among those that can send (02 R39), those with a flit of the reserved class first. -/
def pickFlit (s : State) (e : Nat) (v : Endp) : Option (TxFlit × List TxFlit) :=
  let can := (upTo 4).filter (fun c => (chanNext s e v c).any (fun r => !midPair v || decide (r.1.fk = fkPAIR2)))
  let first := urgent can (fun c => (chanNext s e v c).any (fun r => reservedInput e (flitInput s e v r.1)))
  if can = [] then none else chanNext s e v (nextInput v.rrVc first)

/-- The time of chip `master` as this chip knows it (R247). -/
def masterTime (s : State) (master : BitVec 3) : Time := if master = s.nld.chip then s.tb else s.tb + s.nld.tofs

/-- A time put into two words of a header. -/
def putTime (b : List Word) (i : Nat) (t : Time) : List Word := listSet (listSet b i (loWord t)) (i + 1) (hiWord t)

/-- The legs as OPERAND bits [7:6] code them; the master stands in bits [5:3], the hops in [2:0] (DESIGN CHOICE, log entry 63). -/
def legCode : TsyncLeg → Nat
  | .first => 0
  | .reply => 1
  | .final => 2

/-- T1 to T4 as a TSYNC carries them inline (DESIGN CHOICE, log entry 63). -/
def tsyncBytes (m : TsyncMsg) : List Byte := [m.t1, m.t2, m.t3, m.t4].flatMap (fun t => wordLe (loWord t) ++ wordLe (hiWord t))

/-- The leg that a TSYNC transaction carries. -/
def tsyncMsg (t : Txn) : Option TsyncMsg :=
  let o := (txnOperand t).toNat
  let at_ := fun (i : Nat) => joinTime (leWord ((txnBytes t).drop (8 * i) |>.take 4)) (leWord ((txnBytes t).drop (8 * i + 4) |>.take 4))
  let m := fun (l : TsyncLeg) =>
    some { leg := l, t1 := at_ 0, t2 := at_ 1, t3 := at_ 2, t4 := at_ 3, master := BitVec.ofNat 3 (o / 8), hops := BitVec.ofNat 3 o }
  match o / 64 with
  | 0 => m .first
  | 1 => m .reply
  | 2 => m .final
  | _ => none

/-- A TSYNC as it leaves: the first leg carries the master's time now, T1, and the reply its sender's time now, T3 (R247; log entry
63). -/
def stamped (s : State) (b : List Word) : List Word :=
  let o := (wordAt b 5).toNat
  if field (wordAt b 0) 31 28 ≠ kTSYNC then b
  else if o / 64 = 0 then putTime b 8 (masterTime s (BitVec.ofNat 3 (o / 8)))
  else if o / 64 = 1 then putTime b 12 s.tb
  else b

/-- A header takes a TID as it leaves: that of a request which has none yet (R237). -/
def takesTid (pa : Party) (f : TxFlit) : Bool := decide (f.fk = fkHDR) && decide (f.ask ≠ 0) && !sentBefore pa f

/-- A flit as it leaves towards party pa: a request's header with the next TID of its channel. -/
def numbered (s : State) (pa : Party) (f : TxFlit) : TxFlit :=
  if f.fk ≠ fkHDR then f
  else
    let b := if takesTid pa f then
        listSet f.body 0 ((wordAt f.body 0 &&& 0xFFFF_0000) ||| w32 (pa.nextTid.getD f.vc 0).toNat)
      else f.body
    { f with body := stamped s b }

/-- A flit as endpoint e sends it. -/
def leaving (s : State) (e : Nat) (f : TxFlit) : TxFlit :=
  match partyOf s e with
  | some p => numbered s (party s p) f
  | none => f

/-- A request whose header f has left has its TID and is outstanding. -/
def askSent (f : TxFlit) (o : Outst) : Outst :=
  if o.ask = f.ask then { o with sent := true, tid := txnTid ⟨f.body, []⟩, txn := { o.txn with hdr := f.body } } else o

/-- The requests to a party after a header f that takes a TID has left: those that have been sent stand first, in the order in which
they were sent, which a failover keeps (R244), then those that wait. -/
def sentOrder (f : TxFlit) (l : List Outst) : List Outst :=
  l.filter (·.sent) ++ (l.filter (fun o => !o.sent && decide (o.ask = f.ask))).map (askSent f)
    ++ l.filter (fun o => !o.sent && decide (o.ask ≠ f.ask))

/-- A request's header has left, as `leaving` gives it. -/
def markSent (s : State) (e : Nat) (f : TxFlit) : State :=
  match partyOf s e with
  | none => s
  | some p =>
    let pa := party s p
    if f.fk ≠ fkHDR ∨ f.ask = 0 then s
    else setParty s p { pa with
      nextTid := if takesTid pa f then listSet pa.nextTid f.vc (pa.nextTid.getD f.vc 0 + 1) else pa.nextTid,
      outst := if takesTid pa f then sentOrder f pa.outst else pa.outst.map (askSent f) }

/-- A request that was called off before it could leave has left: its CANCEL goes after it (R240). -/
def callAfter (s : State) (e : Nat) (f : TxFlit) : State :=
  match partyOf s e with
  | none => s
  | some p =>
    match (party s p).outst.find? (fun o => o.sent && decide (o.ask = f.ask) && decide (o.ask ∈ (party s p).calledOff)) with
    | none => s
    | some o =>
      sendTxn (setParty s p { party s p with calledOff := (party s p).calledOff.filter (fun k => decide (k ≠ o.ask)) })
        o.ep (cancelTxn s o)

/-- The reply of a TSYNC exchange has left: its time is T3 here too (R247). -/
def noteT3 (s : State) (f : TxFlit) : State :=
  match s.nld.tsOpen, tsyncMsg ⟨f.body, []⟩ with
  | some (p, t1, t2, _), some m =>
    if f.fk = fkHDR ∧ field (wordAt f.body 0) 31 28 = kTSYNC ∧ m.leg = .reply ∧ m.t1 = t1 then
      { s with nld := { s.nld with tsOpen := some (p, t1, t2, m.t3) } }
    else s
  | _, _ => s

/-- A flit as it leaves: the halves of a pair carry the channel's next tag (R235). -/
def tagged (v : Endp) (f : TxFlit) : TxFlit := if f.fk = fkHDR then f else { f with ptag := v.ptag.getD f.vc 0 }

/-- The channel's tags after a flit: the next one once a pair is whole. -/
def tagAfter (v : Endp) (f : TxFlit) : List (BitVec 5) :=
  if f.fk = fkPAIR2 then listSet v.ptag f.vc (v.ptag.getD f.vc 0 + 1) else v.ptag

/-- The first request on the CHN channel that has been sent from a port to a party and that the link has not wholly taken. -/
def chnSending (s : State) (e : Nat) : Option (Nat × Outst) :=
  (partyOf s e).bind (fun p => ((party s p).outst.find? (fun o =>
    o.sent && decide (o.ep = e) && decide (txnKind o.txn = kCHN) && (match o.who with
      | .unit _ => true
      | _ => false))).map (fun o => (p, o)))

/-- The next flit of channel vc in a list to send is the rest of a transaction whose header has left. -/
def restFollows (vc : Nat) (l : List TxFlit) : Bool :=
  match l.find? (fun x => decide (x.vc = vc)) with
  | some x => decide (x.fk ≠ fkHDR)
  | none => false

/-- The last flit of a chain row has left: the link has taken the row, and its position goes on (05 R124). -/
def rowTaken (s : State) (e : Nat) (f : TxFlit) (rest : List TxFlit) : State :=
  if f.fk ≠ fkPAIR2 || decide (f.vc ≠ 2) || restFollows 2 rest then s
  else match chnSending s e with
    | none => s
    | some (p, o) =>
      match o.who with
      | .unit (.plinth d n) => chainTaken (orphan s p o) d n
      | _ => s

/-- A sequenced flit sent. -/
def sendSeq (s : State) (e : Ep) (f : TxFlit) (rest : List TxFlit) : State :=
  let v := endp s (epCode e)
  let x := tagged v (leaving s (epCode e) f)
  let v1 := { afterFlit v with
    txq := rest, sent := v.sent ++ [(v.sseq, x)], sseq := v.sseq + 1, ptag := tagAfter v f,
    credits := listSet v.credits f.vc (v.credits.getD f.vc 0 - 1),
    rr := if f.fk = fkHDR then listSet v.rr f.vc (txInput s (epCode e) f) else v.rr, rrVc := f.vc }
  let s1 := sendFlit s e v1 (mkFlit v f.fk f.vc v.sseq false x.ptag x.body)
  rowTaken (noteT3 (callAfter (markSent s1 (epCode e) x) (epCode e) x) x) (epCode e) f rest

/-- A CTRL flit that waited for the end of a pair. -/
def ctrlAfter (s : State) (e : Ep) : State :=
  let v := endp s (epCode e)
  if v.ctrl = 0 ∨ midPair v then s
  else sendPlain (setEndp s (epCode e) { v with ctrl := 0 }) e fkCTRL (decide (v.ctrl = 2))

/-- FLIT_SEND (R234): one sequenced flit; on an external port an IDLE flit where none can go (R232). -/
def execFlitSend (e : Ep) (s : State) : Host.Outcome State Fault Refusal :=
  let v := endp s (epCode e)
  .next (if v.st = .up then
      match pickFlit s (epCode e) v with
      | some (f, rest) => ctrlAfter (sendSeq s e f rest) e
      | none => if isExt (epCode e) then sendPlain s e fkIDLE false else s
    else s)

/-- ACK_DUE (R233 step 7): an acknowledgement not given, or credits not returned (R234), go with a CTRL flit. -/
def execAckDue (e : Ep) (s : State) : Host.Outcome State Fault Refusal :=
  let v := endp s (epCode e)
  .next (if decide (v.st = .up) && (decide (v.sinceAck ≠ 0) || v.owe.any (fun n => decide (n ≠ 0))) then sendCtrl s e false else s)

/-! ### Retrain attempts (R242-R244, R252) -/

def errCRC : BitVec 5 := 1
def errLANE : BitVec 5 := 2
def errNOPROG : BitVec 5 := 4
def errPROTO : BitVec 5 := 8

/-- The held first half of a pair discarded: what it had advanced is taken back, so that the RESUME asks for it again
(R235, R243 step 1). -/
def dropHalf (v : Endp) : Endp :=
  match v.pair1 with
  | some h => { v with pair1 := none, erx := v.erx - 1, used := listSet v.used h.vc (v.used.getD h.vc 0 - 1) }
  | none => v

/-- The endpoint stops its sequenced flits and retrains its lanes. -/
def toTraining (v : Endp) : Endp := { dropHalf v with st := .training, locked := false, ctrl := 0 }

/-- An attempt fails: the third in a row puts the endpoint DOWN, else the next attempt begins (R243). -/
def attemptFails (s : State) (e : Nat) : State :=
  let v := { endp s e with fails := (endp s e).fails + 1, locked := false }
  if v.fails ≥ 3 then goDown (setEndp s e v) e else setEndp s e v

/-- A trigger of R242 with its cause. -/
def trigger (s : State) (e : Nat) (err : BitVec 5) : State :=
  let v := { endp s e with err := (endp s e).err ||| err }
  match v.st with
  | .up =>
    let s1 := setEndp s e { toTraining v with retrain := satAdd v.retrain 1 }
    if isExt e ∨ (endp s1 (epPeer e)).st ≠ .up then s1 else setEndp s1 (epPeer e) (toTraining (endp s1 (epPeer e)))
  | .training =>
    if v.wasUp then attemptFails (setEndp s e { v with retrain := satAdd v.retrain 1 }) e
    else setEndp s e { v with locked := false }
  | _ => s

/-- LANE_LOCK_LOSS (R242). -/
def execLaneLockLoss (p : Fin 4) (s : State) : Host.Outcome State Fault Refusal := .next (trigger s (17 + p.val) errLANE)

/-- LANE_NO_PROGRESS (R242): an in-package endpoint that holds a flit not acknowledged. -/
def execLaneNoProgress (e : Ep) (s : State) : Host.Outcome State Fault Refusal :=
  .next (if !isExt (epCode e) && decide ((endp s (epCode e)).sent ≠ []) then trigger s (epCode e) errNOPROG else s)

/-- RETRAIN written as 1 (R252). -/
def retrainSet (s : State) (e : Nat) : State := if (endp s e).st = .up then trigger s e 0 else s

/-- NLD_RETRAIN_WRITE (R252). -/
def execNldRetrainWrite (e : Ep) (s : State) : Host.Outcome State Fault Refusal :=
  .next (if regsUp s then retrainSet s (epCode e) else s)

/-- Flits of each channel that an endpoint can still take. -/
def freeCredits (e : Nat) (v : Endp) : List Nat := (upTo 4).map (fun c => (epBuffers e).getD c 0 - v.used.getD c 0)

/-- The RESUME of an endpoint (R243 step 3); one of a die whose VCORE has moved too fast carries unspecified values (16 R376). -/
def resumeOut (s : State) (e : Ep) : Output :=
  let v := endp s (epCode e)
  let any := fun (i : Nat) => Config.slewedWord (8 * s.free + i)
  if epSlewed s (epCode e) then .resume e ((any 0).setWidth 8) ((upTo 4).map (fun i => (any (1 + i)).toNat % 1024)) ((any 5).setWidth 3)
  else .resume e v.erx (freeCredits (epCode e) v) s.nld.chip

/-- BLOCK_LOCK_ACQUIRED (R243 steps 2 and 3): the endpoint sends its RESUME. -/
def execBlockLockAcquired (e : Ep) (s : State) : Host.Outcome State Fault Refusal :=
  let v := endp s (epCode e)
  .next (if decide (v.st = .training) && !v.locked then
      output (setEndp s (epCode e) { v with locked := true, owe := [0, 0, 0, 0] }) (resumeOut s e)
    else s)

/-- The oldest SEQ not released. -/
def oldestSeq (v : Endp) : Byte := v.sseq - BitVec.ofNat 8 v.sent.length

/-- The flits of the replay buffer sent again, in order. -/
def resendAll (s : State) (e : Ep) : List (Byte × TxFlit) → State
  | [] => s
  | x :: xs =>
    let v := endp s (epCode e)
    resendAll (sendFlit s e (afterFlit v) (mkFlit v x.2.fk x.2.vc x.1 false x.2.ptag x.2.body)) e xs

/-- A RESUME names a chip other than the port's neighbour. -/
def wrongChip (e : Nat) (v : Endp) (m : ResumeMsg) : Bool :=
  isExt e && (match v.neighbour with
    | some c => decide (c ≠ m.chip)
    | none => false)

/-- The credits of a RESUME less those that the flits sent again take (R234, R243 step 4). -/
def creditsAfter (cs : List Nat) (l : List (Byte × TxFlit)) : List Nat :=
  (upTo 4).map (fun c => cs.getD c 0 - (l.filter (fun x => decide (x.2.vc = c))).length)

/-- The first RESUME of an external port fixes its neighbour, whatever comes of the attempt (R237, R243 step 3). -/
def meetChip (e : Nat) (v : Endp) (m : ResumeMsg) : Endp :=
  if isExt e && v.neighbour.isNone then { v with neighbour := some m.chip } else v

/-- The peer has taken a RESUME's flits, and the endpoint is UP (R243 steps 4 and 5). -/
def resumeUp (s : State) (e : Ep) (m : ResumeMsg) : State :=
  let v := endp s (epCode e)
  let k := (m.erx - oldestSeq v).toNat
  let v1 := { v with
    st := .up, fails := 0, sent := v.sent.drop k, credits := creditsAfter m.credits (v.sent.drop k), sameReplays := 0, wasUp := true }
  resendAll (setEndp s (epCode e) v1) e v1.sent

/-- A flit discarded for its CRC, counted (R250). -/
def crcBad (v : Endp) : Endp := { v with crc := satAdd v.crc 1, err := v.err ||| errCRC }

/-- NLD_RESUME_FLIT (R243, R253). -/
def execNldResumeFlit (e : Ep) (m : ResumeMsg) (s : State) : Host.Outcome State Fault Refusal :=
  let v := endp s (epCode e)
  let s1 := setEndp s (epCode e) (meetChip (epCode e) v m)
  .next (if decide (v.st = .training) && v.locked then
      (if !m.crcGood then attemptFails (setEndp s (epCode e) (crcBad v)) (epCode e)
       else if decide ((m.erx - oldestSeq v).toNat > v.sent.length) || wrongChip (epCode e) v m then
         attemptFails s1 (epCode e)
       else resumeUp s1 e m)
    else s)

/-- RETRAIN_LIMIT_EXPIRY (R243): of an attempt; the first training has its own limits (R251). -/
def execRetrainLimitExpiry (e : Ep) (s : State) : Host.Outcome State Fault Refusal :=
  let v := endp s (epCode e)
  .next (if decide (v.st = .training) && v.wasUp then attemptFails s (epCode e) else s)

/-- EXT_PORT_TRAIN_TIMEOUT (R251). -/
def execExtPortTrainTimeout (p : Fin 4) (s : State) : Host.Outcome State Fault Refusal :=
  let v := endp s (17 + p.val)
  .next (if decide (v.st = .training) && !v.wasUp then goDown s (17 + p.val) else s)

/-! ### Receiving (R233-R236) -/

/-- Flits acknowledged up to ACK released, or none where ACK names a SEQ never sent. An older ACK changes nothing: one of the 64 SEQs
before the oldest flit that is kept is taken for old, any further one for never sent (DESIGN CHOICE, log entry 54). -/
def takeAck (v : Endp) (ack : Byte) : Option Endp :=
  let k := (ack + 1 - oldestSeq v).toNat
  if k = 0 ∨ k ≥ 192 then some v
  else if k ≤ v.sent.length then some { v with sent := v.sent.drop k, sameReplays := 0 }
  else none

/-- Returned credits taken, or none where they pass the peer's buffer. -/
def takeCredits (e : Nat) (v : Endp) (vc n : Nat) : Option Endp :=
  let c := v.credits.getD vc 0 + n
  if c > (epBuffers e).getD vc 0 then none else some { v with credits := listSet v.credits vc c }

/-- A NAK: everything from ACK + 1 on is sent again; the eighth replay of one SEQ starts a retrain (R233, R242). -/
def nakDo (s : State) (e : Ep) : State :=
  let v := endp s (epCode e)
  if v.sent = [] then s
  else
    let v1 := { v with replay := satAdd v.replay v.sent.length, sameReplays := v.sameReplays + 1 }
    let s1 := resendAll (setEndp s (epCode e) v1) e v1.sent
    if v1.sameReplays ≥ 8 then trigger s1 (epCode e) errNOPROG else s1

/-- NAK_RECEIVE (R233 step 6). -/
def execNakReceive (e : Ep) (ack : BitVec 8) (s : State) : Host.Outcome State Fault Refusal :=
  let v := endp s (epCode e)
  .next (if v.st = .up then
      match takeAck v ack with
      | none => trigger s (epCode e) errPROTO
      | some v1 => nakDo (setEndp s (epCode e) v1) e
    else s)

/-- A transaction whose last flit has come moves to the list of those to execute. -/
def settlePartials (v : Endp) : Endp :=
  { v with
    partials := v.partials.filter (fun p => decide (p.missing ≠ 0)),
    rx := v.rx ++ (v.partials.filter (fun p => decide (p.missing = 0))).map (fun p => ⟨p.hdr, p.data⟩) }

/-- A pair's data added to the first transaction of its channel that lacks pairs. -/
def addPair (vc : Nat) (ws : List Word) : List Partial → List Partial
  | [] => []
  | p :: ps =>
    if p.vc = vc ∧ p.missing ≠ 0 then { p with data := p.data ++ ws, missing := p.missing - 1 } :: ps
    else p :: addPair vc ws ps

/-- A sequenced flit taken at endpoint e, or none on a link protocol error. -/
def takeSeq (e : Nat) (v : Endp) (f : Flit) : Option Endp :=
  let vc := flVC f
  let v1 := { v with
    erx := v.erx + 1, sinceAck := v.sinceAck + 1, used := listSet v.used vc (v.used.getD vc 0 + 1) }
  match v.pair1 with
  | some h =>
    if flFK f = fkPAIR2 ∧ h.vc = vc ∧ h.ptag = flPTAG f then
      some (settlePartials { v1 with pair1 := none, partials := addPair vc (h.body ++ padTo 16 f.body) v1.partials })
    else none
  | none =>
    if flFK f = fkPAIR1 then some { v1 with pair1 := some { fk := fkPAIR1, vc := vc, ptag := flPTAG f, body := padTo 16 f.body } }
    else if flFK f = fkHDR then
      let t : Txn := ⟨padTo 16 f.body, []⟩
      if kindTaken e (txnKind t) vc then
        some (settlePartials { v1 with partials := v1.partials ++ [⟨vc, t.hdr, [], txnPairs (txnKind t) (txnLen t)⟩] })
      else none
    else none

/-- A link protocol error (R235, R242). -/
def protocolError (s : State) (e : Nat) : State := trigger s e errPROTO

/-- A sequenced flit with the right CRC (R233 steps 3 and 4). -/
def seqFlit (s : State) (e : Ep) (f : Flit) : State :=
  let v := endp s (epCode e)
  if flSEQ f = v.erx then
    match takeSeq (epCode e) v f with
    | none => protocolError s (epCode e)
    | some v1 =>
      let s1 := setEndp s (epCode e) v1
      if v1.sinceAck ≥ 32 then sendCtrl s1 e false else s1
  else s

/-- A sequenced flit in turn that breaks the link protocol. -/
def badSeq (e : Nat) (v : Endp) (f : Flit) : Bool :=
  decide (fkHDR ≤ flFK f ∧ flFK f ≤ fkPAIR2) && decide (flSEQ f = v.erx) && (takeSeq e v f).isNone

/-- A flit whose CRC matches: acknowledgement and credits first. A protocol error of the same flit wins over its NAK, whose
replay the retrain does (R253). -/
def goodFlit (s : State) (e : Ep) (f : Flit) : State :=
  let v := endp s (epCode e)
  match takeAck v (flACK f) with
  | none => protocolError s (epCode e)
  | some v1 =>
    match takeCredits (epCode e) v1 (flCRVC f) (flCRN f) with
    | none => protocolError s (epCode e)
    | some v2 =>
      let s1 := setEndp s (epCode e) v2
      let s2 := if flNAK f && !badSeq (epCode e) v2 f then nakDo s1 e else s1
      if (endp s2 (epCode e)).st = .up ∧ fkHDR ≤ flFK f ∧ flFK f ≤ fkPAIR2 then seqFlit s2 e f else s2

/-- FLIT_RECEIVE (R232, R233). -/
def execFlitReceive (e : Ep) (f : Flit) (s : State) : Host.Outcome State Fault Refusal :=
  let v := endp s (epCode e)
  .next (if v.st = .up then
      (if flitGood f then goodFlit (if epCode e = 21 then fTakes s else s) e f
       else sendCtrl (setEndp s (epCode e) (crcBad v)) e true)
    else s)

/-! ### Keep-alive (15 R351) -/

/-- HF_KEEPALIVE: H's endpoint 4 sends F a CTRL flit, which F takes. -/
def execHfKeepalive (s : State) : Host.Outcome State Fault Refusal :=
  .next (if decide ((endp s 16).st = .up) && decide (s.mstate ≠ .reset) then fTakes (sendCtrl s (.h 4) false) else s)

/-! ### Time between packages (R247) -/

/-- The first UP port to each neighbour. -/
def tsyncPorts (s : State) : List Nat :=
  (upTo 4).filter (fun p => portUp s p && (upTo p).all (fun q =>
    !portUp s q || decide ((endp s (17 + q)).neighbour ≠ (endp s (17 + p)).neighbour)))

def tsyncAsk (nb : BitVec 3) (m : TsyncMsg) : Ask :=
  { kind := kTSYNC, addr := devAddr nb.toNat 4 0, len := 32,
    operand := w32 (legCode m.leg * 64 + m.master.toNat * 8 + m.hops.toNat), payload := tsyncBytes m }

/-- A leg sent through port p as a request to its neighbour (R236, R237). -/
def sendTsync (s : State) (p : Nat) (m : TsyncMsg) : State :=
  match (endp s (17 + p)).neighbour with
  | none => s
  | some nb => sendAs s (17 + p) nb.toNat .boot (mkTxn s (tsyncAsk nb m) 0 1)

/-- The TSYNC that answers one which came through port p, with its TID (10 Table 10-6). -/
def answerTsync (s : State) (p : Nat) (m : TsyncMsg) (tid : BitVec 16) : State :=
  match (endp s (17 + p)).neighbour, replyEp s (17 + p) with
  | some nb, some e => sendTxn s e (mkTxn s (tsyncAsk nb m) tid 1)
  | _, _ => s

/-- Exchanges begun through ports: the first leg of each takes its T1 as it leaves. -/
def tsyncBegin (s : State) (master hops : BitVec 3) : List Nat → State
  | [] => s
  | p :: ps => tsyncBegin (sendTsync s p ⟨.first, 0, 0, 0, 0, master, hops⟩) master hops ps

/-- TSYNC_PERIOD: the master begins an exchange with every neighbouring chip. -/
def execTsyncPeriod (s : State) : Host.Outcome State Fault Refusal :=
  .next (if s.nld.tmaster && decide (s.mstate ≠ .reset) then tsyncBegin s s.nld.chip 0 (tsyncPorts s) else s)

/-- The offset of an exchange. -/
def tsyncOfs (t1 t2 t3 t4 : Time) : Time := ((t1 - t2) + (t4 - t3)).sshiftRight 1

/-- NLD_TOFS was set less than two exchange periods ago (log entry 63). -/
def tsyncFresh (s : State) : Bool := decide (since s s.nld.tsAt < 2000000)

/-- A follower heeds the chip with the lowest identity of those that master the time, by its shortest way (log entry 63); once no
exchange by that way has completed for two periods it heeds another. -/
def tsyncHeeds (s : State) (m : TsyncMsg) : Bool :=
  decide (m.master ≠ s.nld.chip) && !(s.nld.tmaster && decide (s.nld.chip.toNat < m.master.toNat))
    && !(s.nld.tvalid && tsyncFresh s && (decide (s.nld.master.toNat < m.master.toNat)
        || (decide (s.nld.master = m.master) && decide (s.nld.hops.toNat < m.hops.toNat + 1))))
    && !chipIsolated s m.master.toNat && decide (m.hops.toNat < 7)

/-- The first leg has come: T2 is this chip's own time, T3 that at which the reply leaves; a leg of a master that this chip does not
heed is answered too. -/
def tsyncAnswer (s : State) (p : Fin 4) (m : TsyncMsg) (tid : BitVec 16) : State :=
  answerTsync (if tsyncHeeds s m then { s with nld := { s.nld with tsOpen := some (p.val, m.t1, s.tb, s.tb) } } else s) p
    { m with leg := .reply, t2 := s.tb, t3 := s.tb } tid

/-- The TSYNC outstanding to the neighbour of port p that a reply's TID names (R237), with its party. -/
def tsyncOutst (s : State) (p : Nat) (tid : BitVec 16) : Option (Nat × Outst) :=
  (partyOf s (17 + p)).bind (fun k =>
    ((party s k).outst.find? (fun o => o.sent && decide (o.tid = tid) && decide (txnKind o.txn = kTSYNC))).map (fun o => (k, o)))

/-- A reply has come: it completes the leg that it answers, and after a first leg T4 is this chip's time now, which the final leg
carries. A reply whose TID is not outstanding is discarded. The master's own NLD_TSTAT.VALID stays 0 (DESIGN CHOICE, log entry 63). -/
def tsyncClose (s : State) (p : Fin 4) (m : TsyncMsg) (tid : BitVec 16) : State :=
  match tsyncOutst s p tid with
  | none => s
  | some (k, o) =>
    let s1 := dropAsk s k o
    if (txnOperand o.txn).toNat / 64 = 0 then
      sendTsync s1 ((replyEp s1 (17 + p)).getD (17 + p) - 17) { m with leg := .final, t4 := masterTime s m.master }
    else s1

/-- The final leg has come: the offset is set, and the exchange goes on to this chip's other neighbours. -/
def tsyncSet (s : State) (p : Fin 4) (m : TsyncMsg) (t2 t3 : Time) : State :=
  let s1 := { s with nld := { s.nld with
    tofs := tsyncOfs m.t1 t2 t3 m.t4, tvalid := true, hops := m.hops + 1, master := m.master, tsOpen := none,
    tsAt := s.tb } }
  tsyncBegin s1 m.master (m.hops + 1)
    ((tsyncPorts s1).filter (fun q => decide ((endp s1 (17 + q)).neighbour ≠ (endp s1 (17 + p.val)).neighbour)))

/-- The final leg of the exchange that this chip answered last and heeds. -/
def tsyncFinal (s : State) (p : Fin 4) (m : TsyncMsg) : State :=
  match s.nld.tsOpen with
  | none => s
  | some (q, t1, t2, t3) => if q = p.val ∧ t1 = m.t1 ∧ tsyncHeeds s m then tsyncSet s p m t2 t3 else s

/-- A leg of an exchange that has come through port p (R247). The final leg is answered too, as every TSYNC is (Table 10-6). -/
def tsyncLeg (s : State) (p : Fin 4) (m : TsyncMsg) (tid : BitVec 16) : State :=
  match m.leg with
  | .first => tsyncAnswer s p m tid
  | .reply => tsyncClose s p m tid
  | .final => tsyncFinal (answerTsync s p { m with leg := .reply } tid) p m

/-! ### Registers (R250) -/

/-- NLD_LOCK written. -/
def nldLockSet (s : State) (v : Word) : State :=
  if !regsUp s then s else { s with nld := { s.nld with lock := s.nld.lock || bit v 0 } }

/-- NLD_LOCK_WRITE. -/
def execNldLockWrite (v : BitVec 32) (s : State) : Host.Outcome State Fault Refusal := .next (nldLockSet s v)

/-- NLD_CHIPID and NLD_ROUTE written. -/
def chipidSet (s : State) (v : Word) : State :=
  if s.nld.lock ∨ !regsUp s then s
  else { s with nld := { s.nld with tmaster := bit v 8, chip := v.extractLsb' 0 3 } }
def routeSet (s : State) (v : Word) : State :=
  if s.nld.lock ∨ !regsUp s then s else { s with nld := { s.nld with route := v } }

/-- NLD_EP_CTL written: EN until the lock and on external ports only, SSC on these, RETRAIN. -/
def epCtlSet (s : State) (e : Nat) (v : Word) : State :=
  let x := endp s e
  let s1 := if isExt e then setEndp s e { x with en := if s.nld.lock then x.en else bit v 31, ssc := bit v 8 } else s
  if bit v 0 then retrainSet s1 e else s1

def epCtlWord (e : Nat) (v : Endp) : Word :=
  if isExt e then w32 (b2n v.en * 2 ^ 31 + b2n v.ssc * 256) else 0x8000_0000

def epStCode (v : Endp) : Nat :=
  match v.st with
  | .down => 0
  | .training => 1
  | .up => 2
  | .closed => 3

def epStatWord (v : Endp) : Word := w32 (epStCode v * 2 ^ 30 + v.fails % 4 * 2 ^ 24 + v.erx.toNat)

def epCount (v : Endp) (k : EpCounter) : Word :=
  match k with
  | .crc => v.crc
  | .replay => v.replay
  | .retrain => v.retrain
  | .dup => v.dup
  | .cstall => v.cstall

def epCountClear (v : Endp) (k : EpCounter) : Endp :=
  match k with
  | .crc => { v with crc := 0 }
  | .replay => { v with replay := 0 }
  | .retrain => { v with retrain := 0 }
  | .dup => { v with dup := 0 }
  | .cstall => { v with cstall := 0 }

/-- NLD_EP_COUNTER_READ. -/
def execNldEpCounterRead (e : Ep) (k : EpCounter) (s : State) : Host.Outcome State Fault Refusal :=
  let v := endp s (epCode e)
  let x := dieSays s (epDie (epCode e)) (epCount v k)
  .next (if regsUp s then setEndp (outRead x.2 x.1) (epCode e) (epCountClear v k) else s)

end Sys2Proof.Machine
end

