-- ==== Sys2Proof/Machine/Memory.lean ====
section
/-! DEFINITION. The commands of the external memory controller and of the Vaults' counters (chapter 11). -/

namespace Sys2Proof.Machine

/-! ### Configuration and training (R258, R270, R272) -/

/-- MEM_CFG written: only while the controller is OFF. -/
def memCfgSet (s : State) (v : Word) : State :=
  if s.mem.st = .off ∧ regsUp s then { s with mem := { s.mem with cfg := v &&& 0xCF73_0000 } } else s

/-- MEM_CFG_WRITE (R270). -/
def execMemCfgWrite (v : BitVec 32) (s : State) : Host.Outcome State Fault Refusal := .next (memCfgSet s v)

/-- A configuration that R270 or Table 11-9 does not allow. -/
def memCfgBad (w : Word) : Bool :=
  let lp5 := bit w 16
  decide (field w 27 24 = 0) || decide (4 < field w 27 24) || (bit w 31 && !lp5)
    || decide ((if lp5 then 5 else 2) < field w 22 20)

/-- Training has failed on the channels of a mask. -/
def trainFailed (s : State) (fails : BitVec 16) : State :=
  let s1 := { s with mem := { s.mem with st := .failed, tfail := fails } }
  warn s1 (srcWord s1 skEngine 4 euMemory) 0x0052 (w32 fails.toNat) 0 0

/-- Training begins; a configuration that is not allowed fails at once. -/
def trainStart (s : State) : State :=
  if s.mem.st ≠ .off then s
  else if memCfgBad s.mem.cfg then trainFailed s 0xFFFF
  else { s with mem := { s.mem with st := .training } }

/-- LPDDR_TRAINING_END (R272): bit c of the mask names a channel that failed. -/
def execLpddrTrainingEnd (fails : BitVec 16) (s : State) : Host.Outcome State Fault Refusal :=
  .next (if s.mem.st = .training ∧ s.refclk then
      (if fails = 0 then
        { s with mem := { s.mem with st := .ready, psize := BitVec.ofNat 4 (field s.mem.cfg 27 24) } }
      else trainFailed s fails)
    else s)

/-! ### Refresh (R262, R273) -/

/-- MR4_POLL (R262): the highest multiplier that a device asks for; 3 is no multiplier. -/
def execMr4Poll (refm : BitVec 2) (s : State) : Host.Outcome State Fault Refusal :=
  .next (if s.mem.st = .ready ∧ s.refclk ∧ refm ≠ 3 then { s with mem := { s.mem with refm := refm } } else s)

/-- LPDDR_REFRESH_LOST (R273): what LPDDR held is unspecified from now on. -/
def execLpddrRefreshLost (s : State) : Host.Outcome State Fault Refusal :=
  .next (if s.refclk ∨ s.mstate = .reset then s
    else { s with mem := { s.mem with reflost := true, lpddr := [], epoch := s.mem.epoch + 1 } })

/-! ### The Vault (R257, R269, R271) -/

/-- The queues of a die serve what waited for its Vault: pushes, then pops. -/
def serveQueues (s : State) (d : Nat) : List Nat → State
  | [] => s
  | q :: qs =>
    let s1 := admitAll s d q
    serveQueues (servePops (queue s1 d q).pops.length s1 d q) d qs

/-- VAULT_CLEAR_DONE (R271): every line is zero with valid check bits, and accesses proceed. -/
def execVaultClearDone (d : Fin 4) (s : State) : Host.Outcome State Fault Refusal :=
  let c := cd s d
  .next (if c.vaultClearing ∧ s.mstate ≠ .reset then
      serveQueues (setCd s d { c with vault := [], vaultErr := [], vaultClearing := false }) d (c.queues.map (·.1))
    else s)

/-- MEM_VCORR_READ (R269). -/
def execMemVcorrRead (d : Fin 4) (s : State) : Host.Outcome State Fault Refusal :=
  .next (if regsUp s then setCd (outRead s (cd s d).vcorr) d { cd s d with vcorr := 0 } else s)

/-! ### Counters (R269) -/

def memCount (m : MemCtl) (k : MemCounter) : Word :=
  match k with
  | .rdb => m.rdb
  | .wrb => m.wrb
  | .lecc => m.lecc

def memCountClear (m : MemCtl) (k : MemCounter) : MemCtl :=
  match k with
  | .rdb => { m with rdb := 0 }
  | .wrb => { m with wrb := 0 }
  | .lecc => { m with lecc := 0 }

/-- MEM_BURST_COUNT_READ (R269). -/
def execMemBurstCountRead (k : MemCounter) (s : State) : Host.Outcome State Fault Refusal :=
  .next (if regsUp s then { outRead s (memCount s.mem k) with mem := memCountClear s.mem k } else s)

end Sys2Proof.Machine
end

