-- ==== Sys2Proof/Machine/Thermal.lean ====
section
/-! DEFINITION. Temperature sensing: filtering, thresholds and what each thermal state does (16 R381-R385, R389, R394). -/

namespace Sys2Proof.Machine

/-- The mean of eight samples rounded toward minus infinity (R382). -/
def filterOf (l : List (BitVec 12)) : BitVec 12 := BitVec.ofInt 12 ((l.map (·.toInt)).sum / 8)

/-- A threshold after one more filtered value: the 17th of an unbroken run sets or clears its flag (R383). -/
def threshNext (t : Int) (h : Thresh) (v : Int) : Thresh :=
  let a := if v ≥ t then h.above + 1 else 0
  let b := if v ≤ t - 16 then h.below + 1 else 0
  { flag := if a ≥ 17 then true else if b ≥ 17 then false else h.flag, above := min a 17, below := min b 17 }

def tWarn : Int := 380
def tSlow : Int := 420
def tHalt : Int := 472

/-- A sensor after one more sample. -/
def sensorNext (v : Sensor) (x : BitVec 12) : Sensor :=
  let l := (x :: v.samples).take 8
  if l.length < 8 then { v with samples := l }
  else
    let f := filterOf l
    { samples := l, filt := f, valid := true, warn := threshNext tWarn v.warn f.toInt,
      slow := threshNext tSlow v.slow f.toInt, halt := threshNext tHalt v.halt f.toInt }

/-- Every sensor sampled; F's samples come over the link from F, and there are none while F is not reached (R381). -/
def sampleAll (s : State) (xs : List (BitVec 12)) : State :=
  let one := fun (i : Nat) =>
    if i ≥ 36 ∧ !fReached s then (i, ({} : Sensor)) else (i, sensorNext (sensor s i) (xs.getD i 0))
  { s with power := { s.power with sensors := (upTo 38).map one } }

/-- The larger of two signed 12-bit values. -/
def maxTemp (a b : BitVec 12) : BitVec 12 := if a.toInt < b.toInt then b else a

/-- THM_PEAK and THM_SLOWT brought up to date. -/
def thermalCounts (s : State) : State :=
  let vs := (upTo 38).filter (sensorOn s)
  let pk := vs.foldl (fun m i => maxTemp m (sensor s i).filt) s.power.peak
  let ms := s.tb.toNat / 1000000
  let hot := anySensorAt s 2 && decide (s.power.slowMs ≠ some ms)
  { s with power := { s.power with
    peak := pk,
    slowt := if hot then satAdd s.power.slowt 1 else s.power.slowt,
    slowMs := if hot then some ms else s.power.slowMs } }

/-- The first sensor of a die in its highest state. -/
def hotSensor (s : State) (d : Nat) : Nat :=
  ((upTo 38).find? (fun i => decide (sensorDie i = d) && sensorOn s i
    && decide (sensorState (sensor s i) = dieThermal s d))).getD 0

/-- The rails whose thermal cap starts to fall from the voltage then applied when die d rises from state `was` into SLOW (R378,
R384). In HALT and SAFE every cap stays 0 (R393). A die that passes SLOW on its way to HALT enters it (log entry 56). -/
def capsFrom (s : State) (was d : Nat) : State :=
  if was ≥ 2 ∨ s.mstate = .halt ∨ s.mstate = .safe then s
  else { s with power := { s.power with
    capT := (upTo 4).map (fun n => if d = 4 ∨ d = n then (s.power.vapp.getD n 0).toNat else s.power.capT.getD n 0) } }

/-- Die d has risen from the state `was` to a higher thermal state (Table 16-2). -/
def thermalRise (s : State) (was d : Nat) : State :=
  let i := hotSensor s d
  let src := srcWord s skSensor d i
  let v := w32 (sensor s i).filt.toNat
  match dieThermal s d with
  | 1 => warn s src 0x0091 v 0 0
  | 2 => warn (capsFrom s was d) src 0x0092 v 0 0
  | 3 =>
    if s.mstate = .run ∨ s.mstate = .halt then haltFault (capsFrom s was d) hcTHERMAL (mkRec s sevFatal 3 src 0x0093 v 0 0)
    else
      let s1 := capsFrom s was d
      if s.mstate = .boot then { s1 with boot := { s1.boot with paused := true } } else s1
  | _ => s

def thermalActs (before : List Nat) (s : State) : List Nat → State
  | [] => s
  | d :: ds => thermalActs before (if dieThermal s d > before.getD d 0 then thermalRise s (before.getD d 0) d else s) ds

/-- Boot programming goes on once every filtered temperature has fallen to T_slow or below (12 R299). -/
def bootCools (s : State) : State :=
  if s.boot.paused && (upTo 38).all (fun i => !sensorOn s i || decide ((sensor s i).filt.toInt ≤ tSlow)) then
    { s with boot := { s.boot with paused := false } }
  else s

/-- SENSOR_SAMPLE (R381-R384, R392): the sensors measure nothing while the time base is held. The retention accounts of the
Domes run on with it in every state, in RESET, without supply and without REFCLK_IN too: power state changes no figure (04
R104; the row then stands for 125 us that passed at those temperatures, log entry 52). -/
def execSensorSample (samples : List (BitVec 12)) (s : State) : Host.Outcome State Fault Refusal :=
  .next (if tbRuns s then
      let before := (upTo 6).map (dieThermal s)
      agePackage (bootCools (thermalActs before (thermalCounts (sampleAll s samples)) (upTo 6))) samples
    else agePackage s samples)

/-- THM_PEAK_READ (R389). -/
def execThmPeakRead (s : State) : Host.Outcome State Fault Refusal :=
  .next (if regsUp s then { outRead s (w32 s.power.peak.toNat) with power := { s.power with peak := 0x800 } } else s)

/-- THM_SLOWT_READ (R389). -/
def execThmSlowtRead (s : State) : Host.Outcome State Fault Refusal :=
  .next (if regsUp s then { outRead s s.power.slowt with power := { s.power with slowt := 0 } } else s)

end Sys2Proof.Machine
end

