-- ==== Sys2Proof/Machine/UpdOps.lean ====
section
/-! DEFINITION. The BOOT_ registers: starting a command of the update engine, the rollback count, and what the status
registers read (12 R282, R286, R295, R296). -/

namespace Sys2Proof.Machine

/-! ### OTP (R282, R286) -/

/-- The value of RBCNT: the position of its highest set bit plus 1. -/
def rbValue (b : BitVec 64) : Nat := if b = 0 then 0 else Nat.log2 b.toNat + 1

/-- BOOT_CTL.SVNC: RBCNT raised to the SVN of the image that booted. -/
def svncSet (s : State) : State :=
  let n := s.boot.svn.toNat
  if s.mstate = .run ∧ rbValue s.otp.rbcnt < n then
    { s with otp := { s.otp with rbcnt := s.otp.rbcnt ||| BitVec.ofNat 64 (2 ^ n - 1) } }
  else s

/-- SVN_COMMIT (R286). -/
def execSvnCommit (s : State) : Host.Outcome State Fault Refusal := .next (svncSet s)

/-! ### The update engine takes a command (R295) -/

def slotGood (s : State) (slot : Bool) : Bool := if slot then s.boot.goodB else s.boot.goodA

/-- A slot GOOD or no longer GOOD. -/
def setGood (s : State) (slot good : Bool) : State :=
  { s with boot := if slot then { s.boot with goodB := good } else { s.boot with goodA := good } }

/-- The engine is there: the Spires have been released, and the machine is not in HALT, where it does not run (01 Table 1-10). -/
def updOn (s : State) : Bool := decide (s.mstate = .run)

/-- OFS and LEN of a WRITE keep R295. -/
def updAligned (s : State) : Bool := decide (s.boot.updOfs.toNat % 256 = 0) && decide (s.boot.updLen.toNat % 256 = 0)

/-- BOOT_UPD_CMD written: 1 ERASE, 2 WRITE, 3 CHECK. A command that is refused is held as its number plus 4. -/
def updCmd (s : State) (op : Nat) (slot : Bool) : State :=
  if !updOn s || decide (op = 0) || decide (op > 3) || s.boot.updBusy.isSome then s
  else
    let refused := (decide (op ≠ 3) && !slotGood s (!slot)) || (decide (op = 2) && !updAligned s)
    let s1 := if op ≠ 3 ∧ !refused then setGood s slot false else s
    { s1 with boot := { s1.boot with
      updBusy := some (if refused then op + 4 else op, slot), updBuf := [], updAsk := false, updBad := false,
      updGood := slotGood s slot } }

/-- UPD_ERASE (R295). -/
def execUpdErase (slot : Bool) (s : State) : Host.Outcome State Fault Refusal := .next (updCmd s 1 slot)

/-- UPD_WRITE (R295). -/
def execUpdWrite (slot : Bool) (s : State) : Host.Outcome State Fault Refusal := .next (updCmd s 2 slot)

/-- UPD_CHECK (R295). -/
def execUpdCheck (slot : Bool) (s : State) : Host.Outcome State Fault Refusal := .next (updCmd s 3 slot)

/-! ### Registers (Table 12-8) -/

/-- The in-package endpoints, which train in START (10 R251). -/
def inPackageEps : List Nat := upTo 17 ++ [21]

/-- The in-package links have trained; a link that does not come up holds START no longer than its 1.0 ms (R287; DEDUCED, log
entry 67). -/
def linksTrained (s : State) : Bool :=
  inPackageEps.all (fun e => (endp s e).wasUp || decide ((endp s e).st ≠ .training)) || decide (s.tb.toNat ≥ 1000000)

/-- START has done its work (R287): the time base counts, every Vault is clear and the links have trained. -/
def startDone (s : State) : Bool := s.tbStarted && (upTo 4).all (fun d => !(cd s d).vaultClearing) && linksTrained s

/-- The phase: FLASH once START is over (Table 12-6). -/
def bootPhase (s : State) : BitVec 4 :=
  if s.mstate = .boot ∧ s.boot.phase = 0 ∧ startDone s then 1 else s.boot.phase

def bootStat (s : State) : Word :=
  let b := s.boot
  w32 ((bootPhase s).toNat * 2 ^ 28 + b2n b.slot * 2 ^ 27 + b2n b.isOpen * 2 ^ 26 + b2n b.lskip * 2 ^ 25
    + b.causeA.toNat * 256 + b.causeB.toNat)

/-- BOOT_VER: the OTP's fields read 0 until AUTH has read it (R287; 00 R9). -/
def bootVer (s : State) : Word :=
  let o : Otp := if s.boot.otpRead then s.otp else {}
  w32 (b2n o.kvalid * 2 ^ 31 + rbValue o.rbcnt * 2 ^ 24 + s.boot.svn.toNat)

def keyByte (s : State) (i : Nat) : Byte := s.otp.keyhash.getD i 0

/-- BOOT_ registers read. -/
def bootRead (s : State) (o : Nat) : Option Word :=
  let b := s.boot
  if o = 0x00 then some (bootStat s)
  else if o = 0x04 then some (w32 (b.flashMode.toNat * 2 ^ 16 + b.flashMHz.toNat * 256 + b.flashDens.toNat))
  else if o = 0x08 then some b.time
  else if o = 0x0C then some (bootVer s)
  else if o = 0x10 then some (w32 (b.progs.toNat * 2 ^ 16 + b.verifs.toNat))
  else if o = 0x20 then some 0
  else if o = 0x40 then some (b.updSrc.extractLsb' 0 32)
  else if o = 0x44 then some (w32 (b.updSrc.toNat / 2 ^ 32))
  else if o = 0x48 then some b.updOfs
  else if o = 0x4C then some b.updLen
  else if o = 0x50 then some (w32 (b2n b.updBellEn * 2 ^ 16 + b.updBell.toNat))
  else if o = 0x54 then some 0
  else if o = 0x58 then
    some (w32 (b2n b.updBusy.isSome * 2 ^ 31 + b2n b.goodB * 2 ^ 17 + b2n b.goodA * 2 ^ 16 + b.updResult.toNat))
  else if 0x60 ≤ o ∧ o < 0x80 then some (leWord ((upTo 4).map (fun i => keyByte s (o - 0x60 + i))))
  else none

/-- BOOT_ registers written; those of the update engine are left alone while it is busy. -/
def bootWrite (s : State) (o : Nat) (v : Word) : State :=
  let b := s.boot
  if o = 0x20 then (if bit v 0 then svncSet s else s)
  else if b.updBusy.isSome then s
  else if o = 0x40 then { s with boot := { b with updSrc := BitVec.ofNat 48 (b.updSrc.toNat / 2 ^ 32 * 2 ^ 32 + v.toNat) } }
  else if o = 0x44 then
    { s with boot := { b with updSrc := BitVec.ofNat 48 (field v 15 0 * 2 ^ 32 + b.updSrc.toNat % 2 ^ 32) } }
  else if o = 0x48 then { s with boot := { b with updOfs := v } }
  else if o = 0x4C then { s with boot := { b with updLen := v } }
  else if o = 0x50 then { s with boot := { b with updBellEn := bit v 16, updBell := v.extractLsb' 0 16 } }
  else if o = 0x54 then updCmd s (field v 1 0) (bit v 31)
  else s

end Sys2Proof.Machine
end

