-- ==== Sys2Proof/Machine/Regs.lean ====
section
/-! DEFINITION. The register blocks as the address space shows them: what a read of each word returns and does, and what a
write does (00 R7, R8; the register tables of chapters 2 to 17). A location that no chapter defines gives none. -/

namespace Sys2Proof.Machine

/-- What a read comes to: the word and the state after it, or none where no register lies. -/
abbrev RegRead := Option (Word × State)

def rdSame (s : State) (v : Word) : RegRead := some (v, s)

/-! ### SYS_ on every die (02 Tables 2-4 to 2-8) -/

def shadowWord (s : State) (k : Nat) : Word := tabGet 0 s.shadows k

/-- The fabric part of a die's SYS_ block; `q` numbers the requester. -/
def fabRead (s : State) (q d o : Nat) : RegRead :=
  let v := sysDie s d
  match o with
  | 0x100 => some (loWord s.tb, setShadow s (q * 16) (hiWord s.tb))
  | 0x104 => rdSame s (shadowWord s (q * 16))
  | 0x108 => rdSame s (w32 (b2n v.refclkLost * 2 + b2n (tbRuns s)))
  | 0x110 => rdSame s (w32 (b2n (v.speedValid && s.refclk) * 2 ^ 31 + v.rate.toNat))
  | 0x120 => rdSame s (w32 (b2n v.stallEn * 2 ^ 31 + v.stallLimit.toNat))
  | 0x124 => some (v.stallCnt, setSysDie s d { v with stallCnt := 0 })
  | 0x128 => rdSame s (w32 v.stallPort.toNat)
  | _ => none

def fabWrite (s : State) (d o : Nat) (x : Word) : State :=
  let v := sysDie s d
  match o with
  | 0x108 => setSysDie s d { v with refclkLost := v.refclkLost && !bit x 1 }
  | 0x120 => setSysDie s d { v with stallEn := bit x 31, stallLimit := x.extractLsb' 0 16 }
  | _ => s

/-! ### Blocks of a C-die -/

def twrRead (s : State) (d n o : Nat) : RegRead :=
  let v := tower s d n
  match o with
  | 0x00 => rdSame s (w32 v.cmdq.toNat)
  | 0x04 => rdSame s (w32 v.flags.toNat)
  | 0x08 => rdSame s (w32 (b2n (v.cmd.isSome || decide ((plinth s d n).towerPort ≠ [])) * 2 ^ 31))
  | 0x0C => some (v.wait, setTower s d n { v with wait := 0 })
  | _ => none

def twrWrite (s : State) (d n o : Nat) (x : Word) : State :=
  let v := tower s d n
  match o with
  | 0x00 => setTower s d n { v with cmdq := x.extractLsb' 0 7, cmdqWas := nowWas v.cmd v.cmdqWas v.cmdq }
  | 0x04 => setTower s d n { v with flags := v.flags &&& ~~~(x.extractLsb' 0 4) }
  | _ => s

/-- A DRAIN, READT or CHAIN is running. -/
def plReading (p : Plinth) : Bool :=
  p.read.isSome || (match p.cmd with
    | some c => isReader c
    | none => false)

def plnRead (s : State) (d n o : Nat) : RegRead :=
  let v := plinth s d n
  match o with
  | 0x00 => rdSame s (w32 v.cmdq.toNat)
  | 0x04 => rdSame s v.seed
  | 0x08 => rdSame s v.runmax
  | 0x0C => rdSame s (w32 (b2n (plReading v) * 2 ^ 31 + b2n v.longSum * 2 ^ 30 + v.held.length % 2 ^ 13))
  | 0x10 => some (v.disc, setPlinth s d n { v with disc := 0 })
  | 0x14 => some (v.foldflush, setPlinth s d n { v with foldflush := 0 })
  | _ => none

def plnWrite (s : State) (d n o : Nat) (x : Word) : State :=
  let v := plinth s d n
  match o with
  | 0x00 => setPlinth s d n { v with cmdq := x.extractLsb' 0 7, cmdqWas := nowWas v.cmd v.cmdqWas v.cmdq }
  | 0x04 => plSeedSet s d n x
  | 0x0C => setPlinth s d n { v with longSum := v.longSum && !bit x 30 }
  | _ => s

/-- State of a bank as DOM_STAT codes it (04 Table 4-2). -/
def bankCode (b : Bank) : Nat :=
  match b.st with
  | .blank => 0
  | .prog => 1
  | .standby => 2
  | .active => 3
  | .fault => 4

/-- A PROGRAM is pending: taken and not granted yet (04 R97). -/
def bankPend (b : Bank) : Bool := b.job.isSome && decide (b.st ≠ .prog)

/-- The byte of DOM_STAT for a bank. -/
def bankStat (b : Bank) : Nat :=
  b2n b.marginLow * 128 + b2n (decide (b.count ≥ 100000)) * 64 + b2n (decide (b.count ≥ 95000)) * 32 + b2n (bankPend b) * 8
    + bankCode b

/-- Banks of die d in PROG. -/
def progBanks (s : State) (d : Nat) : Nat :=
  ((cd s d).domes.map (fun e => b2n (decide (e.2.b0.st = .prog)) + b2n (decide (e.2.b1.st = .prog)))).sum

def domRead (s : State) (d o : Nat) : RegRead :=
  if o = 0 then rdSame s (w32 (progBanks s d))
  else if 0x1000 ≤ o ∧ o < 0x2000 then
    let v := dome s d ((o - 0x1000) / 16)
    match o % 16 with
    | 0x0 => rdSame s (w32 (bankStat v.b1 * 256 + bankStat v.b0))
    | 0x4 => rdSame s (w32 v.b0.count)
    | 0x8 => rdSame s (w32 v.b1.count)
    | _ => rdSame s (w32 v.cmdq.toNat)
  else none

def domWrite (s : State) (d o : Nat) (x : Word) : State :=
  if 0x1000 ≤ o ∧ o < 0x2000 ∧ o % 16 = 0xC then
    let n := (o - 0x1000) / 16
    let v := dome s d n
    setDome s d n { v with cmdq := x.extractLsb' 0 7, cmdqWas := nowWas v.cmd v.cmdqWas v.cmdq }
  else s

def lntRead (s : State) (d n o : Nat) : RegRead :=
  let v := lantern s d n
  match o with
  | 0x00 => rdSame s (w32 v.cmdq.toNat)
  | 0x04 => rdSame s v.seed
  | 0x08 => rdSame s (w32 v.flags.toNat)
  | 0x0C => rdSame s (w32 (b2n v.run.isSome * 2 ^ 31 + b2n v.dz * 2 ^ 30 + v.k))
  | 0x10 => some (v.stall, setLantern s d n { v with stall := 0 })
  | 0x14 => some (v.steps, setLantern s d n { v with steps := 0 })
  | 0x18 => rdSame s (w32 v.lastpc.toNat)
  | _ => none

def lntWrite (s : State) (d n o : Nat) (x : Word) : State :=
  let v := lantern s d n
  match o with
  | 0x00 => setLantern s d n { v with cmdq := x.extractLsb' 0 7, cmdqWas := nowWas v.cmd v.cmdqWas v.cmdq }
  | 0x04 => lnSeedSet s d n x
  | 0x08 => setLantern s d n { v with flags := v.flags &&& ~~~(x.extractLsb' 0 4) }
  | 0x0C => setLantern s d n { v with dz := v.dz && !bit x 30 }
  | _ => s

/-! ### Spires (08 R198, R199) -/

def spStCode (v : Spire) : Nat :=
  match v.st with
  | .held => 0
  | .running => 1
  | .waiting => 2
  | .halted => 3

/-- RUN = 0 written: the Spire stops at the next boundary, after a load, store or BADD under way. A wait that another chip
holds is abandoned, and the Spire waits for the answer (10 R240). A HELD or HALTED Spire keeps STATE and HCAUSE (DEDUCED, log
entry 71), and one whose RUN was set outside RUN is no longer started (log entry 57). -/
def spireStop (s : State) (d n : Nat) : State :=
  let v := spire s d n
  match v.st with
  | .running =>
    if v.mesh.isSome then setSpire s d n { v with runBit := false }
    else match v.wait with
      | some w => setSpire s d n { v with runBit := false, wait := some { w with abandon := 2 } }
      | none => setSpire s d n (haltSpire v 2)
  | .waiting =>
    match v.wait with
    | some w =>
      if w.kind = .waitt then setSpire s d n (haltSpire v 2)
      else
        let s1 := setSpire s d n { v with runBit := false, wait := some { w with abandon := 2 } }
        if w.abandon ≠ 0 then s1 else cancelOp s1 (.spire d n)
    | none => setSpire s d n { v with runBit := false }
  | _ => setSpire s d n { v with runBit := false }

/-- SPR_CTL written (R199). Spires run in RUN alone (01 Table 1-10): elsewhere RUN = 1 is stored (00 R7) and the Spire starts as RUN is
entered, the boot sequencer's own writes of it (12 R290) among them (log entry 57). -/
def sprCtlSet (s : State) (d n : Nat) (b : Bool) : State :=
  if b then setSpire s d n (if s.mstate = .run then spireStart (spire s d n) else spireArm (spire s d n)) else spireStop s d n

/-- SPR_RUN_START: RUN = 1 written. -/
def execSprRunStart (d : Fin 4) (n : Fin 32) (s : State) : Host.Outcome State Fault Refusal :=
  .next (if !regsUp s then s else sprCtlSet s d n true)

/-- SPR_RUN_STOP: RUN = 0 written. -/
def execSprRunStop (d : Fin 4) (n : Fin 32) (s : State) : Host.Outcome State Fault Refusal :=
  .next (if !regsUp s then s else sprCtlSet s d n false)

/-- SPR_WTRAPS_READ (R198). -/
def execSprWtrapsRead (d : Fin 4) (n : Fin 32) (s : State) : Host.Outcome State Fault Refusal :=
  .next (if regsUp s then setSpire (outRead s (spire s d n).wtraps) d n { spire s d n with wtraps := 0 } else s)

def sprRead (s : State) (d n o : Nat) : RegRead :=
  let v := spire s d n
  match o with
  | 0x00 => rdSame s (w32 (b2n v.runBit))
  | 0x04 => rdSame s (w32 (v.hcause.toNat * 16 + spStCode v))
  | 0x08 => rdSame s (w32 (v.entry.toNat * 4))
  | 0x0C => rdSame s (w32 (v.xbaserst.toNat * 128))
  | 0x10 => rdSame s (if v.st = .held ∨ v.st = .halted then w32 (v.pc.toNat % 65536) else 0)
  | 0x14 => some (v.wtraps, setSpire s d n { v with wtraps := 0 })
  | _ => none

def sprWrite (s : State) (d n o : Nat) (x : Word) : State :=
  let v := spire s d n
  match o with
  | 0x00 => sprCtlSet s d n (bit x 0)
  | 0x08 => setSpire s d n { v with entry := x.extractLsb' 2 14 }
  | 0x0C => setSpire s d n { v with xbaserst := x.extractLsb' 7 9 }
  | _ => s

/-! ### Link endpoints (10 R250) -/

/-- The code of endpoint number e of die d, if the die has one. -/
def epAt (d e : Nat) : Option Nat :=
  if d < 4 then (if e < 3 then some (3 * d + e) else none)
  else if d = 4 then
    (if e < 5 then some (12 + e) else if 8 ≤ e ∧ e < 12 then some (9 + e) else none)
  else if e = 0 then some 21 else none

def epRead (s : State) (e o : Nat) : RegRead :=
  let v := endp s e
  match o with
  | 0x00 => rdSame s (epCtlWord e v)
  | 0x04 => rdSame s (epStatWord v)
  | 0x08 => rdSame s (w32 v.err.toNat)
  | 0x0C => some (v.crc, setEndp s e { v with crc := 0 })
  | 0x10 => some (v.replay, setEndp s e { v with replay := 0 })
  | 0x14 => some (v.retrain, setEndp s e { v with retrain := 0 })
  | 0x18 => some (v.dup, setEndp s e { v with dup := 0 })
  | 0x1C => some (v.cstall, setEndp s e { v with cstall := 0 })
  | _ => none

def epWrite (s : State) (e o : Nat) (x : Word) : State :=
  match o with
  | 0x00 => epCtlSet s e x
  | 0x08 => setEndp s e { endp s e with err := (endp s e).err &&& ~~~(x.extractLsb' 0 5) }
  | _ => s

/-- The NLD_ block of die d; `q` numbers the requester. -/
def nldRead (s : State) (q d o : Nat) : RegRead :=
  if 0x1000 ≤ o ∧ o < 0x2000 then
    match epAt d ((o - 0x1000) / 256) with
    | none => none
    | some e => epRead s e (o % 256)
  else if d = 4 then
    match o with
    | 0x00 => rdSame s (w32 (b2n s.nld.tmaster * 256 + s.nld.chip.toNat))
    | 0x04 => rdSame s s.nld.route
    | 0x08 => rdSame s (w32 (b2n s.nld.lock))
    | 0x0C => rdSame s (nldIsoWord s)
    | 0x10 => some (loWord s.nld.tofs, setShadow s (q * 16 + 8) (hiWord s.nld.tofs))
    | 0x14 => rdSame s (shadowWord s (q * 16 + 8))
    | 0x18 => rdSame s (w32 (b2n s.nld.tvalid * 2 ^ 31 + s.nld.hops.toNat))
    | _ => none
  else none

def nldWrite (s : State) (d o : Nat) (x : Word) : State :=
  if 0x1000 ≤ o ∧ o < 0x2000 then
    match epAt d ((o - 0x1000) / 256) with
    | none => s
    | some e => epWrite s e (o % 256) x
  else if d = 4 then
    match o with
    | 0x00 => chipidSet s x
    | 0x04 => routeSet s x
    | 0x08 => nldLockSet s x
    | _ => s
  else s

/-! ### The register blocks of a C-die, and the Bell and queue windows -/

/-- A word of program memory at an offset of the LNT_PMEM blocks. -/
def pmemWord (c : CDie) (o : Nat) : Word := leWord (memBytes 0 c.lnPmem o 4)
def pmemPut (s : State) (d o : Nat) (bs : List Byte) : State :=
  setCd s d { cd s d with lnPmem := memPut 0 (cd s d).lnPmem o bs }

/-- Offsets of the LNT_PMEM blocks within the register region. -/
def isPmem (o : Nat) : Bool := decide (0x60000 ≤ o) && decide (o < 0xA0000)

def cRegRead (s : State) (q d o : Nat) : RegRead :=
  let r := o % 0x10000
  let n := r / 0x100
  match o / 0x10000 with
  | 0x0 => fabRead s q d r
  | 0x2 => if n < 8 then twrRead s d n (r % 0x100) else none
  | 0x3 => if n < 8 then plnRead s d n (r % 0x100) else none
  | 0x4 => domRead s d r
  | 0x5 => if n < 8 then lntRead s d n (r % 0x100) else none
  | 0x6 | 0x7 | 0x8 | 0x9 => rdSame s (pmemWord (cd s d) (o - 0x60000))
  | 0xA => if n < 32 then sprRead s d n (r % 0x100) else none
  | 0xC => nldRead s q d r
  | 0xD =>
    if r = 0 then some ((cd s d).vcorr, setCd s d { cd s d with vcorr := 0 })
    else if r = 4 then rdSame s (w32 (cd s d).vaddr.toNat)
    else none
  | _ => none

def cRegWrite (s : State) (d o : Nat) (x : Word) : State :=
  let r := o % 0x10000
  let n := r / 0x100
  match o / 0x10000 with
  | 0x0 => fabWrite s d r x
  | 0x2 => twrWrite s d n (r % 0x100) x
  | 0x3 => plnWrite s d n (r % 0x100) x
  | 0x4 => domWrite s d r x
  | 0x5 => lntWrite s d n (r % 0x100) x
  | 0x6 | 0x7 | 0x8 | 0x9 => pmemPut s d (o - 0x60000) (wordLe x)
  | 0xA => sprWrite s d n (r % 0x100) x
  | 0xC => nldWrite s d r x
  | _ => s

def bellRead (s : State) (d o : Nat) : RegRead :=
  let b := bell s d (o / 0x100)
  match o % 0x100 with
  | 0x00 => rdSame s b.count
  | 0x04 => rdSame s 0
  | 0x08 => rdSame s (w32 (b2n b.poisoned * 2 ^ 31 + min (b.waiters.filter (fun w => !w.sat)).length 0xFFF))
  | 0x0C => rdSame s 0
  | 0x10 => rdSame s (w32 (b.chips.toNat * 2 ^ 16 + b.dies.toNat))
  | _ => none

def bellWrite (s : State) (d o : Nat) (x : Word) : State :=
  let n := o / 0x100
  match o % 0x100 with
  | 0x00 => storeBell s d n x
  | 0x04 => addBell s d n x
  | 0x0C => belCtlWrite s d n x
  | 0x10 => setBell s d n { bell s d n with chips := x.extractLsb' 16 8, dies := x.extractLsb' 0 6 }
  | _ => s

def queRead (s : State) (d o : Nat) : RegRead :=
  let q := o / 0x200
  let v := queue s d q
  match o % 0x200 with
  | 0x00 => rdSame s (w32 (v.base.toNat * 64))
  | 0x04 =>
    rdSame s (w32 (b2n v.en * 2 ^ 31 + b2n v.esize * 2 ^ 30 + v.ldepth.toNat * 2 ^ 24 + v.hwm.toNat * 2 ^ 12
      + b2n v.hwen * 2 ^ 11 + v.hwbell.toNat))
  | 0x08 => rdSame s (w32 (queState v * 2 ^ 30 + v.occ))
  | 0x0C => rdSame s 0
  | 0x10 => some (v.hwcnt, setQueue s d q { v with hwcnt := 0 })
  | 0x14 => some (v.disc, setQueue s d q { v with disc := 0 })
  | 0x18 => rdSame s v.seq
  | _ => none

def queWrite (s : State) (d o : Nat) (x : Word) : State :=
  let q := o / 0x200
  match o % 0x200 with
  | 0x00 => queBaseWrite s d q x
  | 0x04 => queCfgWrite s d q x
  | 0x0C => queCtlWrite s d q x
  | _ => s

/-! ### H: supplies, heat and faults (16 Tables 16-5, 16-6; 17 Table 17-3) -/

/-- Word i of the fault log. -/
def flogWord (s : State) (i : Nat) : Word := wordAt (tabGet (List.replicate 8 0) s.faults.log (i / 8)) (i % 8)

def hcauseWord (s : State) : Word := w32 (s.faults.hkind.toNat * 2 ^ 16 + s.faults.hmask.toNat)

def faultRead (s : State) (o : Nat) : RegRead :=
  let f := s.faults
  match o with
  | 0x200 => rdSame s (w32 (b2n f.auto * 2 ^ 31))
  | 0x204 => rdSame s (w32 (b2n f.qEn * 2 ^ 31 + f.qDie.toNat * 2 ^ 9 + f.qQueue.toNat))
  | 0x208 => rdSame s (w32 (b2n f.bellEn * 2 ^ 31 + f.bell.toNat))
  | 0x210 => rdSame s f.head
  | 0x214 => rdSame s f.tail
  | 0x218 => rdSame s (w32 (b2n (decide (logCount s ≥ 256)) * 2 ^ 31 + f.held.length % 65536))
  | 0x220 => rdSame s (w32 (b2n f.fesc))
  | 0x224 => rdSame s (hcauseWord s)
  | 0x230 => rdSame s (w32 (f.wdAct.toNat * 2 ^ 30 + f.wdPeriod.toNat))
  | 0x240 => rdSame s 0
  | 0x244 => rdSame s (w32 (b2n f.refused))
  | _ => if 0x2000 ≤ o ∧ o < 0x4000 then rdSame s (flogWord s ((o - 0x2000) / 4)) else none

def faultWrite (s : State) (o : Nat) (x : Word) : State :=
  let f := s.faults
  match o with
  | 0x200 => settleHost { s with faults := { f with auto := bit x 31 } }
  | 0x204 =>
    settleHost { s with faults := { f with
      qEn := bit x 31, qDie := x.extractLsb' 9 2, qQueue := x.extractLsb' 0 7 } }
  | 0x208 => { s with faults := { f with bellEn := bit x 31, bell := x.extractLsb' 0 16 } }
  | 0x210 => flogHeadSet s x
  | 0x220 => { s with faults := { f with fesc := bit x 0 } }
  | 0x230 => wdSet s x
  | 0x240 => recovWrite s x
  | 0x244 => { s with faults := { f with refused := f.refused && !bit x 0 } }
  | _ => s

/-- The governor's part of H's SYS_ block. -/
def govRead (s : State) (o : Nat) : RegRead :=
  let p := s.power
  if o = 0x00 then rdSame s (w32 p.rstcause.toNat)
  else if o = 0x10 then rdSame s (w32 (b2n p.unmet * 2 ^ 31 + p.limit.toNat))
  else if o = 0x14 then rdSame s (w32 p.pwr.toNat)
  else if 0x20 ≤ o ∧ o < 0x30 then rdSame s (w32 (p.vreq.getD ((o - 0x20) / 4) 0).toNat)
  else if 0x30 ≤ o ∧ o < 0x40 then
    rdSame s (w32 (railLim s ((o - 0x30) / 4) * 256 + (p.vapp.getD ((o - 0x30) / 4) 0).toNat))
  else if o = 0x40 then some (p.govcnt, { s with power := { p with govcnt := 0 } })
  else if o = 0x50 then rdSame s (w32 p.slew.toNat)
  else none

def govWrite (s : State) (o : Nat) (x : Word) : State :=
  let p := s.power
  if o = 0x00 then { s with power := { p with rstcause := p.rstcause &&& ~~~(x.extractLsb' 0 14) } }
  else if o = 0x10 then { s with power := { p with limit := x.extractLsb' 0 7 } }
  else if 0x20 ≤ o ∧ o < 0x30 then vreqSet s ((o - 0x20) / 4) x
  else if o = 0x50 then { s with power := { p with slew := x.extractLsb' 0 12 } }
  else s

/-- The hottest sensor that takes part, the first of equals. -/
def hottest (s : State) : Option Nat :=
  ((upTo 38).filter (sensorOn s)).foldl (fun m i =>
    match m with
    | none => some i
    | some j => if (sensor s j).filt.toInt < (sensor s i).filt.toInt then some i else some j) none

def thmRead (s : State) (o : Nat) : RegRead :=
  if o = 0x00 then
    rdSame s (w32 (b2n (haltClear s) * 2 ^ 31 + (hottest s).getD 0 * 2 ^ 16
      + ((upTo 6).map (dieThermal s)).foldl max 0))
  else if o = 0x04 then
    rdSame s (match hottest s with
      | some i => w32 (sensor s i).filt.toNat
      | none => 0)
  else if o = 0x08 then some (w32 s.power.peak.toNat, { s with power := { s.power with peak := 0x800 } })
  else if o = 0x0C then some (s.power.slowt, { s with power := { s.power with slowt := 0 } })
  else if 0x100 ≤ o ∧ o < 0x100 + 4 * 38 then
    let i := (o - 0x100) / 4
    let v := sensor s i
    rdSame s (if sensorOn s i then w32 (2 ^ 31 + sensorState v * 2 ^ 16 + v.filt.toNat) else 0)
  else none

/-! ### H: memory controller and movers (11 Table 11-9) -/

def memStCode (m : MemCtl) : Nat :=
  match m.st with
  | .off => 0
  | .training => 1
  | .ready => 2
  | .failed => 3

def memRead_ (s : State) (o : Nat) : RegRead :=
  let m := s.mem
  match o with
  | 0x100 => rdSame s m.cfg
  | 0x104 => rdSame s (w32 (memStCode m * 2 ^ 30 + b2n m.reflost * 2 ^ 29 + m.psize.toNat * 2 ^ 24 + m.refm.toNat))
  | 0x108 => rdSame s (w32 m.tfail.toNat)
  | 0x110 => some (m.rdb, { s with mem := { m with rdb := 0 } })
  | 0x114 => some (m.wrb, { s with mem := { m with wrb := 0 } })
  | 0x118 => some (m.lecc, { s with mem := { m with lecc := 0 } })
  | _ =>
    if 0x200 ≤ o ∧ o < 0x280 then
      let v := mover s ((o - 0x200) / 16)
      if o % 16 = 0 then rdSame s (w32 (b2n v.en * 2 ^ 31 + v.die.toNat * 2 ^ 9 + v.queue.toNat))
      else if o % 16 = 4 then rdSame s (w32 (b2n v.cmd.isSome * 2 ^ 31 + v.last.toNat))
      else none
    else none

def memWrite_ (s : State) (o : Nat) (x : Word) : State :=
  match o with
  | 0x100 => memCfgSet s x
  | 0x104 => { s with mem := { s.mem with reflost := s.mem.reflost && !bit x 29 } }
  | _ =>
    if 0x200 ≤ o ∧ o < 0x280 ∧ o % 16 = 0 then
      let m := (o - 0x200) / 16
      let v := mover s m
      setMover s m { v with
        en := bit x 31, die := x.extractLsb' 9 2, queue := x.extractLsb' 0 7, was := nowWas v.cmd v.was (v.en, v.die, v.queue) }
    else s

/-! ### H: the host engine (13 Table 13-9; 17 R408) -/

/-- The host part: BAR0. -/
def pciRead (s : State) (o : Nat) : RegRead :=
  match o with
  | 0x00 => rdSame s (w32 (mstateCode s.mstate))
  | 0x04 => rdSame s (bootStat s)
  | 0x08 => rdSame s s.boot.time
  | 0x0C => rdSame s (bootVer s)
  | 0x10 => some (loWord s.tb, { s with host := { s.host with tbHi := hiWord s.tb } })
  | 0x14 => rdSame s s.host.tbHi
  | 0x18 => rdSame s (nldIsoWord s)
  | 0x20 => rdSame s (w32 (b2n s.host.baddb))
  | 0x30 => rdSame s s.faults.head
  | 0x34 => rdSame s s.faults.tail
  | 0x38 => rdSame s (hcauseWord s)
  | _ =>
    if 0x1000 ≤ o ∧ o < 0x1400 then
      match cqRegGet (session s ((o - 0x1000) / 0x40)) (o % 0x40) with
      | some v => rdSame s v
      | none => none
    else if 0x2000 ≤ o ∧ o < 0x4000 then rdSame s (flogWord s ((o - 0x2000) / 4))
    else if 0x8000 ≤ o ∧ o < 0x8400 then rdSame s (msixWord s ((o - 0x8000) / 4))
    else if 0x9000 ≤ o ∧ o < 0x9008 then rdSame s (if o = 0x9000 then s.host.pba.extractLsb' 0 32 else s.host.pba.extractLsb' 32 32)
    else none

def pciWrite (s : State) (o : Nat) (x : Word) : State :=
  if o = 0x20 then { s with host := { s.host with baddb := s.host.baddb && !bit x 0 } }
  else if 0x1000 ≤ o ∧ o < 0x1400 then
    let n := (o - 0x1000) / 0x40
    if o % 0x40 = 0 then sqTailSet s n x
    else if o % 0x40 = 0x14 then cqHeadSet s n x
    else setSession s n (cqRegSet (session s n) (o % 0x40) x)
  else if 0x8000 ≤ o ∧ o < 0x8400 then
    msixTabSet s ((o - 0x8000) / 4) x
  else s

/-- The device part. -/
def pciDevRead (s : State) (o : Nat) : RegRead :=
  let h := s.host
  match o with
  | 0x00 => rdSame s h.sessEn
  | 0x04 => rdSame s h.evq
  | 0x08 => rdSame s h.wupdQ
  | 0x0C => rdSame s h.wupdLast
  | 0x10 => rdSame s (w32 h.hbCtl.toNat)
  | 0x14 => rdSame s h.hbWord
  | 0x18 => rdSame s 0
  | 0x20 => some (h.crcerr, pciCountClear s .crcerr)
  | 0x24 => some (h.dup, pciCountClear s .dup)
  | 0x28 => some (h.busy, pciCountClear s .busy)
  | _ => none

/-- A register that R323 closes to writes after the release. -/
def bootOnly (s t : State) : State := if s.mstate = .boot then t else s

def pciDevWrite (s : State) (o : Nat) (x : Word) : State :=
  let h := s.host
  match o with
  | 0x00 => bootOnly s { s with host := { h with sessEn := x } }
  | 0x04 => bootOnly s { s with host := { h with evq := x &&& 0x8000_067F } }
  | 0x08 => bootOnly s { s with host := { h with wupdQ := x &&& 0x8000_067F } }
  | 0x0C => { s with host := { h with wupdLast := x } }
  | 0x10 => { s with host := { h with hbCtl := x.extractLsb' 0 10 } }
  | 0x14 => hbWordSet s x
  | 0x18 => msixSwSet s x
  | _ => s

/-! ### H: MACs, receivers, serial ports -/

def ethRead (s : State) (m o : Nat) : RegRead :=
  let v := mac s m
  let rc := fun (k : EthCounter) => some (ethCount v k, setMac s m (ethCountClear v k))
  match o with
  | 0x00 => rdSame s v.cfg
  | 0x04 => rdSame s (v.mac.extractLsb' 0 32)
  | 0x08 => rdSame s (w32 (v.mac.toNat / 2 ^ 32))
  | 0x0C => rdSame s (w32 v.etype.toNat)
  | 0x10 => rdSame s (w32 (b2n v.link * 2 ^ 31 + v.speed.toNat))
  | 0x14 => rdSame s v.mdio
  | 0x20 => rc .rxok
  | 0x24 => rc .other
  | 0x28 => rc .fcserr
  | 0x2C => rc .ovrn
  | 0x30 => rc .unsent
  | _ => none

def ethWrite (s : State) (m o : Nat) (x : Word) : State :=
  let v := mac s m
  match o with
  | 0x00 => ethCfgSet s m x
  | 0x04 => setMac s m { v with mac := BitVec.ofNat 48 (v.mac.toNat / 2 ^ 32 * 2 ^ 32 + x.toNat) }
  | 0x08 => setMac s m { v with mac := BitVec.ofNat 48 (field x 15 0 * 2 ^ 32 + v.mac.toNat % 2 ^ 32) }
  | 0x0C => setMac s m { v with etype := x.extractLsb' 0 16 }
  | 0x14 => mdioSet s m x
  | _ => s

def csiRead (s : State) (r o : Nat) : RegRead :=
  let v := csiRx s r
  let rc := fun (k : CsiCounter) => some (csiCount v k, setCsiRx s r (csiCountClear v k))
  if 0x100 ≤ o ∧ o < 0x200 then
    let g := (csiStream v ((o - 0x100) / 0x40)).regs
    match o % 0x40 with
    | 0x00 => rdSame s g.scfg
    | 0x04 => rdSame s g.sbase
    | 0x08 => rdSame s g.sslot
    | 0x0C => rdSame s g.slstr
    | 0x10 => rdSame s g.sbell
    | _ => none
  else match o with
    | 0x00 => rdSame s v.regs.cfg
    | 0x04 => rdSame s v.regs.trig
    | 0x08 => rdSame s v.regs.tper
    | 0x10 => rc .unsol
    | 0x14 => rc .late
    | 0x18 => rc .eccerr
    | _ => none

/-- The registers of stream k replaced. -/
def csiRegs (s : State) (r k : Nat) (f : CsiStreamRegs → CsiStreamRegs) : State :=
  let v := csiRx s r
  let x := csiStream v k
  setCsiRx s r (putStream v k { x with regs := f x.regs })

def csiRegWrite (s : State) (r o : Nat) (x : Word) : State :=
  let v := csiRx s r
  if 0x100 ≤ o ∧ o < 0x200 then
    let k := (o - 0x100) / 0x40
    match o % 0x40 with
    | 0x00 => scfgSet s r k x
    | 0x04 => csiRegs s r k (fun g => { g with sbase := x &&& 0x01FF_FFC0 })
    | 0x08 => csiRegs s r k (fun g => { g with sslot := x &&& 0x7F00_1FFF })
    | 0x0C => csiRegs s r k (fun g => { g with slstr := x &&& 0x0003_FFC0 })
    | 0x10 => csiRegs s r k (fun g => { g with sbell := x })
    | _ => s
  else match o with
    | 0x00 => csiCfgSet s r x
    | 0x04 => setCsiRx s r { v with regs := { v.regs with trig := x &&& 0x80FF_00FF } }
    | 0x08 => setCsiRx s r { v with regs := { v.regs with tper := x &&& 0x00FF_FFFF } }
    | _ => s

def uStCode (v : Uart) : Nat :=
  match v.st with
  | .off => 0
  | .active => 1
  | .catch_ => 2
  | .deep => 3

def uartRead (s : State) (u o : Nat) : RegRead :=
  let v := uart s u
  match o with
  | 0x00 => rdSame s v.cfg
  | 0x04 => rdSame s v.baud
  | 0x08 => rdSame s v.rxring
  | 0x0C => rdSame s v.txring
  | 0x10 => rdSame s v.rxbell
  | 0x14 => rdSame s v.txbell
  | 0x18 => rdSame s v.wake
  | 0x20 => rdSame s (w32 (uStCode v * 2 ^ 30 + b2n v.cfgerr * 2 ^ 29 + b2n v.held.isSome * 256))
  | 0x24 => some (v.ovrn, setUart s u { v with ovrn := 0 })
  | 0x28 => some (v.fe, setUart s u { v with fe := 0 })
  | 0x2C => some (v.pe, setUart s u { v with pe := 0 })
  | 0x30 => some (v.brk, setUart s u { v with brk := 0 })
  | 0x34 => some (v.wakes, setUart s u { v with wakes := 0 })
  | _ => none

/-- The configuration of a port is left alone while EN = 1, UART_CFG apart (14 R344). -/
def uartWrite (s : State) (u o : Nat) (x : Word) : State :=
  let v := uart s u
  if o = 0 then uartCfgWrite s u x
  else if uEn v then s
  else match o with
    | 0x04 => setUart s u { v with baud := x &&& 0x000F_FFFF }
    | 0x08 => setUart s u { v with rxring := x &&& 0xFDFF_FFC0 }
    | 0x0C => setUart s u { v with txring := x &&& 0xFDFF_FFC0 }
    | 0x10 => setUart s u { v with rxbell := x }
    | 0x14 => setUart s u { v with txbell := x }
    | 0x18 => setUart s u { v with wake := x }
    | _ => s

/-! ### The register blocks of H -/

def firstRead (a b : RegRead) : RegRead :=
  match a with
  | some r => some r
  | none => b

def hRegRead (s : State) (q o : Nat) : RegRead :=
  let r := o % 0x10000
  match o / 0x10000 with
  | 0x00 => firstRead (fabRead s q 4 r) (firstRead (govRead s r) (faultRead s r))
  | 0x0C => nldRead s q 4 r
  | 0x0D => memRead_ s r
  | 0x0E => (bootRead s r).map (fun v => (v, s))
  | 0x10 => pciRead s r
  | 0x11 => if r < 0x200 then ethRead s (r / 0x100) (r % 0x100) else none
  | 0x12 => if r < 0x1000 then csiRead s (r / 0x400) (r % 0x400) else none
  | 0x13 => if r < 0x400 then uartRead s (r / 0x100) (r % 0x100) else none
  | 0x14 => thmRead s r
  | 0x15 => if r < 0x100 then pciDevRead s r else none
  | _ => none

def hRegWrite (s : State) (o : Nat) (x : Word) : State :=
  let r := o % 0x10000
  match o / 0x10000 with
  | 0x00 => if r < 0x100 then govWrite s r x else if r < 0x200 then fabWrite s 4 r x else faultWrite s r x
  | 0x0C => nldWrite s 4 r x
  | 0x0D => memWrite_ s r x
  | 0x0E => bootWrite s r x
  | 0x10 => pciWrite s r x
  | 0x11 => ethWrite s (r / 0x100) (r % 0x100) x
  | 0x12 => csiRegWrite s (r / 0x400) (r % 0x400) x
  | 0x13 => uartWrite s (r / 0x100) (r % 0x100) x
  | 0x15 => pciDevWrite s r x
  | _ => s

/-! ### F (15 Table 15-4) -/

def fStCode (f : FDie) : Nat :=
  match f.st with
  | .rsafe => 0
  | .live => 1
  | .fsafe => 2

/-- A bit of each DO channel, gathered. -/
def doBits (s : State) (f : DoCh → Bool) : Nat := ((upTo 8).map (fun n => b2n (f (doCh s n)) * 2 ^ n)).sum

/-- FIO_DO_STAT: LIMIT also while latched off or awaiting the retry. -/
def doStat (s : State) : Word :=
  w32 (doBits s (·.flt) * 2 ^ 24 + doBits s (·.ext) * 2 ^ 16 + doBits s (·.openld) * 2 ^ 8
    + doBits s (fun c => c.limit || c.off || c.flt))

def aoRead (s : State) (n o : Nat) : RegRead :=
  let v := ao s n
  match o with
  | 0x00 => rdSame s (w32 (b2n v.en * 2 ^ 31 + v.safem.toNat))
  | 0x04 => rdSame s (w32 v.code.toNat)
  | 0x08 => rdSame s (w32 v.meas.toNat)
  | 0x0C => rdSame s (w32 (v.vloop.toNat * 2 ^ 16 + v.vhead.toNat))
  | 0x10 => rdSame s (w32 (b2n v.openLoop * 4 + b2n v.compliance * 2 + b2n v.loopuv))
  | _ => none

/-- The state of F: whether FUV is still present is settled first (log entry 27). -/
def fioStat (s : State) : RegRead :=
  let t := fSupplySeen s
  some (w32 (fStCode t.f * 2 ^ 30 + t.f.cause.toNat * 2 ^ 16 + t.f.pend.toNat), t)

/-- FIO_VFIELD: what F measures now, a free value (log entry 27). -/
def fioSupply (s : State) : RegRead :=
  let (w, t) := drawWord s
  let v := w.extractLsb' 0 12
  some (w32 v.toNat, { t with f := { t.f with vfield := v } })

def fioRead (s : State) (o : Nat) : RegRead :=
  let f := s.f
  match o with
  | 0x000 => rdSame s 0
  | 0x004 => fioStat s
  | 0x008 => fioSupply s
  | 0x00C => rdSame s (w32 f.wd.toNat)
  | 0x010 => rdSame s 0
  | 0x200 => rdSame s (w32 f.doCmd.toNat)
  | 0x204 => rdSame s (w32 f.doSafe.toNat)
  | 0x208 => rdSame s (w32 f.doSlew.toNat)
  | 0x20C => rdSame s (doStat s)
  | 0x210 => rdSame s 0
  | 0x214 => rdSame s (w32 ((upTo 8).map (fun n => (doCh s n).retry % 16 * 2 ^ (4 * n))).sum)
  | 0x320 => rdSame s (w32 ((upTo 8).map (fun n => b2n (diCh s n).state * 2 ^ n)).sum)
  | 0x324 => rdSame s (w32 f.edge.toNat)
  | 0x328 => rdSame s f.evt
  | _ =>
    if 0x100 ≤ o ∧ o < 0x180 then aoRead s ((o - 0x100) / 0x20) (o % 0x20)
    else if 0x300 ≤ o ∧ o < 0x320 then
      let v := diCh s ((o - 0x300) / 4)
      rdSame s (w32 (b2n v.type3 * 256 + v.filt.toNat))
    else none

def aoWrite (s : State) (n o : Nat) (x : Word) : State :=
  match o with
  | 0x00 => aoCfgSet s n x
  | 0x04 => aoCodeSet s n x
  | _ => s

def fioWrite (s : State) (o : Nat) (x : Word) : State :=
  let f := s.f
  match o with
  | 0x000 => fioCtlWrite s x
  | 0x00C => fioWdSet s x
  | 0x010 => fWdRestart s
  | 0x200 => doCmdSet s x
  | 0x204 => { s with f := { f with doSafe := x.extractLsb' 0 16 } }
  | 0x208 => { s with f := { f with doSlew := x.extractLsb' 0 16 } }
  | 0x210 => doClear s x
  | 0x324 => { s with f := { f with edge := f.edge &&& ~~~(x.extractLsb' 0 16) } }
  | 0x328 => { s with f := { f with evt := x } }
  | _ =>
    if 0x100 ≤ o ∧ o < 0x180 then aoWrite s ((o - 0x100) / 0x20) (o % 0x20) x
    else if 0x300 ≤ o ∧ o < 0x320 then
      let n := (o - 0x300) / 4
      setDiCh s n { diCh s n with type3 := bit x 8, filt := x.extractLsb' 0 8 }
    else s

/-- The register blocks of F: its fabric counters have no copy of the time base. -/
def fRegRead (s : State) (q o : Nat) : RegRead :=
  match o / 0x10000 with
  | 0x1 => fioRead s (o % 0x10000)
  | 0xC => nldRead s q 5 (o % 0x10000)
  | _ => none

def fRegWrite (s : State) (o : Nat) (x : Word) : State :=
  match o / 0x10000 with
  | 0x1 => fioWrite s (o % 0x10000) x
  | 0xC => nldWrite s 5 (o % 0x10000) x
  | _ => s

/-! ### By die -/

/-- The word at offset o of the register region of die d. -/
def regRead (s : State) (q d o : Nat) : RegRead :=
  if d < 4 then (cRegRead s q d o).map (fun r => dieSays r.2 d r.1) else if d = 4 then hRegRead s q o else fRegRead s q o

def regWrite (s : State) (d o : Nat) (x : Word) : State :=
  if d < 4 then cRegWrite s d o x else if d = 4 then hRegWrite s o x else fRegWrite s o x

end Sys2Proof.Machine
end

