-- ==== Sys2Proof/Machine/Bus.lean ====
section
/-! DEFINITION. Reads and writes of device addresses: the regions of a die, the memories and windows in them, and what an
access comes to (01 R25-R31; 00 R16; 11 R271, R272; 06 R158; 04 R106). -/

namespace Sys2Proof.Machine

/-! ### Regions (01 Table 1-9) -/

inductive Region where
  | vault | dome | plinth | tile | spire | bell | queue | regs | lpddr | hbuf
  deriving DecidableEq, Repr

/-- Regions of a die with their first offset and their size. -/
def dieRegions (d : Nat) : List (Region × Nat × Nat) :=
  if d < 4 then
    [(.vault, 0, vaultSize), (.dome, 0x100000000, 0x2000000), (.plinth, 0x200000000, 0x200000),
      (.tile, 0x300000000, 0x40000), (.spire, 0x400000000, 0x200000), (.bell, 0x500000000, 0x10000),
      (.queue, 0x600000000, 0x10000), (.regs, 0xF00000000, 0x1000000)]
  else if d = 4 then [(.lpddr, 0, 0x800000000), (.regs, 0xF00000000, 0x1000000), (.hbuf, 0x1000000000, 0x400000)]
  else if d = 5 then [(.regs, 0xF00000000, 0x1000000)]
  else []

/-- The region that holds an offset. -/
def regionOf (d off : Nat) : Option (Region × Nat × Nat) :=
  (dieRegions d).find? (fun r => decide (r.2.1 ≤ off) && decide (off < r.2.1 + r.2.2))

/-- Bytes from an offset to the end of its region. -/
def regionRest (d off : Nat) : Option Nat := (regionOf d off).map (fun r => r.2.1 + r.2.2 - off)

/-! ### Agents and outcomes -/

/-- Who accesses: the die it sends from, its number as a requester with shadows (02 R49), its port. -/
structure Agent where
  die : Nat
  req : Nat
  port : Word
  deriving DecidableEq, Repr

/-- What an access comes to: done with the bytes read, an error status, never completing (11 R257), or waiting, at a
Lantern with a RUN or for a memory. -/
inductive Acc_ where
  | ok (bs : List Byte)
  | err (st : Nat)
  | never
  | wait (lantern : Option Nat)
  deriving DecidableEq, Repr

abbrev Access := Acc_ × State

/-! ### Memories -/

/-- The bank that an offset of the read view lies in, and its state's word on its contents (04 R106). -/
def domByteKnown (s : State) (d o : Nat) : Bool :=
  let k := bankAt s d (o / 0x20000) (decide (o % 0x20000 ≥ 0x10000))
  decide (k.st = .standby) || decide (k.st = .active)

/-- Bytes of the read view: unspecified where the bank is BLANK, PROG or FAULT. -/
def domView (s : State) (d : Nat) : Nat → Nat → List Byte × State
  | _, 0 => ([], s)
  | o, n + 1 =>
    let (b, s1) := if domByteKnown s d o then (memRead 0 (cd s d).domeMem o, s) else drawByte s
    let r := domView s1 d (o + 1) n
    (b :: r.1, r.2)

/-- The words that k bytes from o touch, as bytes, given a word at each place. -/
def wordBytes (f : Nat → Word) (o k : Nat) : List Byte :=
  if k = 0 then []
  else
    let ws := (countFrom (o / 4) ((o + k - 1) / 4 + 1 - o / 4)).map (fun j => f (4 * j))
    ((ofWords ws).drop (o % 4)).take k

/-- Words covering bytes put at o: each with its place, bytes outside kept from `f`. -/
def wordCover (f : Nat → Word) (o : Nat) (bs : List Byte) : List (Nat × Word) :=
  let lo := o / 4 * 4
  let hi := (o + bs.length + 3) / 4 * 4
  let old := wordBytes f lo (hi - lo)
  let new := old.take (o - lo) ++ bs ++ old.drop (o - lo + bs.length)
  (countFrom 0 ((hi - lo) / 4)).map (fun j => (lo + 4 * j, leWord ((new.drop (4 * j)).take 4)))

def plWordAt (s : State) (d o : Nat) : Word := plinthLoad (plinth s d (o / 0x40000)) (o % 0x40000)

def plStores (s : State) (d : Nat) : List (Nat × Word) → State
  | [] => s
  | e :: es => plStores (plinthStore s d (e.1 / 0x40000) (e.1 % 0x40000) e.2) d es

def tileWordAt (s : State) (d o : Nat) : Word := tabGet 0 (lantern s d (o / 0x8000)).tile (o % 0x8000 / 4)

def tileStores (s : State) (d : Nat) : List (Nat × Word) → State
  | [] => s
  | e :: es =>
    let n := e.1 / 0x8000
    tileStores (setLantern s d n { lantern s d n with tile := tabSet (lantern s d n).tile (e.1 % 0x8000 / 4) e.2 }) d es

/-- Bytes written into local memories, which lie one behind the other. -/
def spireStores (s : State) (d o : Nat) (bs : List Byte) : State :=
  let k := locSize - o % locSize
  let s1 := putLocal s d (o / locSize) (o % locSize) (bs.take k)
  if k < bs.length then putLocal s1 d (o / locSize + 1) 0 (bs.drop k) else s1

/-- The first Lantern with a RUN among those whose memory k bytes from o touch. -/
def busyLantern (s : State) (d o k : Nat) : Option Nat :=
  (countFrom (o / 0x8000) ((o + k - 1) / 0x8000 + 1 - o / 0x8000)).find? (fun n => (lantern s d n).run.isSome)

/-! ### Register words -/

/-- n words read from offset o on; none if one of them is no register. -/
def wordsRead (rd : State → Nat → RegRead) : State → Nat → Nat → Option (List Word × State)
  | s, _, 0 => some ([], s)
  | s, o, n + 1 =>
    match rd s o with
    | none => none
    | some (w, s1) =>
      match wordsRead rd s1 (o + 4) n with
      | none => none
      | some (ws, s2) => some (w :: ws, s2)

/-- Whether each of n words from o is a register. -/
def wordsThere (rd : State → Nat → RegRead) (s : State) (o n : Nat) : Bool :=
  (countFrom 0 n).all (fun j => (rd s (o + 4 * j)).isSome)

def wordsWrite (wr : State → Nat → Word → State) : State → Nat → List Word → State
  | s, _, [] => s
  | s, o, w :: ws => wordsWrite wr (wr s o w) (o + 4) ws

/-- A read of registers: whole aligned words (log entry 25). -/
def regsRead (rd : State → Nat → RegRead) (s : State) (o n : Nat) : Access :=
  if o % 4 ≠ 0 ∨ n % 4 ≠ 0 then (.err stADDR, s)
  else match wordsRead rd s o (n / 4) with
    | none => (.err stADDR, s)
    | some (ws, s1) => (.ok (ofWords ws), s1)

def regsWrite (rd : State → Nat → RegRead) (wr : State → Nat → Word → State) (s : State) (o : Nat) (bs : List Byte) :
    Access :=
  if o % 4 ≠ 0 ∨ bs.length % 4 ≠ 0 ∨ !wordsThere rd s o (bs.length / 4) then (.err stADDR, s)
  else (.ok [], wordsWrite wr s o (toWords (bs.length / 4) bs))

/-! ### An access to a die of this package -/

/-- Die d answers an agent: they are joined, and F has its supply. -/
def dieAnswers (s : State) (g : Agent) (d : Nat) : Bool := diesJoined s g.die d && (decide (d ≠ 5) || fReached s)

/-- Whether bytes from o touch program memory, and whether they all lie there. -/
def touchesPmem (o n : Nat) : Bool := decide (o < 0xA0000) && decide (0x60000 < o + n)
def insidePmem (o n : Nat) : Bool := decide (0x60000 ≤ o) && decide (o + n ≤ 0xA0000)

/-- A read of n bytes at offset o of a region. A load from a Plinth waits for no CHAIN: 05 R113 lets address-space loads
through, whatever R124 says of readers (DEDUCED, log entry 58). -/
def regionRead (s : State) (g : Agent) (d : Nat) (r : Region) (o n : Nat) : Access :=
  match r with
  | .vault =>
    if (cd s d).vaultClearing then (.wait none, s)
    else match rdVault s d o n g.port with
      | (some bs, s1) => (.ok bs, s1)
      | (none, s1) => (.never, s1)
  | .dome => let v := domView s d o n; (.ok v.1, v.2)
  | .plinth => (.ok (wordBytes (plWordAt s d) o n), s)
  | .tile =>
    match busyLantern s d o n with
    | some k => (.wait (some k), s)
    | none => (.ok (wordBytes (tileWordAt s d) o n), s)
  | .spire => (.ok (memBytes 0 (cd s d).spireMem o n), s)
  | .bell => regsRead (fun t x => bellRead t d x) s o n
  | .queue => regsRead (fun t x => queRead t d x) s o n
  | .regs =>
    if decide (d < 4) && touchesPmem o n then
      match busyLantern s d (o - 0x60000) n with
      | some k => (.wait (some k), s)
      | none =>
        if insidePmem o n then (.ok (memBytes 0 (cd s d).lnPmem (o - 0x60000) n), s)
        else regsRead (fun t x => regRead t g.req d x) s o n
    else regsRead (fun t x => regRead t g.req d x) s o n
  | .lpddr =>
    if o + n > lpSize s.mem then (.err stADDR, s)
    else if !s.refclk then (.wait none, s)
    else match lpLoad s o n with
      | (some bs, s1) => (.ok bs, s1)
      | (none, s1) => (.never, s1)
  | .hbuf => (.err stADDR, s)

/-- A write at offset o of a region. -/
def regionWrite (s : State) (g : Agent) (d : Nat) (r : Region) (o : Nat) (bs : List Byte) : Access :=
  match r with
  | .vault =>
    if (cd s d).vaultClearing then (.wait none, s)
    else match wrVault s d o bs g.port with
      | (some s1, _) => (.ok [], s1)
      | (none, s1) => (.never, s1)
  | .dome => (.err stRDONLY, s)
  | .plinth => (.ok [], plStores s d (wordCover (plWordAt s d) o bs))
  | .tile =>
    match busyLantern s d o bs.length with
    | some k => (.wait (some k), s)
    | none => (.ok [], tileStores s d (wordCover (tileWordAt s d) o bs))
  | .spire => (.ok [], spireStores s d o bs)
  | .bell => regsWrite (fun t x => bellRead t d x) (fun t x v => bellWrite t d x v) s o bs
  | .queue => regsWrite (fun t x => queRead t d x) (fun t x v => queWrite t d x v) s o bs
  | .regs =>
    if decide (d < 4) && touchesPmem o bs.length then
      match busyLantern s d (o - 0x60000) bs.length with
      | some k => (.wait (some k), s)
      | none =>
        if insidePmem o bs.length then (.ok [], pmemPut s d (o - 0x60000) bs)
        else regsWrite (fun t x => regRead t g.req d x) (fun t x v => regWrite t d x v) s o bs
    else regsWrite (fun t x => regRead t g.req d x) (fun t x v => regWrite t d x v) s o bs
  | .lpddr =>
    if o + bs.length > lpSize s.mem then (.err stADDR, s)
    else if !s.refclk then (.wait none, s)
    else (.ok [], lpStore s o bs)
  | .hbuf => (.err stADDR, s)

/-- An access on its way to die d: one that comes to F is a valid flit that F takes (15 R351). -/
def accessTakes (s : State) (g : Agent) (d : Nat) : State := if d = 5 ∧ g.die ≠ 5 then fTakes s else s

/-- A read at an offset of a die of this package. -/
def dieRead (s : State) (g : Agent) (d off n : Nat) : Access :=
  if d > 5 then (.err stADDR, s)
  else if !dieAnswers s g d then (.err stISOLATED, s)
  else match regionOf d off with
    | none => (.err stADDR, s)
    | some (r, lo, size) => if off - lo + n > size then (.err stADDR, s) else regionRead (accessTakes s g d) g d r (off - lo) n

/-- A write at an offset of a die of this package. -/
def dieWrite (s : State) (g : Agent) (d off : Nat) (bs : List Byte) : Access :=
  if d > 5 then (.err stADDR, s)
  else if !dieAnswers s g d then (.err stISOLATED, s)
  else match regionOf d off with
    | none => (.err stADDR, s)
    | some (r, lo, size) => if off - lo + bs.length > size then (.err stADDR, s) else regionWrite (accessTakes s g d) g d r (off - lo) bs

/-! ### By device address -/

/-- Where an address leads: this package, another chip that is there, or an error (01 R26, R27; 10 R231, R245). -/
inductive Place where
  | here (d off : Nat)
  | far
  | bad (st : Nat)
  deriving DecidableEq, Repr

def placeOf (s : State) (g : Agent) (a : Nat) : Place :=
  let c := addrChip a
  if c = ownChip s then .here (addrDie a) (addrOff a)
  else if !chipPresent s c then .bad stADDR
  else if targetIsolated s g.die c (addrDie a) then .bad stISOLATED
  else if addrDie a > 5 then .bad stADDR
  else .far

/-- The same for an agent that acts on its own die and sends a request over the links for any other (10 R230; log entry 5). -/
def routeOf (s : State) (g : Agent) (a : Nat) : Place :=
  match placeOf s g a with
  | .here d off =>
    if d > 5 then .bad stADDR
    else if !dieAnswers s g d then .bad stISOLATED
    else if d = g.die then .here d off
    else .far
  | p => p

/-! ### Agents -/

def spireAgent (d n : Nat) : Agent := { die := d, req := spireReq d n, port := w32 (spirePort n) }
def bootAgent : Agent := { die := 4, req := bootReq, port := 0x400 }
def hostAgent : Agent := { die := 4, req := hostReq, port := 0x401 }
def moverAgent (m : Nat) : Agent := { die := 4, req := moverReq m, port := Config.moverPort m }

/-- The number of the agent of this package behind a mesh port of a die (09 Table 9-6), or one that no agent has: a Spire, the boot
sequencer and the host transaction engine have their own. -/
def portReq (die port : Nat) : Nat :=
  if die < 4 ∧ 0x40 ≤ port ∧ port < 0x60 then spireReq die (port - 0x40)
  else if die = 4 ∧ port = 0x400 then bootReq
  else if die = 4 ∧ port = 0x401 then hostReq
  else 2 ^ 32 + die * 2 ^ 16 + port

/-- The agent of a request that came over a link, on the die that it has come to: its own number, or for another chip's one of its
own for each chip, die and port. -/
def remoteAgent (s : State) (e : Nat) (t : Txn) : Agent :=
  let w := wordAt t.hdr 1
  { die := epDie e, req := if srcChip w = ownChip s then portReq (srcDie w) (txnSrcPort t) else 2 ^ 33 + w.toNat,
    port := w32 (txnSrcPort t) }

/-! ### REGISTER_WRITE (00 R7, R8; 17 R399) -/

/-- Requester a as an agent of the fabric. -/
def reqAgent (a : Requester) : Agent :=
  match a with
  | .spire d n => spireAgent d n
  | .boot => bootAgent
  | .host => hostAgent

/-- A write that ended in an address error or at a read-only target is recorded; the host's own are not. -/
def writeRecord (s : State) (a : Requester) (addr st : Nat) : State :=
  if st = stADDR ∨ st = stRDONLY then
    match a with
    | .spire d n => addrError s (spireReq d n) (spireSrc s d n) (w32 (spirePort n)) addr
    | .boot => addrError s bootReq (srcWord s skEngine 4 euBoot) 0x400 addr
    | .host => s
  else s

/-- Offsets of H that BAR0 shows (13 R323). -/
def inBar0 (d off : Nat) : Bool := decide (d = 4) && decide (0xF00100000 ≤ off) && decide (off < 0xF00110000)

/-- Offsets of a die where registers lie, or would lie if the die had any there: every one but those of its memories. -/
def registerPlace (d off : Nat) : Bool :=
  match regionOf d off with
  | some (r, _, _) => decide (r = .regs) || decide (r = .bell) || decide (r = .queue)
  | none => true

/-- Whether a requester's write reaches a register place (01 R31, Table 1-10; 13 R326): in BOOT only the boot sequencer acts,
in RUN the Spires that run do, and the host's own writes reach BAR0 alone, once its link is up and outside SAFE. What the
host's transactions write is their own rows' effect. -/
def requesterActs (s : State) (a : Requester) (d off : Nat) : Bool :=
  registerPlace d off &&
  match a with
  | .spire k n => decide (s.mstate = .run) && decide ((spire s k n).st = .running)
  | .boot => decide (s.mstate = .boot)
  | .host => decide (s.mstate = .boot ∨ s.mstate = .run ∨ s.mstate = .halt) && !s.host.perst && inBar0 d off

/-- Who a waiting register write belongs to. -/
def reqOrigin (a : Requester) : Origin :=
  match a with
  | .spire d n => .spire d n
  | _ => .boot

/-- An access that waits at Lantern l of die d, behind those that wait there (06 R158). -/
def holdAt (s : State) (d l : Nat) (h : HeldAccess) : State :=
  setLantern s d l { lantern s d l with held := (lantern s d l).held ++ [h] }

/-- A write of one register at an offset of die d. One that meets a RUN in the Lantern whose program memory it names waits there
(06 R158). -/
def registerPut (s : State) (a : Requester) (d off addr : Nat) (v : Word) : State :=
  match dieWrite s (reqAgent a) d off (wordLe v) with
  | (.err st, s1) => writeRecord s1 a addr st
  | (.wait (some l), s1) => holdAt s1 d l { who := reqOrigin a, reg := some (a, addr, v) }
  | (_, s1) => s1

/-- A register write that has waited at its Lantern, whether or not its requester still runs. -/
def registerLate (s : State) (a : Requester) (addr : Nat) (v : Word) : State :=
  match placeOf s (reqAgent a) addr with
  | .here d off => registerPut s a d off addr v
  | _ => s

/-- A write of one register of this package. -/
def registerWrite (s : State) (a : Requester) (addr : Nat) (v : Word) : State :=
  match placeOf s (reqAgent a) addr with
  | .here d off => if requesterActs s a d off then registerPut s a d off addr v else s
  | .bad st => if requesterActs s a 6 0 then writeRecord s a addr st else s
  | .far => s

/-- REGISTER_WRITE (00 R7, R8). -/
def execRegisterWrite (a : Requester) (addr : BitVec 48) (v : BitVec 32) (s : State) :
    Host.Outcome State Fault Refusal :=
  .next (registerWrite s a addr.toNat v)

end Sys2Proof.Machine
end

