-- ==== Sys2Proof/Machine/Ed25519.lean ====
section
/-! DEFINITION. Verification of Ed25519 signatures (RFC 8032 section 5.1.7), which headers and weight bundles carry
(12 R283, 13 R318). -/

namespace Sys2Proof.Machine

/-- The prime of the field, and the order of the base point. -/
def edP : Nat := 2 ^ 255 - 19
def edL : Nat := 2 ^ 252 + 27742317777372353535851937790883648493

/-- x to the power e modulo p, bit by bit from the lowest of n bits. -/
def edPow : Nat → Nat → Nat → Nat → Nat
  | 0, _, _, acc => acc
  | n + 1, x, e, acc => edPow n (x * x % edP) (e / 2) (if e % 2 = 1 then acc * x % edP else acc)

def edExp (x e : Nat) : Nat := edPow 255 (x % edP) e 1
def edInv (x : Nat) : Nat := edExp x (edP - 2)
def edSub (a b : Nat) : Nat := (a + (edP - b % edP)) % edP

/-- The constant d of the curve, and a square root of -1. -/
def edD : Nat := edSub 0 (121665 * edInv 121666)
def edI : Nat := edExp 2 ((edP - 1) / 4)

/-- A point in extended homogeneous coordinates. -/
structure EdPt where
  x : Nat
  y : Nat
  z : Nat
  t : Nat
  deriving DecidableEq, Repr

def edZero : EdPt := ⟨0, 1, 1, 0⟩

def edAdd (a b : EdPt) : EdPt :=
  let p := edSub a.y a.x * edSub b.y b.x % edP
  let q := (a.y + a.x) * (b.y + b.x) % edP
  let c := 2 * a.t * b.t * edD % edP
  let d := 2 * a.z * b.z % edP
  let e := edSub q p
  let f := edSub d c
  let g := (d + c) % edP
  let h := (q + p) % edP
  ⟨e * f % edP, g * h % edP, f * g % edP, e * h % edP⟩

/-- The multiple of a point, over n bits of the number from the lowest. -/
def edMulBits : Nat → EdPt → Nat → EdPt → EdPt
  | 0, _, _, acc => acc
  | n + 1, q, k, acc => edMulBits n (edAdd q q) (k / 2) (if k % 2 = 1 then edAdd acc q else acc)

def edMul (k : Nat) (q : EdPt) : EdPt := edMulBits 256 q k edZero

def edSame (a b : EdPt) : Bool :=
  decide (a.x * b.z % edP = b.x * a.z % edP) && decide (a.y * b.z % edP = b.y * a.z % edP)

/-- The x of a point with that y, and whether bit 0 of x is wanted: none where there is no such point. -/
def edRecover (y : Nat) (odd : Bool) : Option Nat :=
  let u := edSub (y * y) 1
  let v := (edD * y * y + 1) % edP
  let r := u * edExp v 3 % edP * edExp (u * edExp v 7) ((edP - 5) / 8) % edP
  let x := if v * r * r % edP = u then some r
    else if v * r * r % edP = edSub 0 u then some (r * edI % edP) else none
  match x with
  | none => none
  | some x => if x = 0 ∧ odd then none else some (if (x % 2 = 1) = odd then x else edP - x)

/-- The point that 32 bytes encode; none for a non-canonical encoding. -/
def edDecode (bs : List Byte) : Option EdPt :=
  let n := leNat (bs.take 32)
  let y := n % 2 ^ 255
  if y ≥ edP then none
  else (edRecover y (decide (n ≥ 2 ^ 255))).map (fun x => ⟨x, y, 1, x * y % edP⟩)

/-- The base point: y is 4/5, x is even. -/
def edBase : EdPt :=
  let y := 4 * edInv 5 % edP
  let x := (edRecover y false).getD 0
  ⟨x, y, 1, x * y % edP⟩

/-- Whether a signature of a message verifies under a public key. RFC 8032 states the equation with the cofactor and lets
an implementation check the one without it instead; the spec does not say which (log entry 44). -/
def edVerify (pub msg sig : List Byte) : Bool :=
  match edDecode pub, edDecode (sig.take 32) with
  | some a, some r =>
    let sc := leNat ((sig.drop 32).take 32)
    let k := leNat (sha512 (sig.take 32 ++ pub ++ msg)) % edL
    let l := edMul sc edBase
    let q := edAdd r (edMul k a)
    decide (sc < edL) && edSame (edMul 8 l) (edMul 8 q) && (edSame l q || Config.edCofactor)
  | _, _ => false

end Sys2Proof.Machine
end

