-- ==== Sys2Proof/Machine/Image.lean ====
section
/-! DEFINITION. Slots and Gesin images in the flash: the header, the section table and the checks on them (12 R278-R283,
R287). -/

namespace Sys2Proof.Machine

/-! ### Results (Table 12-9) -/

def brOK : Nat := 0
def brNOFLASH : Nat := 1
def brMAGIC : Nat := 2
def brSIG : Nat := 3
def brROLLBACK : Nat := 4
def brSECT : Nat := 5
def brTARGET : Nat := 6
def brDOME : Nat := 7
def brFLASH : Nat := 8
def brTIMEOUT : Nat := 9
def brREFCLK : Nat := 0x0A
def brCONFIG : Nat := 0x0B
def brREFUSED : Nat := 0x10
def brADDR : Nat := 0x11

/-! ### Bytes of a slot (R278, R279) -/

def slotBytes (s : State) (slot : Bool) (o n : Nat) : List Byte := memBytes flashFill s.flash (slotBase s slot + o) n
def slotWord (s : State) (slot : Bool) (o : Nat) : Word := leWord (slotBytes s slot o 4)
def slotNum (s : State) (slot : Bool) (o : Nat) : Nat := (slotWord s slot o).toNat
def slotZero (s : State) (slot : Bool) (o n : Nat) : Bool := (slotBytes s slot o n).all (fun b => decide (b = 0))

def imgLen (s : State) (slot : Bool) : Nat := slotNum s slot 0x10
def imgSections (s : State) (slot : Bool) : Nat := slotNum s slot 0x14
def imgSvn (s : State) (slot : Bool) : Nat := slotNum s slot 8
def imgKey (s : State) (slot : Bool) : List Byte := slotBytes s slot 0x20 32

/-- Section entry i (Table 12-3). -/
def imgSection (s : State) (slot : Bool) (i : Nat) : Section :=
  let o := 0x100 + 64 * i
  let w := slotWord s slot o
  { kind := field w 31 24, param := field w 23 0, ofs := slotNum s slot (o + 4), len := slotNum s slot (o + 8),
    dest := slotNum s slot (o + 12) + 2 ^ 32 * field (slotWord s slot (o + 16)) 15 0,
    digest := slotBytes s slot (o + 32) 32 }

def imgTable (s : State) (slot : Bool) : List Section := (upTo (imgSections s slot)).map (imgSection s slot)

def sectionBytes (s : State) (slot : Bool) (x : Section) : List Byte := slotBytes s slot x.ofs x.len

/-- A section's bytes have its digest (R284). -/
def sectionGood (s : State) (slot : Bool) (x : Section) : Bool := decide (digest32 (sectionBytes s slot x) = x.digest)

def kFIELD : Nat := 1
def kREGS : Nat := 2
def kDOMET : Nat := 3
def kDOMEW : Nat := 4
def kSPIRE : Nat := 5
def kLPMEM : Nat := 6
def kDATA : Nat := 7

/-! ### The checks of R283 -/

/-- Step 1. -/
def headerOk (s : State) (slot : Bool) : Bool :=
  decide (slotWord s slot 0 = 0x47534E31) && decide (slotNum s slot 4 = 1) && decide (imgSvn s slot ≤ 64)
    && decide (slotNum s slot 0x0C < 2) && slotZero s slot 0x1C 4 && slotZero s slot 0x40 64 && slotZero s slot 0xC0 64
    && decide (imgLen s slot ≤ slotSize s) && decide (1 ≤ imgSections s slot) && decide (imgSections s slot ≤ 1024)
    && decide (0x100 + 64 * imgSections s slot ≤ imgLen s slot)

/-- Step 2. -/
def keyOk (s : State) (slot : Bool) : Bool := !s.otp.kvalid || decide (digest32 (imgKey s slot) = s.otp.keyhash)

/-- Step 3. -/
def signatureOk (s : State) (slot : Bool) : Bool :=
  edVerify (imgKey s slot)
    (sha512 (slotBytes s slot 0 0x80 ++ slotBytes s slot 0x100 (64 * imgSections s slot))) (slotBytes s slot 0x80 64)

/-- An entry of the table by itself: KIND and PARAM, its place in the image, its length (step 5; log entry 46). -/
def entryOk (s : State) (slot : Bool) (x : Section) : Bool :=
  decide (1 ≤ x.kind) && decide (x.kind ≤ 7)
    && decide (x.param < (if x.kind = kDOMET then 4 else if x.kind = kSPIRE then 2 else 1))
    && decide (x.ofs + x.len ≤ imgLen s slot) && decide (x.ofs % 64 = 0)
    && (if x.kind = kFIELD ∨ x.kind = kREGS then decide (x.len % 16 = 0) && decide (x.len ≤ 2 ^ 20)
      else if x.kind = kDOMET then decide (x.len = 20480)
      else if x.kind = kDOMEW then decide (x.len % 65536 = 0)
      else true)

/-- The reserved words of entry i. -/
def entryReserved (s : State) (slot : Bool) (i : Nat) : Bool :=
  slotZero s slot (0x100 + 64 * i + 20) 12 && decide (slotNum s slot (0x100 + 64 * i + 16) < 2 ^ 16)

/-- The one section of a kind and parameter. -/
def findSection (l : List Section) (kind param : Nat) : Option Section :=
  l.find? (fun x => decide (x.kind = kind) && decide (x.param = param))

/-- Weight blocks that DOMEW holds. -/
def weightBlocks (l : List Section) : Nat :=
  match findSection l kDOMEW 0 with
  | some x => x.len / 65536
  | none => 0

/-! ### DOMET entries (R281) -/

structure DomeEntry where
  sel : Nat
  oth : Bool
  wb0 : Nat
  wb1 : Nat
  dig0 : List Byte
  dig1 : List Byte
  deriving DecidableEq, Repr

/-- Entry n of a DOMET section. -/
def domeEntry (s : State) (slot : Bool) (x : Section) (n : Nat) : DomeEntry :=
  let o := x.ofs + 80 * n
  let w := slotWord s slot o
  { sel := field w 31 30, oth := bit w 29, wb0 := slotNum s slot (o + 4), wb1 := slotNum s slot (o + 8),
    dig0 := slotBytes s slot (o + 16) 32, dig1 := slotBytes s slot (o + 48) 32 }

def wbNone : Nat := 0xFFFFFFFF
def entryWb (e : DomeEntry) (b : Bool) : Nat := if b then e.wb1 else e.wb0
def entryDig (e : DomeEntry) (b : Bool) : List Byte := if b then e.dig1 else e.dig0

/-- Every weight block index of a DOMET section lies inside DOMEW. -/
def blocksInside (s : State) (slot : Bool) (l : List Section) (x : Section) : Bool :=
  (upTo 256).all (fun n =>
    let e := domeEntry s slot x n
    [e.wb0, e.wb1].all (fun w => decide (w = wbNone) || decide (w < weightBlocks l)))

/-- Step 5. -/
def tableOk (s : State) (slot : Bool) : Bool :=
  let l := imgTable s slot
  l.all (entryOk s slot) && (upTo (imgSections s slot)).all (entryReserved s slot)
    && decide ((l.filter (fun x => decide (x.kind = kDOMEW))).length ≤ 1)
    && (upTo 4).all (fun d => decide ((l.filter (fun x => decide (x.kind = kDOMET) && decide (x.param = d))).length ≤ 1))
    && (l.filter (fun x => decide (x.kind = kDOMET))).all (blocksInside s slot l)

/-- An area lies wholly between lo and lo + size. -/
def areaIn (o n lo size : Nat) : Bool := decide (lo ≤ o) && decide (o + n ≤ lo + size)

/-- An area lies inside one of the blocks of a size that begin at lo. -/
def areaInOne (o n lo size count : Nat) : Bool :=
  decide (lo ≤ o) && decide ((o - lo) / size < count) && areaIn o n (lo + (o - lo) / size * size) size

/-- DEST lies in the region that Table 12-4 names (step 6). -/
def destOk (x : Section) : Bool :=
  let d := addrDie x.dest
  let o := addrOff x.dest
  if x.kind < kSPIRE then decide (x.dest = 0)
  else if addrChip x.dest ≠ 0 then false
  else if x.kind = kSPIRE then decide (d < 4) && areaInOne o x.len 0x400000000 0x10000 32
  else if x.kind = kLPMEM then decide (d < 4) && areaInOne o x.len 0xF00060000 0x8000 8
  else if d < 4 then areaIn o x.len 0 vaultSize
  else decide (d = 4) && areaIn o x.len 0 0x800000000

/-- R283: OK or the cause of the first step that fails. -/
def headerCheck (s : State) (slot : Bool) : Nat :=
  if !headerOk s slot then brMAGIC
  else if !keyOk s slot then brSIG
  else if !signatureOk s slot then brSIG
  else if imgSvn s slot < rbValue s.otp.rbcnt then brROLLBACK
  else if !tableOk s slot then brSECT
  else if !(imgTable s slot).all destOk then brTARGET
  else brOK

end Sys2Proof.Machine
end

