-- ==== Sys2Proof/Machine/Boot.lean ====
section
/-! DEFINITION. The boot sequencer: discovery, the slot attempts and their phases, what a failed attempt leaves, and the
update engine's commands (12 R275-R299). -/

namespace Sys2Proof.Machine

/-! ### Phases (Table 12-6) -/

def phFLASH : BitVec 4 := 1
def phAUTH : BitVec 4 := 2
def phCONFIG : BitVec 4 := 3
def phDOMES : BitVec 4 := 4
def phLOAD : BitVec 4 := 5
def phSETTLE : BitVec 4 := 6
def phRUN : BitVec 4 := 7
def phSAFE : BitVec 4 := 8

def setPhase (s : State) (p : BitVec 4) : State := { s with boot := { s.boot with phase := p } }
/-- The sequencer is in phase p and can go on: it waits while REFCLK_IN is lost (02 R52). -/
def inPhase (s : State) (p : BitVec 4) : Bool := decide (s.mstate = .boot) && s.refclk && decide (s.boot.phase = p)
def bootSrc (s : State) : Word := srcWord s skEngine 4 euBoot

/-! ### What a failed attempt restores (R291, R293) -/

/-- A bank between attempts: a programming under way ends for nobody, one that waits is dropped. -/
def bankKeeps (b : Bank) : Bank :=
  { b with job := if b.st = .prog then b.job.map (fun j => { j with boot := true, tries := 9 }) else none }

/-- The fabric registers of a die, the image's fields back at 0. -/
def sysKeeps (v : SysDie) : SysDie := { v with stallEn := false, stallLimit := 0, episodes := [] }

/-- A C-die as it was before the image was loaded; its Domes keep banks and contents, its Vault clears again. -/
def dieKeeps (c : CDie) : CDie :=
  { sys := sysKeeps c.sys, domeMem := c.domeMem, slewed := c.slewed, vcorr := c.vcorr, vaddr := c.vaddr,
    domes := c.domes.map (fun e => (e.1, { b0 := bankKeeps e.2.b0, b1 := bankKeeps e.2.b1, sel := e.2.sel })) }

def restoreDies (s : State) : List Nat → State
  | [] => s
  | d :: ds => restoreDies (setCd s d (dieKeeps (cd s d))) ds

/-- An external port at idle: its neighbour stays fixed until RST_N (10 R243). -/
def portKeeps (v : Endp) : Endp := { neighbour := v.neighbour }

/-- What is kept of a neighbouring chip: the one sequence of the TIDs sent to it, and the window of those taken from it (10 R237,
R238). -/
def chipKeeps (p : Party) : Party :=
  { asked := p.asked, nextTid := p.nextTid, window := p.window.filter (fun w => w.resp.isSome) }

/-- The link registers that the image writes, and the external ports at idle. -/
def nldKeeps (n : Nld) : Nld :=
  { ({} : Nld) with
    isoDies := n.isoDies, isoChips := n.isoChips, farIso := n.farIso,
    eps := n.eps.map (fun e => (e.1, if isExt e.1 then portKeeps e.2 else e.2)),
    parties := n.parties.map (fun p => (p.1, if p.1 < 8 then chipKeeps p.2 else p.2)) }

/-- F's registers that the image writes at their pre-load value, 0. -/
def fieldKeeps (f : FDie) : FDie :=
  { f with
    wd := 0, doCmd := 0, doSafe := 0, doSlew := 0, evt := 0, cmdDue := false,
    ao := f.ao.map (fun e => (e.1, { e.2 with en := false, safem := 0, code := 0 })),
    di := f.di.map (fun e => (e.1, { e.2 with type3 := false, filt := 0 })) }

def hostKeeps (h : HostIf) : HostIf :=
  { h with sessEn := 0, evq := 0, wupdQ := 0, wupdLast := 0, hbCtl := 0, hbWord := 0, hbFresh := false, macs := [], csi := [] }

def faultKeeps (f : Faults) : Faults :=
  { f with auto := false, qEn := false, qDie := 0, qQueue := 0, bellEn := false, bell := 0, fesc := false, wdAct := 0, wdPeriod := 0 }

/-- A request that an engine of H makes for the image's sake has no effect any more once the attempt is over: one not sent is dropped,
one that has not come to its die does nothing there. -/
def endAsk (s : State) (x : Nat × Outst) : State :=
  let o := x.2
  let ours := match o.who with
    | .bootWrite => true
    | .camera _ _ _ _ => true
    | .serialIn _ _ => true
    | .serialOut _ _ => true
    | _ => false
  if !ours then s else if o.sent then stopAsk (orphan s x.1 o) o else dropAsk s x.1 o

/-! A REGS section may write registers of H whose reset value is not "image": what they held comes back as well (R291). -/

/-- The endpoint whose NLD_EP_ERR lies at offset r of a die's register region. -/
def errReg (d r : Nat) : Option Nat :=
  if 0xC1000 ≤ r ∧ r < 0xC2000 ∧ r % 0x100 = 8 then epAt d ((r - 0xC1000) / 0x100) else none

/-- What a write of the sequencer at offset r of a die's register region may change, besides the fields with Reset "image" and what a
restore clears: the register itself, HEAD and what the fault queue has been offered where AUTO or the queue comes into force, and the
pending bits where a vector is signalled. -/
def undoOf (s : State) (d r : Nat) : List (Nat × Nat × Word) :=
  if r = 0x108 ∧ d ≤ 4 then [(d, r, w32 (b2n (sysDie s d).refclkLost * 2))]
  else if d = 5 ∧ r = 0x10324 then [(d, r, w32 s.f.edge.toNat)]
  else if (errReg d r).isSome then [(d, r, w32 (endp s ((errReg d r).getD 0)).err.toNat)]
  else if d ≠ 4 then []
  else if r = 0x200 ∨ r = 0x204 then [(d, 0x210, s.faults.head), (d, 0x204, s.faults.qNext)]
  else if r = 0x150018 then [(d, 0x109000, s.host.pba.extractLsb' 0 32), (d, 0x109004, s.host.pba.extractLsb' 32 32)]
  else if r = 0x0 then [(d, r, w32 s.power.rstcause.toNat)]
  else if r = 0x210 then [(d, r, s.faults.head)]
  else if r = 0x240 ∨ r = 0x244 then [(d, 0x244, w32 (b2n s.faults.refused))]
  else if r = 0x100020 then [(d, r, w32 (b2n s.host.baddb))]
  else if 0x101000 ≤ r ∧ r < 0x101400 then
    let v := session s ((r - 0x101000) / 0x40)
    if r % 0x40 = 0 then
      [(d, r, w32 (v.sqTail.toNat * 64)), (d, r + 4, w32 (v.sqHead.toNat * 64)), (d, 0x100020, w32 (b2n s.host.baddb))]
    else ((cqRegGet v (r % 0x40)).map (fun x => (d, r, x))).toList
  else if 0x108000 ≤ r ∧ r < 0x108400 then [(d, r, msixWord s ((r - 0x108000) / 4))]
  else []

/-- A ring register of a session as it was, with the ring in force where the session is closed. -/
def cqRegBack (v : Session) (r : Nat) (x : Word) : Session :=
  match r with
  | 0x00 => { v with sqTail := x.extractLsb' 6 10 }
  | 0x04 => { v with sqHead := x.extractLsb' 6 10 }
  | 0x08 => { cqRegSet v r x with cqBase := hiWord v.cqBase ++ x }
  | 0x14 => { v with cqHead := x.extractLsb' 6 18 }
  | 0x18 => { cqRegSet v r x with cqWb := hiWord v.cqWb ++ x }
  | _ => cqRegSet v r x

/-- One register as it was. The log's HEAD goes back only while no later record has taken the place of one that it freed, and a vector
that has been signalled outside is no longer pending. -/
def putBack (s : State) (u : Nat × Nat × Word) : State :=
  let d := u.1
  let r := u.2.1
  let x := u.2.2
  if r = 0x108 then setSysDie s d { sysDie s d with refclkLost := (sysDie s d).refclkLost || bit x 1 }
  else if d = 5 ∧ r = 0x10324 then { s with f := { s.f with edge := s.f.edge ||| x.extractLsb' 0 16 } }
  else if (errReg d r).isSome then
    let e := (errReg d r).getD 0
    setEndp s e { endp s e with err := (endp s e).err ||| x.extractLsb' 0 5 }
  else if r = 0x204 then { s with faults := { s.faults with qNext := x } }
  else if r = 0x109000 then { s with host := { s.host with pba := s.host.pba &&& (0xFFFF_FFFF#32 ++ x) } }
  else if r = 0x109004 then { s with host := { s.host with pba := s.host.pba &&& (x ++ 0xFFFF_FFFF#32) } }
  else if r = 0x0 then { s with power := { s.power with rstcause := s.power.rstcause ||| x.extractLsb' 0 14 } }
  else if r = 0x210 then
    if (s.faults.tail - x).toNat ≤ 256 then { s with faults := { s.faults with head := x } } else s
  else if r = 0x244 then { s with faults := { s.faults with refused := bit x 0 } }
  else if r = 0x100020 then { s with host := { s.host with baddb := bit x 0 } }
  else if r < 0x108000 then
    let n := (r - 0x101000) / 0x40
    setSession s n (cqRegBack (session s n) (r % 0x40) x)
  else { s with host := { s.host with msixTab := tabSet s.host.msixTab ((r - 0x108000) / 4) x } }

/-- What each of these registers held before the attempt's first write of it. -/
def undoRegs (s : State) : State := s.boot.undo.foldl putBack s

/-- Everything that the attempt may have changed put back; `field` tells whether F's registers are too. -/
def restoreImage (s : State) (field : Bool) : State :=
  let s1 := restoreDies (undoRegs ((allAsks s).foldl endAsk s)) (upTo 4)
  { s1 with
    hsys := sysKeeps s1.hsys, tokenWait := [], nld := nldKeeps s1.nld, host := hostKeeps s1.host, uarts := [],
    mem := { ({} : MemCtl) with epoch := s1.mem.epoch + 1 },
    f := if field then fieldKeeps s1.f else s1.f,
    power := { s1.power with limit := 0, slew := 0, vreq := [30, 30, 30, 30], asked := [false, false, false, false] },
    faults := faultKeeps s1.faults,
    boot := { s1.boot with
      seed := 0, provision := false, pubkey := [], sections := [], domeAt := 0, todo := [], later := [], recorded := [],
      starts := [], fieldApplied := false, svn := 0, lskip := false, now := none, writes := [], wrAsk := false, wrBad := none,
      staged := [], rel := 0, wiped := 0, undo := [] } }

/-! ### How an attempt ends without success (R291-R293) -/

/-- A bank in SAFE: no longer programmed, FAULT if it was left in PROG, and STANDBY if the failed attempt had made it ACTIVE (R293,
R294; DEDUCED, log entry 46). -/
def bankSafe (b : Bank) : Bank :=
  let b1 := if b.st = .active then { b with st := .standby } else bankStops b
  { b1 with job := none }

/-- The Domes of a die in SAFE. -/
def dieSafe (c : CDie) : CDie :=
  { c with domes := c.domes.map (fun e => (e.1, { e.2 with b0 := bankSafe e.2.b0, b1 := bankSafe e.2.b1 })) }

/-- µs since RST_N release. -/
def bootMicros (s : State) : Word := w32 (s.tb.toNat / 1000)

/-- The machine enters SAFE. -/
def enterSafe (s : State) : State :=
  let s1 := restoreImage s (!(s.boot.slot && s.boot.fieldApplied))
  let s2 := { mapDies s1 dieSafe with
    tokenHeld := [],
    power := { s1.power with capT := [0, 0, 0, 0] },
    boot := { s1.boot with time := bootMicros s1 } }
  let s3 := raiseFirst s2 (mkRec s2 sevFatal 4 (bootSrc s2) 0x0061 (w32 s2.boot.causeA.toNat) (w32 s2.boot.causeB.toNat) 0)
  setMState (setPhase s3 phSAFE) .safe

/-- A slot fails: its cause and its record. -/
def slotCause (s : State) (slot : Bool) (cause : Nat) : State :=
  let c := BitVec.ofNat 8 cause
  let s1 := { s with boot := if slot then { s.boot with causeB := c } else { s.boot with causeA := c } }
  warn s1 (bootSrc s1) 0x0060 (w32 (b2n slot)) (w32 cause) (w32 (bootPhase s).toNat)

/-- The attempt in progress fails: slot B is tried, or the machine enters SAFE. -/
def slotFail (s : State) (cause : Nat) : State :=
  let s1 := slotCause s s.boot.slot cause
  if s.boot.slot then enterSafe s1
  else
    let s2 := restoreImage s1 true
    { s2 with boot := { s2.boot with slot := true, phase := phAUTH, attemptAt := s2.tb } }

/-- The attempt in progress and any slot not tried fail. -/
def allFail (s : State) (cause : Nat) : State :=
  let s1 := slotCause s s.boot.slot cause
  enterSafe (if s.boot.slot then s1 else slotCause s1 true cause)

/-- An attempt is in progress. -/
def attempting (s : State) : Bool := decide (s.mstate = .boot) && decide (s.boot.phase.toNat < 8)

/-- BOOT_SLOT_TIMEOUT (R292): 10 s after the attempt began. -/
def execBootSlotTimeout (s : State) : Host.Outcome State Fault Refusal :=
  .next (if attempting s && decide (since s s.boot.attemptAt ≥ 10000000000) then slotFail s brTIMEOUT else s)

/-- BOOT_REFCLK_ABSENT (R292): the delay-line monitor has measured 100 ms without REFCLK_IN. -/
def execBootRefclkAbsent (s : State) : Host.Outcome State Fault Refusal :=
  .next (if attempting s && !s.refclk then allFail s brREFCLK else s)

/-- FLASH_READ_TIMEOUT (R277): in a phase that reads the flash, discovery among them. -/
def execFlashReadTimeout (s : State) : Host.Outcome State Fault Refusal :=
  .next (if attempting s && decide (phFLASH.toNat ≤ (bootPhase s).toNat) && decide (s.boot.phase.toNat ≤ phSETTLE.toNat) then
      slotFail s brFLASH
    else s)

/-! ### START and FLASH (R276, R287) -/

/-- The octal rate: the highest of Table 12-1 that the Profile 1.0 table lists. -/
def octalRate (v : FlashDev) : Option Nat := [200, 166, 133, 100].find? (fun r => decide (r ∈ v.rates))

/-- The mode and clock that discovery chooses; none for NOFLASH. Tables that list none of the rates leave the quad mode, if there
is one (DEDUCED, log entry 67). -/
def flashChoice (v : FlashDev) : Option (BitVec 2 × Byte) :=
  if !v.present || !v.densPow2 || decide (v.dens < 24) || decide (29 < v.dens) then none
  else match (if v.profile1 && v.octalSeq then octalRate v else none) with
    | some r => some (2, BitVec.ofNat 8 r)
    | none => if v.quad then some (1, 50) else none

/-- FLASH_DISCOVERY (R276). -/
def execFlashDiscovery (s : State) : Host.Outcome State Fault Refusal :=
  .next (if (inPhase s 0 || inPhase s phFLASH) && startDone s then
      match flashChoice s.flashDev with
      | none => allFail (setPhase s phFLASH) brNOFLASH
      | some (m, mhz) =>
        { s with boot := { s.boot with
          phase := phAUTH, flashMode := m, flashMHz := mhz, flashDens := BitVec.ofNat 5 s.flashDev.dens } }
    else s)

/-! ### The sequencer's writes (10 R230; 12 R280, R284) -/

def bootAddr (s : State) (d off : Nat) : Nat := devAddr (ownChip s) d off

/-- A write of the sequencer, on H at once and to another die over the links, where it waits for the answer: none while the memory
cannot be written yet. -/
def bootMake (s0 : State) (w : BootWrite) : Option State :=
  let d := addrDie w.addr
  let s := if regOff (addrOff w.addr) then
      { s0 with boot := { s0.boot with undo := undoOf s0 d (addrOff w.addr - 0xF00000000) ++ s0.boot.undo } }
    else s0
  let a := bootAddr s d (addrOff w.addr)
  let bad := fun (t : State) (st : Nat) => { t with boot := { t.boot with wrBad := some (w.addr, st) } }
  if !w.good then some (bad s stOK)
  else match routeOf s bootAgent a with
    | .bad st => some (bad s st)
    | .far =>
      match sendAsk s { kind := kWR, src := 0x400, addr := a, len := w.data.length, payload := w.data } .bootWrite with
      | some s1 => some { s1 with boot := { s1.boot with wrAsk := true } }
      | none => some (bad s stISOLATED)
    | .here k off =>
      match dieWrite s bootAgent k off w.data with
      | (.ok _, s1) => some s1
      | (.err st, s1) => some (bad s1 st)
      | (.never, s1) => some { s1 with boot := { s1.boot with wrAsk := true } }
      | (.wait _, _) => none

/-- The sequencer's writes made in their order, up to one that has to be waited for or has failed. -/
def bootWrites : Nat → State → State
  | 0, s => s
  | k + 1, s =>
    match s.boot.writes with
    | [] => s
    | w :: ws =>
      if s.boot.wrAsk ∨ s.boot.wrBad ≠ none then s
      else match bootMake { s with boot := { s.boot with writes := ws } } w with
        | some s1 => bootWrites k s1
        | none => s

def bootGo (s : State) : State := bootWrites s.boot.writes.length s

/-- The sequencer still waits for one of its writes, or has some to make. -/
def bootBusy (s : State) : Bool := s.boot.wrAsk || decide (s.boot.writes ≠ [])

/-- Writes put before the sequencer, and made as far as they go. -/
def bootStart (s : State) (x : Option Section) (ws : List BootWrite) : State :=
  bootGo { s with boot := { s.boot with now := x, writes := ws } }

/-- Bytes from a device address on, as writes. -/
def bootBytes (a : Nat) (bs : List Byte) : List BootWrite := (pieces a bs).map (fun p => { addr := p.1, data := p.2 })

/-- A write has failed: an address error or a read-only target is recorded (17 R399), and the attempt fails. -/
def bootFails (s : State) (cause : Nat) : State :=
  match s.boot.wrBad with
  | some (a, st) => slotFail (writeRecord s .boot a st) cause
  | none => s

/-! ### AUTH (R283) -/

def kindOf (l : List Section) (k : Nat) : List Section := l.filter (fun x => decide (x.kind = k))

/-- IMAGE_AUTH (R283): the OTP is read and the header and the section table are checked. A flash whose discovery ended with FLASH
has no mode to be read in: AUTH then waits until FLASH or TIMEOUT ends the attempt (DEDUCED, log entry 67). -/
def execImageAuth (s : State) : Host.Outcome State Fault Refusal :=
  .next (if inPhase s phAUTH && decide (s.boot.flashMode ≠ 0) then
      let s1 := { s with boot := { s.boot with isOpen := !s.otp.kvalid, otpRead := true } }
      let slot := s.boot.slot
      let c := headerCheck s slot
      if c ≠ brOK then slotFail s1 c
      else
        { s1 with boot := { s1.boot with
          phase := phCONFIG, svn := BitVec.ofNat 7 (imgSvn s slot), seed := slotWord s slot 0x18,
          provision := bit (slotWord s slot 0x0C) 0, pubkey := imgKey s slot, sections := imgTable s slot,
          todo := kindOf (imgTable s slot) kFIELD ++ kindOf (imgTable s slot) kREGS } }
    else s)

/-! ### CONFIG (R280, R284) -/

/-- A register write of a FIELD or REGS section. -/
structure RegW where
  addr : Nat
  value : Word
  good : Bool
  deriving Repr

def regWs (bs : List Byte) : Nat → List RegW
  | 0 => []
  | n + 1 =>
    let w := toWords 4 bs
    { addr := (wordAt w 0).toNat + 2 ^ 32 * field (wordAt w 1) 15 0, value := wordAt w 2,
      good := decide (field (wordAt w 1) 31 16 = 0) && decide (wordAt w 3 = 0) } :: regWs (bs.drop 16) n

def sectionWs (s : State) (slot : Bool) (x : Section) : List RegW := regWs (sectionBytes s slot x) (x.len / 16)

/-- Registers that no REGS section writes. -/
def regForbidden (d o : Nat) : Bool :=
  let r := o - 0xF00000000
  if d = 4 then decide (r / 0x10000 = 0xE) || decide (r = 0xC0008)
  else isPmem r
    || (decide (r / 0x10000 = 0xA) && decide (r % 0x100 = 0))
    || ((decide (r / 0x10000 = 3) || decide (r / 0x10000 = 5)) && decide (r % 0x100 = 4))

/-- The target of a register write is one that R280 allows. -/
def regAllowed (fieldSec : Bool) (a : Nat) : Bool :=
  let d := addrDie a
  let o := addrOff a
  decide (addrChip a = 0) && decide (a % 4 = 0)
    && (if fieldSec then decide (d = 5) && regOff o
      else decide (d ≤ 4) && ((regOff o && !regForbidden d o)
        || (decide (d < 4) && (areaIn o 4 0x500000000 0x10000 || areaIn o 4 0x600000000 0x10000))))

/-- The register writes of a section as the sequencer makes them, in entry order: one that R280 does not allow ends the attempt when
its turn comes. -/
def sectionWrites (s : State) (slot : Bool) (x : Section) : List BootWrite :=
  (sectionWs s slot x).map (fun w => { addr := w.addr, data := wordLe w.value, good := w.good && regAllowed (decide (x.kind = kFIELD)) w.addr })

/-- The last value that a list of writes gives a register. -/
def lastW (ws : List RegW) (a : Nat) : Option Word := ((ws.filter (fun w => decide (w.addr = a))).getLast?).map (·.value)

/-- Queue q of die d would be left enabled with a ring outside its Vault (09 R220), by the last QUE_CFG and QUE_BASE values of the section,
also where the queue would ignore one of them (DESIGN CHOICE, log entry 46). -/
def queueForbidden (ws : List RegW) (d q : Nat) : Bool :=
  match lastW ws (devAddr 0 d (0x600000000 + q * 0x200 + 4)) with
  | none => false
  | some c =>
    let b := (lastW ws (devAddr 0 d (0x600000000 + q * 0x200))).getD 0
    let v : Queue := { base := b.extractLsb' 6 19, en := bit c 31, esize := bit c 30, ldepth := c.extractLsb' 24 4 }
    v.en && !queInVault v

/-- A serial port enabled with catch-wake above 230.4 kbaud (14 R342). -/
def uartForbidden (v : Uart) : Bool := uEn v && decide (uSleep v = 1) && rateAbove v 230400

/-- A ring in a Vault: its die, its first byte and its size. -/
structure VRing where
  die : Nat
  lo : Nat
  size : Nat
  deriving DecidableEq, Repr

def ringsMeet (a b : VRing) : Bool := decide (a.die = b.die) && decide (a.lo < b.lo + b.size) && decide (b.lo < a.lo + a.size)

/-- The rings of enabled queues. -/
def queueRings (s : State) : List VRing :=
  (upTo 4).flatMap (fun d => (cd s d).queues.filterMap (fun q =>
    if q.2.en then some ⟨d, q.2.base.toNat * 64, queDepth q.2 * queEntry q.2⟩ else none))

/-- The rings of enabled serial ports. -/
def uartRings (s : State) : List VRing :=
  (s.uarts.filter (fun u => uEn u.2)).flatMap (fun u =>
    [u.2.rxring, u.2.txring].map (fun w => ⟨ringDie w, ringBase w, 2 * ringDepth w⟩))

/-- The registers of enabled streams, and their rings. -/
def enabledStreams (s : State) : List CsiStreamRegs :=
  (s.host.csi.flatMap (fun r => r.2.streams.map (fun x => x.2.regs))).filter scEn

def streamRing (c : CsiStreamRegs) : VRing := ⟨scDie c, scBase c, scSlots c * scSlot c⟩

/-- Some ring of a list meets a later one. -/
def someMeet : List VRing → Bool
  | [] => false
  | x :: xs => xs.any (ringsMeet x) || someMeet xs

/-- A stream enabled with a number of slots that Table 13-11 does not give, or with a ring that leaves its Vault. -/
def streamForbidden (c : CsiStreamRegs) : Bool :=
  decide (scSlots c < 2) || decide (64 < scSlots c) || decide (scBase c + scSlots c * scSlot c > vaultSize)

/-- A stream enabled with a ring that overlaps another ring (13 section 13.2.4; 09 R209). -/
def streamsMeet (s : State) : Bool :=
  let xs := (enabledStreams s).map streamRing
  someMeet xs || xs.any (fun x => (queueRings s ++ uartRings s).any (ringsMeet x))

/-- A configuration that image check forbids. -/
def configForbidden (s : State) (ws : List RegW) : Bool :=
  (upTo 4).any (fun d => (upTo 128).any (queueForbidden ws d)) || (upTo 4).any (fun u => uartForbidden (uart s u))
    || (enabledStreams s).any streamForbidden || streamsMeet s

/-- DOMES, LOAD or SETTLE, whichever has work left. -/
def phaseAfterConfig (s : State) : State :=
  let b := s.boot
  let l := b.sections
  let load := kindOf l kSPIRE ++ kindOf l kLPMEM ++ (kindOf l kDATA).filter (fun x => decide (addrDie x.dest < 4))
  { s with boot := { b with
      phase := phDOMES, domeAt := 0, todo := load,
      later := (kindOf l kDATA).filter (fun x => decide (addrDie x.dest = 4)),
      starts := ((kindOf l kSPIRE).filter (fun x => decide (x.param = 1))).map
        (fun x => (addrDie x.dest, (addrOff x.dest - 0x400000000) / 0x10000)) } }

/-- The writes of a section are made: one of F's counts as applied (R293). -/
def sectionOver (s : State) : State :=
  { s with boot := { s.boot with
    now := none, fieldApplied := s.boot.fieldApplied || s.boot.now.any (fun x => decide (x.kind = kFIELD)) } }

/-- Every FIELD and REGS section has been acted on: the configuration is checked, and training starts. -/
def configEnd (s : State) : State :=
  let l := s.boot.sections
  if configForbidden s ((kindOf l kREGS).flatMap (sectionWs s s.boot.slot)) then slotFail s brCONFIG
  else
    let s1 := if field s.mem.cfg 27 24 ≠ 0 then trainStart s else s
    phaseAfterConfig (startLinks s1 (extEps.filter (fun e => (endp s1 e).en)))

/-- IMAGE_CONFIG (R284, R287): FIELD, then REGS, then training starts. Each time the sequencer goes on with its writes or, with none to
wait for, checks the next section whole and begins with it. -/
def execImageConfig (s : State) : Host.Outcome State Fault Refusal :=
  .next (if inPhase s phCONFIG then
      let s1 := bootGo s
      if s1.boot.wrBad ≠ none then bootFails s1 brTARGET
      else if bootBusy s1 then s1
      else
        let s2 := sectionOver s1
        match s2.boot.todo with
        | [] => configEnd s2
        | x :: xs =>
          if !sectionGood s2 s2.boot.slot x then slotFail s2 brSECT
          else bootStart { s2 with boot := { s2.boot with todo := xs } } (some x) (sectionWrites s2 s2.boot.slot x)
    else s)

/-! ### DOMES (R288) -/

/-- The Domes that a DOMET section describes, from number k (die x 256 + Dome) up. -/
def nextDome (l : List Section) (k : Nat) : Option (Nat × Nat × Section) :=
  ((upTo 4).filterMap (fun d =>
    if k < 256 * (d + 1) then (findSection l kDOMET d).map (fun x => (d, (if k < 256 * d then 0 else k - 256 * d), x))
    else none)).head?

/-- What the sequencer comes to at a bank: good, failed, or in need of programming from a block with a digest. -/
inductive BankPlan where
  | good
  | bad
  | prog (wb : Nat) (dig : List Byte)
  deriving DecidableEq, Repr

/-- Bank b of an entry: verified where it is STANDBY. One that an earlier attempt left in PROG or ACTIVE refuses its PROGRAM with
BANK_STATE (R288; 04 R93). The counts of BOOT_DOME wrap at 4,096 (DESIGN CHOICE, log entry 46). -/
def planBank (s : State) (d n : Nat) (e : DomeEntry) (t b : Bool) : BankPlan × State :=
  let k := bankAt s d n b
  let same := decide (e.sel = 2) && decide (b = t)
  let dig := if same then k.digest else entryDig e b
  if k.st = .prog ∨ k.st = .active then (.bad, s)
  else
    let ok := decide (k.st = .standby) && decide (digest32 (bankBytes s d n b) = dig)
    let s1 := if ok then { s with boot := { s.boot with verifs := s.boot.verifs + 1 } }
      else if k.st = .standby then putBank s d n b { k with st := .fault }
      else s
    if ok then (.good, s1)
    else if entryWb e b = wbNone ∨ same ∨ k.count ≥ 100000 then (.bad, s1)
    else (.prog (entryWb e b) dig, s1)

/-! Staging: 64 blocks from Vault offset 0x140_0000 up. -/

def stageBase : Nat := 0x1400000

/-- The lowest place that no programming of the boot sequencer uses (DESIGN CHOICE, log entry 67). -/
def stageAt (c : CDie) : Option Nat :=
  let used := c.domes.flatMap (fun e => [e.2.b0, e.2.b1].filterMap (fun k =>
    match k.job with
    | some j => if j.boot ∧ j.tries < 9 then some j.src else none
    | none => none))
  ((upTo 64).map (fun i => stageBase + bankSize * i)).find? (fun a => !decide (a ∈ used))

/-- The writes that stage a block of the flash in the Vault of die d. -/
def stageWrites (s : State) (d at_ block : Nat) : List BootWrite :=
  bootBytes (devAddr 0 d at_) (memBytes flashFill s.flash block bankSize)

/-- The writes that make the staging bytes of die d zero. -/
def zeroWrites (d : Nat) : List BootWrite :=
  (upTo 1024).map (fun i => { addr := devAddr 0 d (stageBase + 4096 * i), data := List.replicate 4096 0 })

/-- DOMES has ended: the staging bytes of one die after the other are written as zeros, and then the next phase begins. An isolated die
is passed over. -/
def clearStage (s : State) : State :=
  match (upTo 4).find? (fun d => decide (s.boot.wiped ≤ d) && diesJoined s 4 d) with
  | some d => bootStart { s with boot := { s.boot with wiped := d + 1 } } none (zeroWrites d)
  | none => setPhase { s with boot := { s.boot with wiped := 0 } } (if s.boot.todo = [] then phSETTLE else phLOAD)

/-- The block of a bank is to be staged: once it is, the bank waits for its token. -/
def stageBank (s : State) (k : Nat × Nat × Bool) (at_ block : Nat) : State :=
  { s with boot := { s.boot with
    writes := s.boot.writes ++ stageWrites s k.1 at_ block, staged := s.boot.staged ++ [k] } }

/-- A programming by the boot sequencer: its block is staged first; none while there is no place for it. -/
def wantProgram (s : State) (d n : Nat) (b : Bool) (block : Nat) (dig : List Byte) : Option State :=
  (stageAt (cd s d)).map (fun a =>
    stageBank (putBank s d n b { bankAt s d n b with job := some { src := a, digest := dig, boot := true, block := block } })
      (d, n, b) a block)

/-- Where the flash holds weight block i of the image. -/
def blockAt (s : State) (i : Nat) : Nat :=
  slotBase s s.boot.slot + ((findSection s.boot.sections kDOMEW 0).map (·.ofs)).getD 0 + 65536 * i

/-- Bank b of an entry dealt with: none while its block cannot be staged, else whether it may go on. -/
def bootBank (s : State) (d n : Nat) (e : DomeEntry) (t b : Bool) : Option (Bool × State) :=
  match planBank s d n e t b with
  | (.good, s1) => some (true, s1)
  | (.bad, s1) => some (false, s1)
  | (.prog wb dig, s1) => (wantProgram s1 d n b (blockAt s wb) dig).map (fun t => (true, t))

/-- boot_dome of R288 for Dome n of die d. -/
def bootDome (s : State) (d n : Nat) (e : DomeEntry) : Option (Bool × State) :=
  if e.sel = 3 then some (true, s)
  else if !diesJoined s 4 d then some (false, s)
  else
    let t := if e.sel = 2 then (dome s d n).sel else decide (e.sel = 1)
    let record := fun (x : Bool × State) =>
      (x.1, { x.2 with boot := { x.2.boot with recorded := x.2.boot.recorded ++ [(d, n, t)] } })
    match bootBank s d n e t t with
    | none => none
    | some (false, s1) => some (false, s1)
    | some (true, s1) =>
      if e.oth then (bootBank s1 d n e t (!t)).map record else some (record (true, s1))

/-- Banks of the boot sequencer's programmings: die, Dome, bank and the job. -/
def bootJobs (s : State) : List ((Nat × Nat × Bool) × Bank × PgmJob) :=
  (upTo 4).flatMap (fun d => (cd s d).domes.flatMap (fun e =>
    [(false, e.2.b0), (true, e.2.b1)].filterMap (fun k =>
      match k.2.job with
      | some j => if j.boot ∧ j.tries < 9 then some ((d, e.1, k.1), k.2, j) else none
      | none => none)))

/-- A programming that has failed and does not wait for a token again yet. -/
def jobFailed (s : State) (x : (Nat × Nat × Bool) × Bank × PgmJob) : Bool :=
  decide (x.2.1.st ≠ .prog) && !decide (x.1 ∈ s.tokenWait)

/-- The banks whose blocks have been staged wait for their tokens. -/
def stagedWait (s : State) : State := { s with tokenWait := s.tokenWait ++ s.boot.staged, boot := { s.boot with staged := [] } }

/-- What the sequencer does next in DOMES with no block to stage: a failed programming is tried once more or ends the attempt, else the
next entry is dealt with; with none left and nothing being programmed, the staging bytes are cleared and LOAD begins. -/
def domesNext (s : State) : State :=
    match (bootJobs s).find? (jobFailed s) with
      | some x =>
        if x.2.2.tries ≥ 2 ∨ x.2.1.count ≥ 100000 then slotFail s brDOME
        else bootGo (stageBank s x.1 x.2.2.src x.2.2.block)
      | none =>
        match nextDome s.boot.sections s.boot.domeAt with
        | some (d, n, x) =>
          if !sectionGood s s.boot.slot x then slotFail s brSECT
          else match bootDome s d n (domeEntry s s.boot.slot x n) with
            | none => s
            | some (false, s1) => slotFail s1 brDOME
            | some (true, s1) => bootGo { s1 with boot := { s1.boot with domeAt := d * 256 + n + 1 } }
        | none => if bootJobs s = [] then clearStage s else s

/-- BOOT_DOME_ENTRY (R288): each time the sequencer goes on with the blocks that it stages or, with none under way, with its Domes. -/
def execBootDomeEntry (s : State) : Host.Outcome State Fault Refusal :=
  .next (if !inPhase s phDOMES then s
    else
      let s1 := bootGo s
      if s1.boot.wrBad ≠ none then bootFails s1 brDOME
      else if bootBusy s1 then s1
      else if s1.boot.staged ≠ [] then stagedWait s1
      else domesNext s1)

/-! ### LOAD (R284, R287) -/

/-- A section whose bytes have been written: its digest is checked. -/
def loadOver (s : State) (x : Section) : State :=
  if !sectionGood s s.boot.slot x then slotFail s brSECT
  else { s with boot := { s.boot with now := none, phase := if s.boot.todo = [] then phSETTLE else phLOAD } }

/-- SECTION_LOAD (R284): each time the sequencer goes on with the bytes of a SPIRE, LPMEM or Vault DATA section, checks its digest, or
begins with the next one. A write that never completes is waited for until TIMEOUT (11 R257; R292). -/
def execSectionLoad (s : State) : Host.Outcome State Fault Refusal :=
  .next (if !inPhase s phLOAD then s
    else
      let s1 := bootGo s
      if s1.boot.wrBad ≠ none then bootFails s1 brTARGET
      else if bootBusy s1 then s1
      else match s1.boot.now, s1.boot.todo with
        | some x, _ => loadOver s1 x
        | none, [] => setPhase s1 phSETTLE
        | none, x :: xs =>
          bootStart { s1 with boot := { s1.boot with todo := xs } } (some x) (bootBytes x.dest (sectionBytes s1 s1.boot.slot x)))

/-! ### SETTLE (R272, R287; 10 R245, R251) -/

/-- Every port that trains has come up or gone down. -/
def portsSettled (s : State) : Bool := extEps.all (fun e => decide ((endp s e).st ≠ .training))

/-- Endpoints still not UP are put DOWN, and 10 R245 is applied to each (10 R251). -/
def settleLinks (s : State) : List Nat → State
  | [] => s
  | e :: es =>
    let s1 := if (endp s e).st = .training then goDown s e
      else if isExt e && decide ((endp s e).st ≠ .up) then isolateVia s (e - 17) (upTo 8)
      else s
    settleLinks s1 es

/-- The sections for LPDDR loaded in table order, and the cause of a failure: none while the memory cannot be written. -/
def loadLater : State → List Section → Option (State × Nat)
  | s, [] => some (s, brOK)
  | s, x :: xs =>
    match dieWrite s bootAgent 4 (addrOff x.dest) (sectionBytes s s.boot.slot x) with
    | (.ok _, s1) => if sectionGood s s.boot.slot x then loadLater s1 xs else some (s1, brSECT)
    | (.err st, s1) => some (writeRecord s1 .boot x.dest st, brTARGET)
    | _ => none

/-- The Bells that 10 R245 poisons for every party that is isolated by now: those that this attempt's image has made depend on a
party isolated before it too (10 R251). -/
def poisonIsolated (s : State) : State := poisonDies s (fun d b => bellCut s d b) (upTo 4)

/-- BOOT_SETTLE_END (R287): training has ended everywhere; LPDDR DATA is loaded, or skipped with LSKIP. -/
def execBootSettleEnd (s : State) : Host.Outcome State Fault Refusal :=
  .next (if inPhase s phSETTLE && decide (s.mem.st ≠ .training) && portsSettled s then
      let s1 := poisonIsolated (settleLinks s (upTo 22))
      if s.mem.st = .ready then
        match loadLater s1 s1.boot.later with
        | none => s
        | some r =>
          if r.2 ≠ brOK then slotFail r.1 r.2 else setPhase { r.1 with boot := { r.1.boot with later := [] } } phRUN
      else
        setPhase { s1 with boot := { s1.boot with
          lskip := decide (s.mem.st = .failed) || decide (s1.boot.later ≠ []), later := [] } } phRUN
    else s)

/-! ### RUN (R285, R290) -/

/-- The recorded banks made ACTIVE. -/
def activate (s : State) : List (Nat × Nat × Bool) → State
  | [] => s
  | t :: ts => activate (setDome s t.1 t.2.1 (makeActive (dome s t.1 t.2.1) t.2.2)) ts

/-- The writes of SEED to every PLN_SEED and LNT_SEED. -/
def seedWrites (x : Word) : List BootWrite :=
  allPlinths.flatMap (fun p => [0xF00030000, 0xF00050000].map (fun o =>
    { addr := devAddr 0 p.1.val (o + p.2.val * 0x100 + 4), data := wordLe x }))

/-- The writes of RUN = 1 to SPR_CTL of Spires. -/
def runWrites (l : List (Nat × Nat)) : List BootWrite :=
  l.map (fun p => { addr := devAddr 0 p.1 (0xF000A0000 + p.2 * 0x100), data := wordLe 1 })

/-- KEYHASH with further bits set. -/
def otpOr (old new : List Byte) : List Byte := (upTo 32).map (fun i => old.getD i 0 ||| new.getD i 0)

/-- Provisioning (R285). -/
def doProvision (s : State) : State :=
  if s.boot.provision ∧ !s.otp.kvalid then
    let want := digest32 s.boot.pubkey
    let got := otpOr s.otp.keyhash want
    if got = want then
      { s with otp := { s.otp with keyhash := got, kvalid := true }, boot := { s.boot with isOpen := false } }
    else
      let s1 := { s with otp := { s.otp with keyhash := got } }
      warn s1 (bootSrc s1) 0x0062 0 0 0
  else s

/-- Ports that the image enabled begin to act (14 R345). -/
def startUarts (s : State) : List Nat → State
  | [] => s
  | u :: us => startUarts (if uEn (uart s u) then uartApply s u else s) us

/-- No Vault is being cleared. -/
def vaultsClear (s : State) : Bool := (upTo 4).all (fun d => !(cd s d).vaultClearing)

/-- Steps 3 to 5 of the release: provisioning, NLD_LOCK and BOOT_TIME. -/
def releaseMid (s : State) : State :=
  let s1 := doProvision s
  let b := s1.boot
  { s1 with
    nld := { s1.nld with lock := true },
    boot := { b with
      time := bootMicros s1, causeA := if b.slot then b.causeA else 0, causeB := if b.slot then 0 else b.causeB,
      goodA := !b.slot, goodB := b.slot, started := b.starts, undo := [] } }

/-- The release up to the end of the writes that it waits for. -/
def releaseNext (s : State) : State :=
  let step := fun (t : State) (k : Nat) => { t with boot := { t.boot with rel := k } }
  match s.boot.rel with
  | 0 => if vaultsClear s then bootStart (step (activate s s.boot.recorded) 1) none (seedWrites s.boot.seed) else s
  | 1 => bootStart (step (releaseMid s) 2) none (runWrites s.boot.starts)
  | _ => settleHost (startUarts (setMState (startAllArmed (step s 0)) .run) (upTo 4))

/-- BOOT_RELEASE (R290): once the clearing that follows a failed attempt has ended (R291, 11 R271; DEDUCED, log entry 67), each time the
sequencer goes on with its writes or, with none to wait for, with the next step of the release. A write that an isolated die refuses
is over. -/
def execBootRelease (s : State) : Host.Outcome State Fault Refusal :=
  .next (if inPhase s phRUN then
      let s1 := bootGo { s with boot := { s.boot with wrBad := none } }
      if bootBusy s1 then s1 else releaseNext s1
    else s)

/-! ### The update engine (R295) -/

/-- The command in progress ends with a result: BUSY falls, and its Bell is added to. -/
def updEnd (s : State) (result : Nat) : State :=
  let b := s.boot
  let s1 := { s with boot := { b with
    updBusy := none, updBuf := [], updAsk := false, updBad := false, updResult := BitVec.ofNat 8 result } }
  if b.updBellEn then addNamed s1 4 (Config.updPort.toNat % 65536) b.updBell.toNat 1 .boot else s1

/-- A WRITE that nothing was written by: the slot stays as good as it was. -/
def updAddr (s : State) (slot : Bool) : State := updEnd (setGood s slot s.boot.updGood) brADDR

/-- Bytes written to flash that is not erased leave the slot unspecified. -/
def flashWrite (s : State) (slot : Bool) (o : Nat) (bs : List Byte) : State :=
  if (slotBytes s slot o bs.length).all (fun b => decide (b = flashFill)) then
    { s with flash := memPut flashFill s.flash (slotBase s slot + o) bs }
  else slotLost s slot

def updAgent : Agent := { die := 4, req := updReq, port := Config.updPort }

/-- The bytes at SRC come: all of them, or from another die or chip one request after the other. A SRC on an isolated die or chip ends with
UPD_ADDR like an unoccupied one (DESIGN CHOICE, log entry 39). -/
def updFetch (s : State) (slot : Bool) : State :=
  let b := s.boot
  let have_ := b.updBuf.length
  let need := b.updLen.toNat
  if b.updAsk then s
  else if b.updBad then updAddr s slot
  else if have_ ≥ need then updEnd (flashWrite s slot b.updOfs.toNat b.updBuf) brOK
  else
    let a := b.updSrc.toNat + have_
    match routeOf s updAgent a with
    | .bad st => updAddr (if st = stADDR then addrError s updReq (srcWord s skEngine 4 euUpdate) Config.updPort a else s) slot
    | .far =>
      match sendAsk s { kind := kRD, src := Config.updPort.toNat % 65536, addr := a, len := min 4096 (need - have_) }
          .update with
      | none => updAddr s slot
      | some s1 => { s1 with boot := { s1.boot with updAsk := true } }
    | .here d off =>
      match dieRead s updAgent d off (need - have_) with
      | (.ok bs, s1) => updEnd (flashWrite s1 slot b.updOfs.toNat (b.updBuf ++ bs)) brOK
      | (.err st, s1) => updAddr (if st = stADDR then addrError s1 updReq (srcWord s1 skEngine 4 euUpdate) Config.updPort a else s1) slot
      | (.never, s1) => s1
      | (.wait _, _) => s

/-- Every DOMEW block that a DOMET entry names has the digest that the entry states. -/
def blocksGood (s : State) (slot : Bool) : Bool :=
  let l := imgTable s slot
  let base := ((findSection l kDOMEW 0).map (·.ofs)).getD 0
  (kindOf l kDOMET).all (fun x => (upTo 256).all (fun n =>
    let e := domeEntry s slot x n
    [false, true].all (fun b => decide (entryWb e b = wbNone)
      || decide (digest32 (slotBytes s slot (base + 65536 * entryWb e b) 65536) = entryDig e b))))

/-- CHECK: R283, every section's digest, every weight block. -/
def slotCheck (s : State) (slot : Bool) : Nat :=
  let c := headerCheck s slot
  if c ≠ brOK then c
  else if ((imgTable s slot).filter (fun x => decide (x.kind ≠ kDOMEW))).all (sectionGood s slot) && blocksGood s slot then
    brOK
  else brSECT

/-- The slot erased. -/
def eraseSlot (s : State) (slot : Bool) : State :=
  let lo := slotBase s slot
  { s with flash := memBelow s.flash lo ++ memFrom s.flash (lo + slotSize s) }

/-- UPD_COMMAND_END (R295): the command in progress does its work and ends. -/
def execUpdCommandEnd (s : State) : Host.Outcome State Fault Refusal :=
  .next (match s.boot.updBusy with
    | none => s
    | some (op, slot) =>
      if !updOn s then s
      else if op ≥ 4 then updEnd s brREFUSED
      else if op = 1 then updEnd (eraseSlot s slot) brOK
      else if op = 2 then
        (if s.boot.updOfs.toNat + s.boot.updLen.toNat > slotSize s then updAddr s slot else updFetch s slot)
      else
        let c := slotCheck s slot
        updEnd (if c = brOK then setGood s slot true else s) c)

end Sys2Proof.Machine
end

