-- ==== Sys2Proof/Machine/SpireCode.lean ====
section
/-! DEFINITION. Spire instruction words: their fields, which instruction a word is, and the integer arithmetic
(08 R191, R195, R196, Tables 8-6 and 8-7). -/

namespace Sys2Proof.Machine

/-- The Spire's instructions, 08 Table 8-7. -/
inductive SpOp where
  | add | sub | and | or | xor | sll | srl | sra | slt | sltu | mul | mulh | mulhu | div | divu | rem | remu
  | fadd | fsub | fmul | fdiv | fsqrt | fmin | fmax | feq | flt | fle | fcvtWS | fcvtWuS | fcvtSW | fcvtSWu | fclass
  | fma
  | addi | andi | ori | xori | slli | srli | srai | slti | sltiu | lui
  | lw | lh | lhu | lb | lbu | sw | sh | sb
  | beq | bne | blt | bge | bltu | bgeu
  | call | jalr | enter | leave
  | nop | iflush | rftR | rftN | halt
  | rds | wrs | trap | wspill | wfill
  | qpush | qpop | badd | bwait | waitt
  deriving DecidableEq, Repr

/-! ### Fields (Table 8-6) -/

def iOp (w : Word) : Nat := field w 31 26
def iRd (w : Word) : Nat := field w 25 21
def iRs1 (w : Word) : Nat := field w 20 16
def iRs2 (w : Word) : Nat := field w 15 11
def iRs3 (w : Word) : Nat := field w 10 6
def iFn (w : Word) : Nat := field w 10 0
/-- IMM zero-extended. -/
def iImm (w : Word) : Nat := field w 15 0
/-- IMM or the OFF of a branch, sign-extended. -/
def iSimm (w : Word) : Word := (w.extractLsb' 0 16).signExtend 32
/-- OFF of a CALL, sign-extended. -/
def iJoff (w : Word) : Word := (w.extractLsb' 0 26).signExtend 32
/-- FN bits 0 and 1 of a queue or Bell instruction. -/
def iTry (w : Word) : Bool := bit w 0
def iDl (w : Word) : Bool := bit w 1

/-- Specifiers 24-31 are reserved (R179). -/
def regsOk (l : List Nat) : Bool := l.all (fun r => decide (r < 24))

/-! ### Which instruction a word is -/

def spAlu : List SpOp :=
  [.add, .sub, .and, .or, .xor, .sll, .srl, .sra, .slt, .sltu, .mul, .mulh, .mulhu, .div, .divu, .rem, .remu]

def spFpu : List SpOp :=
  [.fadd, .fsub, .fmul, .fdiv, .fsqrt, .fmin, .fmax, .feq, .flt, .fle, .fcvtWS, .fcvtWuS, .fcvtSW, .fcvtSWu, .fclass]

/-- The forms with one operand, whose RS2 must be 0. -/
def spOneOperand : List SpOp := [.fsqrt, .fcvtWS, .fcvtWuS, .fcvtSW, .fcvtSWu, .fclass]

/-- Format I, opcodes 0x04 to 0x17. -/
def spImm : List (Nat × SpOp) :=
  [(0x04, .addi), (0x05, .andi), (0x06, .ori), (0x07, .xori), (0x08, .slli), (0x09, .srli), (0x0A, .srai), (0x0B, .slti),
    (0x0C, .sltiu), (0x0D, .lui), (0x10, .lw), (0x11, .lh), (0x12, .lhu), (0x13, .lb), (0x14, .lbu), (0x15, .sw),
    (0x16, .sh), (0x17, .sb), (0x1F, .jalr), (0x20, .enter), (0x21, .leave), (0x23, .rds), (0x24, .wrs), (0x25, .trap),
    (0x26, .wspill), (0x27, .wfill)]

def spBranch : List (Nat × SpOp) :=
  [(0x18, .beq), (0x19, .bne), (0x1A, .blt), (0x1B, .bge), (0x1C, .bltu), (0x1D, .bgeu)]

def spSys : List (Nat × SpOp) := [(0x000, .nop), (0x001, .iflush), (0x004, .rftR), (0x005, .rftN), (0x006, .halt)]

def spWaits : List (Nat × SpOp) := [(0x28, .qpush), (0x29, .qpop), (0x2A, .badd), (0x2B, .bwait), (0x2C, .waitt)]

def codeOf (l : List (Nat × SpOp)) (k : Nat) : Option SpOp := (l.find? (fun e => decide (e.1 = k))).map (·.2)

/-- Unused fields of a format I instruction are 0. -/
def immFieldsOk (i : SpOp) (w : Word) : Bool :=
  match i with
  | .slli => decide (iImm w < 32)
  | .srli => decide (iImm w < 32)
  | .srai => decide (iImm w < 32)
  | .lui => decide (iRs1 w = 0)
  | .enter => decide (iRd w = 0) && decide (iRs1 w = 0)
  | .leave => decide (iRd w = 0) && decide (iRs1 w = 0)
  | .rds => decide (iRs1 w = 0) && decide (iImm w < 0x1000)
  | .wrs => decide (iRs1 w = 0) && decide (iImm w < 0x1000)
  | .trap => decide (iRd w = 0) && decide (iRs1 w = 0) && decide (iImm w < 16)
  | .wspill => decide (iRd w = 0) && decide (iImm w = 0)
  | .wfill => decide (iRd w = 0) && decide (iImm w = 0)
  | _ => true

def guardOp (b : Bool) (i : Option SpOp) : Option SpOp := if b then i else none

/-- The instruction that a word is, or none where the word alone raises ILLEGAL (R195, R196, Table 8-3). -/
def spDecode (w : Word) : Option SpOp :=
  let op := iOp w
  let rr := regsOk [iRd w, iRs1 w, iRs2 w]
  if op = 0x01 then guardOp rr spAlu[iFn w]?
  else if op = 0x02 then
    match spFpu[iFn w]? with
    | none => none
    | some i => guardOp (rr && (!decide (i ∈ spOneOperand) || decide (iRs2 w = 0))) (some i)
  else if op = 0x03 then guardOp (rr && regsOk [iRs3 w] && decide (field w 5 0 = 0)) (some .fma)
  else if op = 0x1E then some .call
  else if op = 0x22 then
    guardOp (decide (iRd w = 0) && decide (iRs1 w = 0) && decide (iRs2 w = 0)) (codeOf spSys (iFn w))
  else
    match codeOf spBranch op with
    | some i => guardOp (regsOk [iRd w, iRs1 w]) (some i)
    | none =>
      match codeOf spWaits op with
      | some i => guardOp (rr && decide (iFn w < (if i = .badd then 1 else 4))) (some i)
      | none =>
        match codeOf spImm op with
        | some i => guardOp (regsOk [iRd w, iRs1 w] && immFieldsOk i w) (some i)
        | none => none

/-! ### The words of an instruction (Tables 8-6 and 8-7) -/

/-- The operands of an instruction: register specifiers, the 16-bit immediate or branch offset, the 26-bit offset of a CALL,
and FN bits TRY and DL. An instruction has those that its format names. -/
structure SpArgs where
  rd : BitVec 5 := 0
  rs1 : BitVec 5 := 0
  rs2 : BitVec 5 := 0
  rs3 : BitVec 5 := 0
  imm : BitVec 16 := 0
  off : BitVec 26 := 0
  tryB : Bool := false
  dl : Bool := false
  deriving DecidableEq, Repr

/-- The formats, with the fields that each instruction's own rules leave it: R with two or one operand, without operands,
with TRY and DL or without them; R4; I with all fields, without RS1, with RS1 alone, or with the immediate alone; B; J. -/
inductive SpFmt where
  | r2 | r1 | r0 | rq | rb | r4 | i2 | i1 | ia | ii | b | j
  deriving DecidableEq, Repr

/-- The place of an instruction in a list, as its FN. -/
def placeIn (l : List SpOp) (i : SpOp) : Nat := l.findIdx (fun x => decide (x = i))

/-- The opcode that a list of Table 8-7 gives an instruction. -/
def codeIn (l : List (Nat × SpOp)) (i : SpOp) : Nat := ((l.find? (fun e => decide (e.2 = i))).map (·.1)).getD 0

/-- Format, opcode and FN of an instruction. -/
def spForm (i : SpOp) : SpFmt × Nat × Nat :=
  if i ∈ spAlu then (.r2, 0x01, placeIn spAlu i)
  else if i ∈ spFpu then (if i ∈ spOneOperand then .r1 else .r2, 0x02, placeIn spFpu i)
  else match i with
    | .fma => (.r4, 0x03, 0)
    | .call => (.j, 0x1E, 0)
    | .nop | .iflush | .rftR | .rftN | .halt => (.r0, 0x22, codeIn spSys i)
    | .beq | .bne | .blt | .bge | .bltu | .bgeu => (.b, codeIn spBranch i, 0)
    | .badd => (.rb, 0x2A, 0)
    | .qpush | .qpop | .bwait | .waitt => (.rq, codeIn spWaits i, 0)
    | .lui | .rds | .wrs => (.i1, codeIn spImm i, 0)
    | .enter | .leave | .trap => (.ii, codeIn spImm i, 0)
    | .wspill | .wfill => (.ia, codeIn spImm i, 0)
    | _ => (.i2, codeIn spImm i, 0)

/-- The word of an instruction. -/
def spEncode (i : SpOp) (a : SpArgs) : Word :=
  let f := spForm i
  let top := fun (x y low : Nat) => w32 (f.2.1 * 2 ^ 26 + x * 2 ^ 21 + y * 2 ^ 16 + low)
  match f.1 with
  | .r2 | .rb => top a.rd.toNat a.rs1.toNat (a.rs2.toNat * 2 ^ 11 + f.2.2)
  | .r1 => top a.rd.toNat a.rs1.toNat f.2.2
  | .r0 => top 0 0 f.2.2
  | .rq => top a.rd.toNat a.rs1.toNat (a.rs2.toNat * 2 ^ 11 + b2n a.dl * 2 + b2n a.tryB)
  | .r4 => top a.rd.toNat a.rs1.toNat (a.rs2.toNat * 2 ^ 11 + a.rs3.toNat * 2 ^ 6)
  | .i2 => top a.rd.toNat a.rs1.toNat a.imm.toNat
  | .i1 => top a.rd.toNat 0 a.imm.toNat
  | .ia => top 0 a.rs1.toNat 0
  | .ii => top 0 0 a.imm.toNat
  | .b => top a.rs1.toNat a.rs2.toNat a.imm.toNat
  | .j => w32 (f.2.1 * 2 ^ 26 + a.off.toNat)

/-- Whether an instruction has operands a: its specifiers are below 24, its immediate is in the range that Table 8-7 gives
it, and what its format does not name is 0. -/
def spArgsOk (i : SpOp) (a : SpArgs) : Bool :=
  regsOk [a.rd.toNat, a.rs1.toNat, a.rs2.toNat, a.rs3.toNat]
    && (match (spForm i).1 with
      | .r2 | .rb => decide (a = { rd := a.rd, rs1 := a.rs1, rs2 := a.rs2 })
      | .r1 => decide (a = { rd := a.rd, rs1 := a.rs1 })
      | .r0 => decide (a = {})
      | .rq => decide (a = { rd := a.rd, rs1 := a.rs1, rs2 := a.rs2, tryB := a.tryB, dl := a.dl })
      | .r4 => decide (a = { rd := a.rd, rs1 := a.rs1, rs2 := a.rs2, rs3 := a.rs3 })
      | .i2 => decide (a = { rd := a.rd, rs1 := a.rs1, imm := a.imm })
      | .i1 => decide (a = { rd := a.rd, imm := a.imm })
      | .ia => decide (a = { rs1 := a.rs1 })
      | .ii => decide (a = { imm := a.imm })
      | .b => decide (a = { rs1 := a.rs1, rs2 := a.rs2, imm := a.imm })
      | .j => decide (a = { off := a.off }))
    && (match i with
      | .slli | .srli | .srai => decide (a.imm.toNat < 32)
      | .rds | .wrs => decide (a.imm.toNat < 0x1000)
      | .trap => decide (a.imm.toNat < 16)
      | _ => true)

/-! ### Integer arithmetic (R191) -/

/-- The quotient of a signed division, b not 0: for an inexact one that takes a negative operand R191 does not say which of
the two neighbouring integers it is (log entry 43). -/
def quotS (a b : Word) : Int :=
  let q := a.toInt.tdiv b.toInt
  if a.toInt.tmod b.toInt ≠ 0 ∧ (a.toInt < 0 ∨ b.toInt < 0) ∧ Config.divAway a b then
    (if (a.toInt < 0) = (b.toInt < 0) then q + 1 else q - 1)
  else q

def aluDiv (a b : Word) : Word := if b = 0 then 0xFFFF_FFFF else BitVec.ofInt 32 (quotS a b)
def aluRem (a b : Word) : Word := if b = 0 then a else BitVec.ofInt 32 (a.toInt - quotS a b * b.toInt)
def aluDivu (a b : Word) : Word := if b = 0 then 0xFFFF_FFFF else a / b
def aluRemu (a b : Word) : Word := if b = 0 then a else a % b

def aluMulh (a b : Word) : Word := BitVec.ofInt 32 ((a.toInt * b.toInt) / 2 ^ 32)
def aluMulhu (a b : Word) : Word := w32 (a.toNat * b.toNat / 2 ^ 32)

/-- Shifts use the second operand mod 32. -/
def aluSll (a b : Word) : Word := a <<< (b.toNat % 32)
def aluSrl (a b : Word) : Word := a >>> (b.toNat % 32)
def aluSra (a b : Word) : Word := a.sshiftRight (b.toNat % 32)

def aluSlt (a b : Word) : Word := w32 (b2n (a.slt b))
def aluSltu (a b : Word) : Word := w32 (b2n (a.ult b))

end Sys2Proof.Machine
end

