-- ==== Sys2Proof/Machine/Spire.lean ====
section
/-! DEFINITION. The Spire's instructions, traps and waits (chapter 8), and accesses that wait at a Lantern (06 R158). -/

namespace Sys2Proof.Machine

/-! ### Traps (R184-R186) -/

def tcFETCH : Nat := 0x01
def tcILLEGAL : Nat := 0x02
def tcALIGN : Nat := 0x04
def tcACCESS : Nat := 0x05
def tcSPILL : Nat := 0x08
def tcFILL : Nat := 0x09
def tcTIMER : Nat := 0x0A

/-- A window double fault (hc 3) or nested trap fault (hc 4): the Spire halts and a FATAL record is written, which halts the
machine with SYS_FESC.SPIRE = 1 (R186, 17 R403). -/
def spFault (s : State) (d n : Nat) (hc : BitVec 4) (kind : Nat) : State :=
  let v := spire s d n
  let s1 := setSpire s d n (haltSpire v hc)
  let r := mkRec s1 sevFatal (if s.faults.fesc then 3 else 1) (spireSrc s d n) kind v.pc (xstatWord v) v.xcause
  if s.faults.fesc then haltFault s1 hcSPIRE r else raise s1 r

/-- The Spire's registers after trap entry outside window 7. -/
def trapEntry (c : CDie) (n : Nat) (v : Spire) (code : Nat) (acause : BitVec 4) (xcause : Word) (xwin : BitVec 3) : Spire :=
  { v with
    xpc := v.pc, xcwp := BitVec.ofNat 3 v.cwp, xcode := BitVec.ofNat 8 code, acause := acause, xcause := xcause,
    xwin := xwin, cwp := 7, pc := locWord c n (v.xbase.toNat * 128 + 4 * code) &&& 0xFFFF_FFFC,
    wtraps := if code = tcSPILL ∨ code = tcFILL then satAdd v.wtraps 1 else v.wtraps }

/-- A trap by the instruction at pc (R184). -/
def spTrap (s : State) (d n : Nat) (code : Nat) (acause : BitVec 4) (xcause : Word) : State :=
  let v := spire s d n
  if v.cwp = 7 then spFault s d n 4 0x0031
  else setSpire s d n (trapEntry (cd s d) n v code acause xcause v.xwin)

/-- SPILL or FILL, naming a window; ENTER and LEAVE raise them in a ring window only. -/
def winTrap (s : State) (d n : Nat) (code win : Nat) : State :=
  setSpire s d n (trapEntry (cd s d) n (spire s d n) code 0 (w32 win) (BitVec.ofNat 3 win))

/-! ### Issuing an instruction (R178, R185, R187, R189) -/

/-- The Spire is at an instruction boundary and goes on: RUN, no access and no wait. -/
def spReady (s : State) (d n : Nat) : Bool :=
  decide (s.mstate = .run) && decide ((spire s d n).st = .running) && (spire s d n).mesh.isNone
    && (spire s d n).wait.isNone

/-- TIMER is pending and not held by the trap window. -/
def timerDue (v : Spire) (tb : Time) : Bool := v.ie && decide (v.cwp ≠ 7) && decide (v.tcmp.toNat ≤ tb.toNat)

/-- The word that holds pc: what a fetch may return, the present word or one written over since the last IFLUSH. -/
def fetchable (c : CDie) (n : Nat) (v : Spire) (w : Word) : Bool :=
  let a := v.pc.toNat / 4 * 4
  decide (w = locWord c n a) || decide ((a, w) ∈ v.stale)

/-- Spire n of die d issues the word w, an instruction i, whose effect is k. A pending TIMER is taken first; a pc outside
local memory takes FETCH_FAULT; a word that is no instruction takes ILLEGAL. Nothing happens when the Spire is not at a
boundary, when no fetch can return w, and when w is another instruction. -/
def spIssue (s : State) (d n : Nat) (w : Word) (i : SpOp) (k : State) : State :=
  let v := spire s d n
  if !spReady s d n then s
  else if timerDue v s.tb then spTrap s d n tcTIMER 0 0
  else if v.pc.toNat ≥ locSize then spTrap s d n tcFETCH 0 v.pc
  else if !fetchable (cd s d) n v w then s
  else
    match spDecode w with
    | none => spTrap s d n tcILLEGAL 0 w
    | some j => if j = i then k else s

/-! ### Results -/

/-- The next instruction. -/
def spNext (v : Spire) : Spire := { v with pc := v.pc + 4 }

/-- rd written and the next instruction. -/
def spWrite (s : State) (d n : Nat) (w : Word) (x : Word) : State :=
  setSpire s d n (spNext (spSet (spire s d n) (iRd w) x))

/-- An operation of rs1 and rs2. -/
def spAluOp (f : Word → Word → Word) (i : SpOp) (d : Fin 4) (n : Fin 32) (w : Word) (s : State) : State :=
  let v := spire s d n
  spIssue s d n w i (spWrite s d n w (f (spReg v (iRs1 w)) (spReg v (iRs2 w))))

/-- An operation of rs1 and an immediate. -/
def spImmOp (f : Word → Word → Word) (b : Word) (i : SpOp) (d : Fin 4) (n : Fin 32) (w : Word) (s : State) : State :=
  spIssue s d n w i (spWrite s d n w (f (spReg (spire s d n) (iRs1 w)) b))

/-- A floating result: rd written and the exceptions' flags set (R190). -/
def fpWrite (s : State) (d n : Nat) (w : Word) (r : Nat × Exc) : State :=
  let v := spire s d n
  setSpire s d n (spNext (spSet { v with fflags := v.fflags ||| excFcsr r.2 } (iRd w) (w32 r.1)))

/-- A floating operation of rounding attribute, rs1 and rs2. -/
def spFpOp (f : Nat → Nat → Nat → Nat × Exc) (i : SpOp) (d : Fin 4) (n : Fin 32) (w : Word) (s : State) : State :=
  let v := spire s d n
  spIssue s d n w i
    (fpWrite s d n w (f v.rm.toNat (spReg v (iRs1 w)).toNat (spReg v (iRs2 w)).toNat))

/-- A compare: 1 or 0, NV for a signalling NaN. -/
def fpCompare (f : FFmt → Nat → Nat → Bool) (_ x y : Nat) : Nat × Exc := (b2n (f b32 x y), cmpExc b32 x y)

/-- An integer result of a conversion. -/
def intResult (r : Int × Exc) : Nat × Exc := ((BitVec.ofInt 32 r.1).toNat, r.2)


/-! ### Integer instructions (R191) -/

/-- ADD. -/
def execAdd (d : Fin 4) (n : Fin 32) (w : BitVec 32) (s : State) : Host.Outcome State Fault Refusal :=
  .next (spAluOp (fun a b => a + b) .add d n w s)

/-- SUB. -/
def execSub (d : Fin 4) (n : Fin 32) (w : BitVec 32) (s : State) : Host.Outcome State Fault Refusal :=
  .next (spAluOp (fun a b => a - b) .sub d n w s)

/-- AND. -/
def execAndR (d : Fin 4) (n : Fin 32) (w : BitVec 32) (s : State) : Host.Outcome State Fault Refusal :=
  .next (spAluOp (fun a b => a &&& b) .and d n w s)

/-- OR. -/
def execOrR (d : Fin 4) (n : Fin 32) (w : BitVec 32) (s : State) : Host.Outcome State Fault Refusal :=
  .next (spAluOp (fun a b => a ||| b) .or d n w s)

/-- XOR. -/
def execXorR (d : Fin 4) (n : Fin 32) (w : BitVec 32) (s : State) : Host.Outcome State Fault Refusal :=
  .next (spAluOp (fun a b => a ^^^ b) .xor d n w s)

/-- SLL. -/
def execSll (d : Fin 4) (n : Fin 32) (w : BitVec 32) (s : State) : Host.Outcome State Fault Refusal :=
  .next (spAluOp aluSll .sll d n w s)

/-- SRL. -/
def execSrl (d : Fin 4) (n : Fin 32) (w : BitVec 32) (s : State) : Host.Outcome State Fault Refusal :=
  .next (spAluOp aluSrl .srl d n w s)

/-- SRA. -/
def execSra (d : Fin 4) (n : Fin 32) (w : BitVec 32) (s : State) : Host.Outcome State Fault Refusal :=
  .next (spAluOp aluSra .sra d n w s)

/-- SLT. -/
def execSlt (d : Fin 4) (n : Fin 32) (w : BitVec 32) (s : State) : Host.Outcome State Fault Refusal :=
  .next (spAluOp aluSlt .slt d n w s)

/-- SLTU. -/
def execSltu (d : Fin 4) (n : Fin 32) (w : BitVec 32) (s : State) : Host.Outcome State Fault Refusal :=
  .next (spAluOp aluSltu .sltu d n w s)

/-- MUL. -/
def execMul (d : Fin 4) (n : Fin 32) (w : BitVec 32) (s : State) : Host.Outcome State Fault Refusal :=
  .next (spAluOp (fun a b => a * b) .mul d n w s)

/-- MULH. -/
def execMulh (d : Fin 4) (n : Fin 32) (w : BitVec 32) (s : State) : Host.Outcome State Fault Refusal :=
  .next (spAluOp aluMulh .mulh d n w s)

/-- MULHU. -/
def execMulhu (d : Fin 4) (n : Fin 32) (w : BitVec 32) (s : State) : Host.Outcome State Fault Refusal :=
  .next (spAluOp aluMulhu .mulhu d n w s)

/-- DIV. -/
def execDiv (d : Fin 4) (n : Fin 32) (w : BitVec 32) (s : State) : Host.Outcome State Fault Refusal :=
  .next (spAluOp aluDiv .div d n w s)

/-- DIVU. -/
def execDivu (d : Fin 4) (n : Fin 32) (w : BitVec 32) (s : State) : Host.Outcome State Fault Refusal :=
  .next (spAluOp aluDivu .divu d n w s)

/-- REM. -/
def execRem (d : Fin 4) (n : Fin 32) (w : BitVec 32) (s : State) : Host.Outcome State Fault Refusal :=
  .next (spAluOp aluRem .rem d n w s)

/-- REMU. -/
def execRemu (d : Fin 4) (n : Fin 32) (w : BitVec 32) (s : State) : Host.Outcome State Fault Refusal :=
  .next (spAluOp aluRemu .remu d n w s)

/-! ### Floating instructions (R190) -/

/-- FADD. -/
def execFadd (d : Fin 4) (n : Fin 32) (w : BitVec 32) (s : State) : Host.Outcome State Fault Refusal :=
  .next (spFpOp (fAdd b32) .fadd d n w s)

/-- FSUB. -/
def execFsub (d : Fin 4) (n : Fin 32) (w : BitVec 32) (s : State) : Host.Outcome State Fault Refusal :=
  .next (spFpOp (fSub b32) .fsub d n w s)

/-- FMUL. -/
def execFmul (d : Fin 4) (n : Fin 32) (w : BitVec 32) (s : State) : Host.Outcome State Fault Refusal :=
  .next (spFpOp (fMul b32) .fmul d n w s)

/-- FDIV. -/
def execFdiv (d : Fin 4) (n : Fin 32) (w : BitVec 32) (s : State) : Host.Outcome State Fault Refusal :=
  .next (spFpOp (fDiv b32) .fdiv d n w s)

/-- FSQRT. -/
def execFsqrt (d : Fin 4) (n : Fin 32) (w : BitVec 32) (s : State) : Host.Outcome State Fault Refusal :=
  .next (spFpOp (fun rm x _ => fSqrt b32 rm x) .fsqrt d n w s)

/-- FMIN. -/
def execFmin (d : Fin 4) (n : Fin 32) (w : BitVec 32) (s : State) : Host.Outcome State Fault Refusal :=
  .next (spFpOp (fun _ x y => fMin b32 x y) .fmin d n w s)

/-- FMAX. -/
def execFmax (d : Fin 4) (n : Fin 32) (w : BitVec 32) (s : State) : Host.Outcome State Fault Refusal :=
  .next (spFpOp (fun _ x y => fMax b32 x y) .fmax d n w s)

/-- FEQ. -/
def execFeq (d : Fin 4) (n : Fin 32) (w : BitVec 32) (s : State) : Host.Outcome State Fault Refusal :=
  .next (spFpOp (fpCompare fCeq) .feq d n w s)

/-- FLT. -/
def execFlt (d : Fin 4) (n : Fin 32) (w : BitVec 32) (s : State) : Host.Outcome State Fault Refusal :=
  .next (spFpOp (fpCompare fClt) .flt d n w s)

/-- FLE. -/
def execFle (d : Fin 4) (n : Fin 32) (w : BitVec 32) (s : State) : Host.Outcome State Fault Refusal :=
  .next (spFpOp (fpCompare fCle) .fle d n w s)

/-- FCVT.W.S. -/
def execFcvtWS (d : Fin 4) (n : Fin 32) (w : BitVec 32) (s : State) : Host.Outcome State Fault Refusal :=
  .next (spFpOp (fun rm x _ => intResult (fToInt rm (-(2 ^ 31)) (2 ^ 31 - 1) x)) .fcvtWS d n w s)

/-- FCVT.WU.S. -/
def execFcvtWuS (d : Fin 4) (n : Fin 32) (w : BitVec 32) (s : State) : Host.Outcome State Fault Refusal :=
  .next (spFpOp (fun rm x _ => intResult (fToInt rm 0 (2 ^ 32 - 1) x)) .fcvtWuS d n w s)

/-- FCVT.S.W. -/
def execFcvtSW (d : Fin 4) (n : Fin 32) (w : BitVec 32) (s : State) : Host.Outcome State Fault Refusal :=
  .next (spFpOp (fun rm x _ => intToF b32 rm (signed 32 x)) .fcvtSW d n w s)

/-- FCVT.S.WU. -/
def execFcvtSWu (d : Fin 4) (n : Fin 32) (w : BitVec 32) (s : State) : Host.Outcome State Fault Refusal :=
  .next (spFpOp (fun rm x _ => intToF b32 rm (x : Int)) .fcvtSWu d n w s)

/-- FCLASS: the spec gives no codes (log entry 21). -/
def execFclass (d : Fin 4) (n : Fin 32) (w : BitVec 32) (s : State) : Host.Outcome State Fault Refusal :=
  .next (spFpOp (fun _ x _ => ((Config.fclass (w32 x)).toNat, excNone)) .fclass d n w s)

/-- FMA. -/
def execFma (d : Fin 4) (n : Fin 32) (w : BitVec 32) (s : State) : Host.Outcome State Fault Refusal :=
  let v := spire s d n
  .next (spIssue s d n w .fma (fpWrite s d n w
    (fFma b32 v.rm.toNat (spReg v (iRs1 w)).toNat (spReg v (iRs2 w)).toNat (spReg v (iRs3 w)).toNat)))

/-! ### Immediate instructions (R196) -/

/-- ADDI. -/
def execAddi (d : Fin 4) (n : Fin 32) (w : BitVec 32) (s : State) : Host.Outcome State Fault Refusal :=
  .next (spImmOp (fun a b => a + b) (iSimm w) .addi d n w s)

/-- ANDI. -/
def execAndi (d : Fin 4) (n : Fin 32) (w : BitVec 32) (s : State) : Host.Outcome State Fault Refusal :=
  .next (spImmOp (fun a b => a &&& b) (w32 (iImm w)) .andi d n w s)

/-- ORI. -/
def execOri (d : Fin 4) (n : Fin 32) (w : BitVec 32) (s : State) : Host.Outcome State Fault Refusal :=
  .next (spImmOp (fun a b => a ||| b) (w32 (iImm w)) .ori d n w s)

/-- XORI. -/
def execXori (d : Fin 4) (n : Fin 32) (w : BitVec 32) (s : State) : Host.Outcome State Fault Refusal :=
  .next (spImmOp (fun a b => a ^^^ b) (w32 (iImm w)) .xori d n w s)

/-- SLLI. -/
def execSlli (d : Fin 4) (n : Fin 32) (w : BitVec 32) (s : State) : Host.Outcome State Fault Refusal :=
  .next (spImmOp aluSll (w32 (iImm w)) .slli d n w s)

/-- SRLI. -/
def execSrli (d : Fin 4) (n : Fin 32) (w : BitVec 32) (s : State) : Host.Outcome State Fault Refusal :=
  .next (spImmOp aluSrl (w32 (iImm w)) .srli d n w s)

/-- SRAI. -/
def execSrai (d : Fin 4) (n : Fin 32) (w : BitVec 32) (s : State) : Host.Outcome State Fault Refusal :=
  .next (spImmOp aluSra (w32 (iImm w)) .srai d n w s)

/-- SLTI. -/
def execSlti (d : Fin 4) (n : Fin 32) (w : BitVec 32) (s : State) : Host.Outcome State Fault Refusal :=
  .next (spImmOp aluSlt (iSimm w) .slti d n w s)

/-- SLTIU. -/
def execSltiu (d : Fin 4) (n : Fin 32) (w : BitVec 32) (s : State) : Host.Outcome State Fault Refusal :=
  .next (spImmOp aluSltu (iSimm w) .sltiu d n w s)

/-- LUI. -/
def execLui (d : Fin 4) (n : Fin 32) (w : BitVec 32) (s : State) : Host.Outcome State Fault Refusal :=
  .next (spImmOp (fun _ b => b <<< 16) (w32 (iImm w)) .lui d n w s)

/-! ### Loads and stores (R187, R188, R202) -/

/-- The device address of a Spire address outside local memory, 08 Table 8-4. -/
def spDevice (s : State) (d : Nat) (v : Spire) (a : Nat) : Option Nat :=
  if 0x20000000 ≤ a ∧ a < 0x21800000 then some (devAddr (ownChip s) d (a - 0x20000000))
  else if 0x30000000 ≤ a ∧ a < 0x31000000 then some (devAddr (ownChip s) d (0xF00000000 + (a - 0x30000000)))
  else if 0x80000000 ≤ a then some (v.farseg.toNat * 2 ^ 31 + (a - 0x80000000))
  else none

/-- The bytes that a store writes. -/
def meshBytes (m : MeshAcc) : List Byte := natLe m.size m.value.toNat

/-- The access that Spire n has under way reaches its target: none while a memory cannot be accessed yet. -/
def meshGo (s : State) (d n : Nat) (m : MeshAcc) : Option State :=
  let g := spireAgent d n
  match routeOf s g m.dev.toNat with
  | .bad st => some (meshAnswer s d n st 0)
  | .far =>
    match sendAsk s { kind := if m.isStore then kWR else kRD, src := spirePort n, die := d, addr := m.dev.toNat,
                      len := m.size, payload := if m.isStore then meshBytes m else [] } (.spire d n) with
    | none => some (meshAnswer s d n stISOLATED 0)
    | some s1 => some s1
  | .here k off =>
    match if m.isStore then dieWrite s g k off (meshBytes m) else dieRead s g k off m.size with
    | (.ok bs, s1) => some (meshAnswer s1 d n stOK (leWord bs))
    | (.err st, s1) => some (meshAnswer s1 d n st 0)
    | (.never, s1) => some s1
    | (.wait none, _) => none
    | (.wait (some l), _) =>
      let s1 := setSpire s d n { spire s d n with mesh := some { m with held := true } }
      some (holdAt s1 k l { who := .spire d n })

/-- A load or store of size bytes at address a: at once in local memory, else through the mesh. -/
def spAccess (s : State) (d n : Nat) (isStore sgn : Bool) (size rd : Nat) (a x : Word) : State :=
  let v := spire s d n
  if a.toNat % size ≠ 0 then spTrap s d n tcALIGN 0 a
  else if inLocal a.toNat size then
    if isStore then
      let s1 := putLocal s d n a.toNat (natLe size x.toNat)
      setSpire s1 d n (spNext (spire s1 d n))
    else setSpire s d n (spNext (spSet v rd (loadExt size sgn (leWord (locBytes (cd s d) n a.toNat size)))))
  else
    match spDevice s d v a.toNat with
    | none => spTrap (addrError s (spireReq d n) (spireSrc s d n) (w32 (spirePort n)) a.toNat) d n tcACCESS 0 a
    | some dev =>
      let m : MeshAcc :=
        { rd := rd, isStore := isStore, signed := sgn, size := size, addr := a, dev := BitVec.ofNat 48 dev, value := x,
          held := false, answer := none }
      (meshGo (setSpire s d n { v with mesh := some m }) d n m).getD s

/-- A load. -/
def spLoad (size : Nat) (sgn : Bool) (i : SpOp) (d : Fin 4) (n : Fin 32) (w : Word) (s : State) : State :=
  spIssue s d n w i (spAccess s d n false sgn size (iRd w) (spReg (spire s d n) (iRs1 w) + iSimm w) 0)

/-- A store of the RD register. -/
def spStore (size : Nat) (i : SpOp) (d : Fin 4) (n : Fin 32) (w : Word) (s : State) : State :=
  let v := spire s d n
  spIssue s d n w i (spAccess s d n true false size 0 (spReg v (iRs1 w) + iSimm w) (spReg v (iRd w)))

/-- LW. -/
def execLw (d : Fin 4) (n : Fin 32) (w : BitVec 32) (s : State) : Host.Outcome State Fault Refusal :=
  .next (spLoad 4 false .lw d n w s)

/-- LH. -/
def execLh (d : Fin 4) (n : Fin 32) (w : BitVec 32) (s : State) : Host.Outcome State Fault Refusal :=
  .next (spLoad 2 true .lh d n w s)

/-- LHU. -/
def execLhu (d : Fin 4) (n : Fin 32) (w : BitVec 32) (s : State) : Host.Outcome State Fault Refusal :=
  .next (spLoad 2 false .lhu d n w s)

/-- LB. -/
def execLb (d : Fin 4) (n : Fin 32) (w : BitVec 32) (s : State) : Host.Outcome State Fault Refusal :=
  .next (spLoad 1 true .lb d n w s)

/-- LBU. -/
def execLbu (d : Fin 4) (n : Fin 32) (w : BitVec 32) (s : State) : Host.Outcome State Fault Refusal :=
  .next (spLoad 1 false .lbu d n w s)

/-- SW. -/
def execSw (d : Fin 4) (n : Fin 32) (w : BitVec 32) (s : State) : Host.Outcome State Fault Refusal :=
  .next (spStore 4 .sw d n w s)

/-- SH. -/
def execSh (d : Fin 4) (n : Fin 32) (w : BitVec 32) (s : State) : Host.Outcome State Fault Refusal :=
  .next (spStore 2 .sh d n w s)

/-- SB. -/
def execSb (d : Fin 4) (n : Fin 32) (w : BitVec 32) (s : State) : Host.Outcome State Fault Refusal :=
  .next (spStore 1 .sb d n w s)

/-- After a load or store has ended, a RUN = 0 written meanwhile takes effect. -/
def meshBoundary (s : State) (d n : Nat) (run : Bool) : State :=
  let v := spire s d n
  if !run && decide (v.st = .running) then setSpire s d n (haltSpire v 2) else s

/-- ACAUSE of an error completion (08 R184, 10 R239). -/
def accessCause (st : Nat) : BitVec 4 := if st = stISOLATED then 1 else if st = stRDONLY then 2 else 0

/-- The answered access of Spire n completes: a result, or ACCESS, with a record where R399 asks for one. -/
def meshEnd (s : State) (d n : Nat) (m : MeshAcc) (st : Nat) (x : Word) : State :=
  let v := spire s d n
  if st = stOK then setSpire s d n (meshDone v m x)
  else
    let s1 := setSpire s d n { v with mesh := none }
    spTrap (accessRec s1 d n st m.dev.toNat) d n tcACCESS (accessCause st) m.addr

/-- MESH_ACCESS_COMPLETE (R188): the answer of the access under way is delivered. -/
def execMeshAccessComplete (d : Fin 4) (n : Fin 32) (s : State) : Host.Outcome State Fault Refusal :=
  .next (match (spire s d n).mesh with
    | none => s
    | some m =>
      match m.answer with
      | none => s
      | some (st, x) => meshBoundary (meshEnd s d n m st.toNat x) d n (spire s d n).runBit)

/-! ### Branches and jumps (R195, R196) -/

def spJump (s : State) (d n : Nat) (v : Spire) (pc : Word) : State := setSpire s d n { v with pc := pc }

/-- A branch on a relation of rs1 and rs2, which stand in the RD and RS1 fields of format B. -/
def spBr (f : Word → Word → Bool) (i : SpOp) (d : Fin 4) (n : Fin 32) (w : Word) (s : State) : State :=
  let v := spire s d n
  spIssue s d n w i (spJump s d n v (if f (spReg v (iRd w)) (spReg v (iRs1 w)) then v.pc + 4 * iSimm w else v.pc + 4))

/-- BEQ. -/
def execBeq (d : Fin 4) (n : Fin 32) (w : BitVec 32) (s : State) : Host.Outcome State Fault Refusal :=
  .next (spBr (fun a b => decide (a = b)) .beq d n w s)

/-- BNE. -/
def execBne (d : Fin 4) (n : Fin 32) (w : BitVec 32) (s : State) : Host.Outcome State Fault Refusal :=
  .next (spBr (fun a b => decide (a ≠ b)) .bne d n w s)

/-- BLT. -/
def execBlt (d : Fin 4) (n : Fin 32) (w : BitVec 32) (s : State) : Host.Outcome State Fault Refusal :=
  .next (spBr (fun a b => a.slt b) .blt d n w s)

/-- BGE. -/
def execBge (d : Fin 4) (n : Fin 32) (w : BitVec 32) (s : State) : Host.Outcome State Fault Refusal :=
  .next (spBr (fun a b => !a.slt b) .bge d n w s)

/-- BLTU. -/
def execBltu (d : Fin 4) (n : Fin 32) (w : BitVec 32) (s : State) : Host.Outcome State Fault Refusal :=
  .next (spBr (fun a b => a.ult b) .bltu d n w s)

/-- BGEU. -/
def execBgeu (d : Fin 4) (n : Fin 32) (w : BitVec 32) (s : State) : Host.Outcome State Fault Refusal :=
  .next (spBr (fun a b => !a.ult b) .bgeu d n w s)

/-- CALL: the return address goes to w12, register specifier 20. -/
def execCall (d : Fin 4) (n : Fin 32) (w : BitVec 32) (s : State) : Host.Outcome State Fault Refusal :=
  let v := spire s d n
  .next (spIssue s d n w .call (spJump s d n (spSet v 20 (v.pc + 4)) (v.pc + 4 * iJoff w)))

/-- JALR. -/
def execJalr (d : Fin 4) (n : Fin 32) (w : BitVec 32) (s : State) : Host.Outcome State Fault Refusal :=
  let v := spire s d n
  .next (spIssue s d n w .jalr
    (spJump s d n (spSet v (iRd w) (v.pc + 4)) ((spReg v (iRs1 w) + iSimm w) &&& 0xFFFF_FFFC)))

/-! ### Windows (R180-R183) -/

/-- Register wr of window k. -/
def winReg (v : Spire) (k r : Nat) : Word := tabGet 0 v.regs (8 + 16 * k + r)

def winSet (v : Spire) (k r : Nat) (x : Word) : Spire := { v with regs := tabSet v.regs (8 + 16 * k + r) x }

/-- w8-w11 of window j copied into window k. -/
def passSet (v : Spire) (j k : Nat) : Spire :=
  winSet (winSet (winSet (winSet v k 8 (winReg v j 8)) k 9 (winReg v j 9)) k 10 (winReg v j 10)) k 11 (winReg v j 11)

/-- The oldest live window. -/
def baseWin (v : Spire) : Nat := (v.cwp + 8 - v.live) % 7

/-- ENTER as R182 writes it. -/
def spEnter (s : State) (d n : Nat) (w : Word) : State :=
  let v := spire s d n
  if v.cwp = 7 then spFault s d n 3 0x0030
  else if iImm w % 8 ≠ 0 then spTrap s d n tcILLEGAL 0 w
  else if v.live = 7 then winTrap s d n tcSPILL (baseWin v)
  else
    let k := (v.cwp + 1) % 7
    let v1 := spSet (passSet v v.cwp k) 6 (spReg v 6 - w32 (iImm w))
    setSpire s d n (spNext { v1 with cwp := k, live := v.live + 1 })

/-- LEAVE as R182 writes it. -/
def spLeave (s : State) (d n : Nat) (w : Word) : State :=
  let v := spire s d n
  let k := (v.cwp + 6) % 7
  if v.cwp = 7 then spFault s d n 3 0x0030
  else if iImm w % 8 ≠ 0 then spTrap s d n tcILLEGAL 0 w
  else if v.live = 1 then winTrap s d n tcFILL k
  else
    let v1 := spSet (passSet v v.cwp k) 6 (spReg v 6 + w32 (iImm w))
    setSpire s d n (spNext { v1 with cwp := k, live := v.live - 1 })

/-- ENTER. -/
def execEnter (d : Fin 4) (n : Fin 32) (w : BitVec 32) (s : State) : Host.Outcome State Fault Refusal :=
  .next (spIssue s d n w .enter (spEnter s d n w))

/-- LEAVE. -/
def execLeave (d : Fin 4) (n : Fin 32) (w : BitVec 32) (s : State) : Host.Outcome State Fault Refusal :=
  .next (spIssue s d n w .leave (spLeave s d n w))

/-- What WSPILL and WFILL check before they move a window: ILLEGAL, ALIGN, ACCESS. -/
def moveCheck (v : Spire) (w : Word) (limit : Nat) : Option (Nat × Word) :=
  let a := spReg v (iRs1 w)
  if v.cwp ≠ 7 ∨ v.live = limit ∨ v.xwin = 7 then some (tcILLEGAL, w)
  else if a.toNat % 4 ≠ 0 then some (tcALIGN, a)
  else if !inLocal a.toNat 64 then some (tcACCESS, a)
  else none

/-- Words loaded into w0 up of window k. -/
def winLoad (v : Spire) (k : Nat) : Nat → List Word → Spire
  | _, [] => v
  | r, x :: xs => winLoad (winSet v k r x) k (r + 1) xs

/-- WSPILL. -/
def execWspill (d : Fin 4) (n : Fin 32) (w : BitVec 32) (s : State) : Host.Outcome State Fault Refusal :=
  let v := spire s d n
  .next (spIssue s d n w .wspill (match moveCheck v w 1 with
    | some (code, x) => spTrap s d n code 0 x
    | none =>
      let s1 := putLocal s d n (spReg v (iRs1 w)).toNat (ofWords ((upTo 16).map (winReg v v.xwin.toNat)))
      setSpire s1 d n (spNext { spire s1 d n with live := v.live - 1 })))

/-- WFILL. -/
def execWfill (d : Fin 4) (n : Fin 32) (w : BitVec 32) (s : State) : Host.Outcome State Fault Refusal :=
  let v := spire s d n
  .next (spIssue s d n w .wfill (match moveCheck v w 7 with
    | some (code, x) => spTrap s d n code 0 x
    | none =>
      let ws := toWords 16 (locBytes (cd s d) n (spReg v (iRs1 w)).toNat 64)
      setSpire s d n (spNext { winLoad v v.xwin.toNat 0 ws with live := v.live + 1 })))

/-! ### System instructions (R184, R189, R199, R201) -/

/-- NOP. -/
def execNop (d : Fin 4) (n : Fin 32) (w : BitVec 32) (s : State) : Host.Outcome State Fault Refusal :=
  .next (spIssue s d n w .nop (setSpire s d n (spNext (spire s d n))))

/-- IFLUSH: later fetches see what was written before. -/
def execIflush (d : Fin 4) (n : Fin 32) (w : BitVec 32) (s : State) : Host.Outcome State Fault Refusal :=
  .next (spIssue s d n w .iflush (setSpire s d n (spNext { spire s d n with stale := [] })))

/-- A return from a trap; ILLEGAL outside the trap window. -/
def spRft (s : State) (d n : Nat) (w : Word) (k : Word) : State :=
  let v := spire s d n
  if v.cwp ≠ 7 then spTrap s d n tcILLEGAL 0 w
  else setSpire s d n { v with pc := v.xpc + k, cwp := v.xcwp.toNat }

/-- RFT.R. -/
def execRftR (d : Fin 4) (n : Fin 32) (w : BitVec 32) (s : State) : Host.Outcome State Fault Refusal :=
  .next (spIssue s d n w .rftR (spRft s d n w 0))

/-- RFT.N. -/
def execRftN (d : Fin 4) (n : Fin 32) (w : BitVec 32) (s : State) : Host.Outcome State Fault Refusal :=
  .next (spIssue s d n w .rftN (spRft s d n w 4))

/-- HALT. -/
def execHalt (d : Fin 4) (n : Fin 32) (w : BitVec 32) (s : State) : Host.Outcome State Fault Refusal :=
  .next (spIssue s d n w .halt (setSpire s d n (haltSpire (spNext (spire s d n)) 1)))

/-- TRAP. -/
def execTrap (d : Fin 4) (n : Fin 32) (w : BitVec 32) (s : State) : Host.Outcome State Fault Refusal :=
  .next (spIssue s d n w .trap (spTrap s d n (0x10 + iImm w) 0 0))

/-! ### Special registers (R197, Table 8-8) -/

/-- Special register r read, with what the read changes; none where there is no such register. -/
def spSpecial (s : State) (d : Fin 4) (n : Fin 32) (r : Nat) : RegRead :=
  let v := spire s d n
  match r with
  | 0x000 => rdSame s (w32 (b2n v.ie * 256 + v.live * 16 + v.cwp))
  | 0x001 => rdSame s v.xpc
  | 0x002 => rdSame s (xstatWord v)
  | 0x003 => rdSame s v.xcause
  | 0x004 => rdSame s (w32 v.xwin.toNat)
  | 0x005 => rdSame s (w32 (v.xbase.toNat * 128))
  | 0x006 => rdSame s (w32 (v.rm.toNat * 32 + v.fflags.toNat))
  | 0x008 => rdSame s (w32 v.farseg.toNat)
  | 0x00A => rdSame s (loWord v.tcmp)
  | 0x00B => rdSame s (hiWord v.tcmp)
  | 0x00C => rdSame s (loWord v.dl)
  | 0x00D => rdSame s (hiWord v.dl)
  | 0x010 => some (tbLoRead s (.spire d n) d)
  | 0x011 => rdSame s (shadowWord s (shadowTb (.spire d n)))
  | 0x012 => rdSame s (w32 (ownChip s * 2 ^ 13 + d * 2 ^ 9 + n))
  | _ => none

/-- Special register r written; none where the write is illegal. -/
def spSpecialSet (v : Spire) (r : Nat) (x : Word) : Option Spire :=
  match r with
  | 0x000 => some { v with ie := bit x 8 }
  | 0x001 => some { v with xpc := x }
  | 0x002 => some { v with acause := x.extractLsb' 16 4, xcode := x.extractLsb' 8 8, xcwp := x.extractLsb' 0 3 }
  | 0x003 => some { v with xcause := x }
  | 0x004 => some { v with xwin := x.extractLsb' 0 3 }
  | 0x005 => some { v with xbase := x.extractLsb' 7 9 }
  | 0x006 => if field x 7 5 > 4 then none else some { v with rm := x.extractLsb' 5 3, fflags := x.extractLsb' 0 5 }
  | 0x008 => some { v with farseg := x.extractLsb' 0 17 }
  | 0x00A => some { v with tcmp := joinTime x (hiWord v.tcmp) }
  | 0x00B => some { v with tcmp := joinTime (loWord v.tcmp) x }
  | 0x00C => some { v with dl := joinTime x (hiWord v.dl) }
  | 0x00D => some { v with dl := joinTime (loWord v.dl) x }
  | 0x010 => some v
  | 0x011 => some v
  | 0x012 => some v
  | _ => none

/-- RDS. -/
def execRds (d : Fin 4) (n : Fin 32) (w : BitVec 32) (s : State) : Host.Outcome State Fault Refusal :=
  .next (spIssue s d n w .rds (match spSpecial s d n (iImm w) with
    | none => spTrap s d n tcILLEGAL 0 w
    | some (x, s1) => spWrite s1 d n w x))

/-- WRS. -/
def execWrs (d : Fin 4) (n : Fin 32) (w : BitVec 32) (s : State) : Host.Outcome State Fault Refusal :=
  let v := spire s d n
  .next (spIssue s d n w .wrs (match spSpecialSet v (iImm w) (spReg v (iRd w)) with
    | none => spTrap s d n tcILLEGAL 0 w
    | some v1 => setSpire s d n (spNext v1)))

/-! ### Queues and Bells (R192, R193) -/

/-- The Spire as it waits for an operation of kind k on the name in rs1, and who it is to the target. A BADD only waits to
be taken: the Spire stays RUNNING. -/
def spWaiting (s : State) (d n : Nat) (w : Word) (k : SpWaitKind) (a : Word) : State :=
  let v := spire s d n
  let name := spReg v (iRs1 w)
  setSpire s d n { v with
    st := if k = .badd then .running else .waiting,
    wait := some { kind := k, rd := iRd w, name := name.extractLsb' 0 16, addr := a, target := 0,
                   dl := if iDl w then some v.dl else none, remote := !nameOn s d name.toNat,
                   abandon := 0 } }

def spSender (v : Spire) (d n : Nat) (w : Word) : Sender :=
  { die := d, src := spirePort n, tryB := iTry w, dl := if iDl w then some v.dl else none, who := .spire d n }

/-- What an operation came to: completed at once, or waiting. -/
def spReply (r : Reply) (d n : Nat) : State :=
  match r with
  | (some (st, bs), s) => spireDone s d n st bs
  | (none, s) => s

/-- A payload address that is not a multiple of k takes ALIGN, one outside local memory ACCESS, before anything
else is looked at (DEDUCED, log entry 42). -/
def payloadTrap (s : State) (d n k : Nat) (a : Word) (go : State) : State :=
  if a.toNat % k ≠ 0 then spTrap s d n tcALIGN 0 a
  else if !inLocal a.toNat k then spTrap s d n tcACCESS 0 a
  else go

/-- An operation with a name that has bits above 15 set answers NONAME. -/
def spNamed (s : State) (d n : Nat) (name : Word) (r : Reply) : State :=
  if name.toNat ≥ 2 ^ 16 then spireDone s d n stNONAME [] else spReply r d n

/-- QPUSH: the payload is what the buffer holds at issue, also where the push then waits at a full queue (DEDUCED, log entry 42). -/
def execQpush (d : Fin 4) (n : Fin 32) (w : BitVec 32) (s : State) : Host.Outcome State Fault Refusal :=
  let v := spire s d n
  let name := spReg v (iRs1 w)
  let a := spReg v (iRs2 w)
  let s1 := spWaiting s d n w .qpush a
  .next (spIssue s d n w .qpush (payloadTrap s d n 32 a (spNamed s1 d n name
    (sendQpush s1 (spSender v d n w) name.toNat (hdrSource s skSpire d n) (locBytes (cd s d) n a.toNat 32)))))

/-- QPOP. -/
def execQpop (d : Fin 4) (n : Fin 32) (w : BitVec 32) (s : State) : Host.Outcome State Fault Refusal :=
  let v := spire s d n
  let name := spReg v (iRs1 w)
  let a := spReg v (iRs2 w)
  let s1 := spWaiting s d n w .qpop a
  .next (spIssue s d n w .qpop (payloadTrap s d n 64 a (spNamed s1 d n name
    (sendQpop s1 (spSender v d n w) name.toNat))))

/-- BADD. -/
def execBadd (d : Fin 4) (n : Fin 32) (w : BitVec 32) (s : State) : Host.Outcome State Fault Refusal :=
  let v := spire s d n
  let name := spReg v (iRs1 w)
  let s1 := spWaiting s d n w .badd 0
  .next (spIssue s d n w .badd (spNamed s1 d n name
    (sendBadd s1 (spSender v d n w) name.toNat (spReg v (iRs2 w)))))

/-- BWAIT. -/
def execBwait (d : Fin 4) (n : Fin 32) (w : BitVec 32) (s : State) : Host.Outcome State Fault Refusal :=
  let v := spire s d n
  let name := spReg v (iRs1 w)
  let s1 := spWaiting s d n w .bwait 0
  .next (spIssue s d n w .bwait (spNamed s1 d n name
    (sendBwait s1 (spSender v d n w) name.toNat (spReg v (iRs2 w)))))

/-- WAITT: done when the time base has reached the time in rs2 and rs1; with TRY it never waits. -/
def execWaitt (d : Fin 4) (n : Fin 32) (w : BitVec 32) (s : State) : Host.Outcome State Fault Refusal :=
  let v := spire s d n
  let t := joinTime (spReg v (iRs1 w)) (spReg v (iRs2 w))
  .next (spIssue s d n w .waitt
    (if t.toNat ≤ s.tb.toNat then spWrite s d n w 0
    else if iTry w then spWrite s d n w 2
    else setSpire s d n { v with
      st := .waiting
      wait := some { kind := .waitt, rd := iRd w, name := 0, addr := 0, target := t,
                     dl := if iDl w then some v.dl else none, remote := false, abandon := 0 } }))

/-! ### How waits end (R193, R194) -/

/-- The wait of a Spire that nobody has abandoned. -/
def waitOf (v : Spire) : Option SpWait :=
  match v.wait with
  | some w => if v.st = .waiting ∧ w.abandon = 0 then some w else none
  | none => none

/-- WAITT_REACHED. -/
def execWaittReached (d : Fin 4) (n : Fin 32) (s : State) : Host.Outcome State Fault Refusal :=
  .next (match waitOf (spire s d n) with
    | some w => if w.kind = .waitt ∧ w.target.toNat ≤ s.tb.toNat then spireDone s d n stOK [] else s
    | none => s)

/-- A wait whose condition is met already: the time has come, or the Bell has satisfied it. -/
def waitMet (s : State) (d n : Nat) (w : SpWait) : Bool :=
  if w.kind = .waitt then decide (w.target.toNat ≤ s.tb.toNat)
  else decide (w.kind = .bwait) && (bell s (nameDie w.name.toNat) (w.name.toNat % 256)).waiters.any
    (fun b => decide (b.who = .spire d n) && b.sat)

/-- A push that its queue can take by now is taken. -/
def waitServe (s : State) (w : SpWait) : State :=
  if w.kind = .qpush then admitAll s (nameDie w.name.toNat) (w.name.toNat % 128) else s

/-- DEADLINE_TIMEOUT: OK when the condition is met in the same step, else TIMEOUT. An operation held on another die has
its deadline there (10 R240). -/
def execDeadlineTimeout (d : Fin 4) (n : Fin 32) (s : State) : Host.Outcome State Fault Refusal :=
  .next (match waitOf (spire s d n) with
    | none => s
    | some w =>
      match w.dl with
      | none => s
      | some t =>
        if w.remote ∨ s.tb.toNat < t.toNat then s
        else
          let s1 := waitServe s w
          match waitOf (spire s1 d n) with
          | none => s1
          | some _ =>
            let s2 := withdraw s1 (.spire d n)
            spireDone s2 d n (if waitMet s1 d n w then stOK else stTIMEOUT) [])

/-- TIMER (R185, R194): taken at a boundary, or out of a wait, which is abandoned. -/
def execTimer (d : Fin 4) (n : Fin 32) (s : State) : Host.Outcome State Fault Refusal :=
  let v := spire s d n
  .next (if s.mstate ≠ .run ∨ !timerDue v s.tb then s
    else if spReady s d n then spTrap s d n tcTIMER 0 0
    else match waitOf v with
      | none => s
      | some w =>
        if w.kind = .waitt then spTrap (setSpire s d n { v with wait := none, st := .running }) d n tcTIMER 0 0
        else
          let s1 := cancelOp (setSpire s d n { v with wait := some { w with abandon := 1 } }) (.spire d n)
          if spReady s1 d n then spTrap s1 d n tcTIMER 0 0 else s1)

end Sys2Proof.Machine
end

