-- ==== Sys2Proof/Machine/HostMem.lean ====
section
/-! DEFINITION. The host's requests on memory and registers, and weight update bundles (13 R311, R318), and the return of REFCLK_IN, after
which waiting accesses go on (02 R52). -/

namespace Sys2Proof.Machine

/-! ### RD and WR (R311) -/

/-- Request id of session n waits at its target, behind those that wait there already, or no longer does. -/
def setStall (s : State) (n : Nat) (id : Word) (b : Bool) : State :=
  let v := session s n
  let others := s.host.stallQ.filter (fun x => decide (x ≠ (n, id)))
  setSession { s with host := { s.host with stallQ := if b then others ++ [(n, id)] else others } } n
    { v with outst := v.outst.map (fun o => if o.reqid = id then { o with stalled := b } else o) }

/-- The request that a read or write frame makes: performed on H, sent over the links to another die or chip, or held while the
LPDDR makes it wait (R312; 11 R272). -/
def hostMem (s : State) (f : Frame) : State :=
  let n := frSess f
  let id := frReqid f
  let a := frAddr f
  let store := decide (frKind f = hWR)
  match routeOf s hostAgent a with
  | .bad st => hostComplete s n id st []
  | .far =>
    hostDone n id (askOut s { kind := if store then kWR else kRD, src := 0x401, addr := a, len := frLen f,
                              payload := if store then f.data else [] } (.host n id))
  | .here d off =>
    match if store then dieWrite s hostAgent d off f.data else dieRead s hostAgent d off (frLen f) with
    | (.ok bs, s1) => hostComplete s1 n id stOK bs
    | (.err st, s1) => hostComplete s1 n id st []
    | (.never, s1) => s1
    | (.wait _, _) => setStall s n id true

/-- A request that waited is tried again. -/
def hostRetry (s : State) (n : Nat) (id : Word) : State :=
  match (session s n).outst.find? (fun o => decide (o.reqid = id) && o.stalled) with
  | some o => hostMem (setStall s n id false) o.f
  | none => s

/-- REFCLK_RETURN (02 R52): the time base goes on from the value it held, and the LPDDR controller performs the accesses that have
waited, in the order in which they reached it (11 R260). -/
def execRefclkReturn (s : State) : Host.Outcome State Fault Refusal :=
  let s1 := { s with refclk := true, f := { s.f with
    wdLoose := s.f.wdLoose || !s.refclk, diLoose := if s.refclk then s.f.diLoose else 0xFF } }
  .next (s.host.stallQ.foldl (fun t x => hostRetry t x.1 x.2) s1)

/-- A row of the memory requests. -/
def memRow (s : State) (kind : Nat) : State := hostRow s kind (fun t e => takeRequest t e (fun u => hostMem u e.f))

/-- HOST_RD. -/
def execHostRd (s : State) : Host.Outcome State Fault Refusal := .next (memRow s hRD)

/-- HOST_WR. -/
def execHostWr (s : State) : Host.Outcome State Fault Refusal := .next (memRow s hWR)

/-! ### Weight update bundles (R318, Table 13-8) -/

def wuWord (buf : List Byte) (o : Nat) : Word := leWord ((buf.drop o).take 4)
def wuBlocks (buf : List Byte) : Nat := (wuWord buf 8).toNat
def wuHead (n : Nat) : Nat := 0x80 + 64 * n
def wuTotal (n : Nat) : Nat := wuHead n + 65536 * n

def allZero (bs : List Byte) : Bool := bs.all (fun b => decide (b = 0))

/-- Step 1 on the header: MAGIC, NBLK, the reserved bytes, and the bundle inside its region. -/
def wuHeadOk (a : Nat) (buf : List Byte) : Bool :=
  decide (wuWord buf 0 = 0x47575031) && decide (1 ≤ wuBlocks buf) && decide (wuBlocks buf ≤ 1024)
    && allZero ((buf.drop 0x0C).take 52)
    && decide (wuTotal (wuBlocks buf) ≤ (regionRest (addrDie a) (addrOff a)).getD 0)

def wuEntry (buf : List Byte) (i : Nat) : List Byte := (buf.drop (0x80 + 64 * i)).take 64

/-- The reserved bytes of the entries. -/
def wuEntriesOk (buf : List Byte) : Bool := (upTo (wuBlocks buf)).all (fun i => allZero (((wuEntry buf i).drop 4).take 28))

/-- Step 2. -/
def wuSigned (s : State) (buf : List Byte) : Bool :=
  edVerify s.boot.pubkey (sha512 (buf.take 0x40 ++ (buf.drop 0x80).take (64 * wuBlocks buf))) ((buf.drop 0x40).take 64)

/-- Step 4. -/
def wuDigests (buf : List Byte) : Bool :=
  (upTo (wuBlocks buf)).all (fun i =>
    decide (digest32 ((buf.drop (wuHead (wuBlocks buf) + 65536 * i)).take 65536) = (wuEntry buf i).drop 32))

/-- What the bytes read so far tell: a status once the checks have ended, else how many bytes the next check needs. -/
def wuCheck (s : State) (a : Nat) (buf : List Byte) : Nat × Option Nat :=
  let n := wuBlocks buf
  if buf.length < 0x80 then
    (0x80, if (regionRest (addrDie a) (addrOff a)).getD 0 < 0x80 then some hsBADFRAME else none)
  else if !wuHeadOk a buf then (0, some hsBADFRAME)
  else if buf.length < wuHead n then (wuHead n, none)
  else if buf.length < wuTotal n then
    (wuTotal n,
      if buf.length > wuHead n then none
      else if !wuEntriesOk buf then some hsBADFRAME
      else if !wuSigned s buf then some hsSIG
      else if (wuWord buf 4).toNat ≤ s.host.wupdLast.toNat then some hsREPLAY
      else none)
  else (0, some (if wuDigests buf then stOK else hsDIGEST))

/-- The bundle has passed: SEQNO is kept and the hand-over pushed over the link, whose taking completes the request. A hardware push
waits while the queue is full or DISABLED (09 R219). -/
def wuPush (s : State) (n : Nat) (f : Frame) : State :=
  let buf := s.host.wupdBuf
  let s1 := { s with host := { s.host with wupdLast := wuWord buf 4 } }
  let body : List Word := [0x30000000 + w32 (wuBlocks buf), w32 (frAddr f), w32 (frAddr f / 2 ^ 32), wuWord buf 4,
    frReqid f, w32 n, 0, 0]
  let q := s.host.wupdQ
  let d := field q 10 9
  if !bit q 31 then wuEnd s1 n (frReqid f) stNONAME
  else if !diesJoined s 4 d then wuEnd s1 n (frReqid f) stISOLATED
  else match sendAsk s1 { kind := kQPUSH, src := 0x401, addr := queueAddr (ownName s d (field q 6 0)), len := 32,
                          payload := ofWords body } (.wupd n (frReqid f)) with
    | some s2 => { s2 with host := { s2.host with wupdAsk := true, wupdPush := true } }
    | none => wuEnd s1 n (frReqid f) stISOLATED

/-- Bytes of the bundle read, up to `need` of them. -/
def wuRead (s : State) (n : Nat) (f : Frame) (need : Nat) : State × Bool :=
  let have_ := s.host.wupdBuf.length
  let a := frAddr f + have_
  match routeOf s hostAgent a with
  | .bad st => (wuEnd s n (frReqid f) st, true)
  | .far =>
    match sendAsk s { kind := kRD, src := 0x401, addr := a, len := min 4096 (need - have_) } (.wupd n (frReqid f)) with
    | none => (wuEnd s n (frReqid f) stISOLATED, true)
    | some s1 => ({ s1 with host := { s1.host with wupdAsk := true } }, false)
  | .here d off =>
    match dieRead s hostAgent d off (need - have_) with
    | (.ok bs, s1) => ({ s1 with host := { s1.host with wupdBuf := s1.host.wupdBuf ++ bs } }, true)
    | (.err st, s1) => (wuEnd s1 n (frReqid f) st, true)
    | (_, s1) => (s1, false)

/-- The engine on its WUPD requests, as far as it gets. -/
def wuGo : Nat → State → State
  | 0, s => s
  | k + 1, s =>
    match s.host.wupds with
    | [] => s
    | (n, id) :: rest =>
      match (session s n).outst.find? (fun o => decide (o.reqid = id)) with
      | none =>
        wuGo k { s with host := { s.host with
          wupds := rest, wupdBuf := [], wupdAsk := false, wupdBad := none, wupdPush := false } }
      | some o =>
        if s.mstate ≠ .run ∨ s.host.wupdAsk then s
        else if o.cancel = 1 then wuGo k (wuEnd s n id stCANCELLED)
        else match s.host.wupdBad with
          | some st => wuGo k (wuEnd s n id st.toNat)
          | none =>
            match wuCheck s (frAddr o.f) s.host.wupdBuf with
            | (_, some st) => wuGo k (if st = stOK then wuPush s n o.f else wuEnd s n id st)
            | (need, none) =>
              let r := wuRead s n o.f need
              if r.2 then wuGo k r.1 else r.1

/-- WUPD (R318): the next WUPD frame waits for the engine, which runs the oldest. -/
def execWupd (s : State) : Host.Outcome State Fault Refusal :=
  let s1 := hostRow s hWUPD (fun t e => takeRequest t e (fun u =>
    { u with host := { u.host with wupds := u.host.wupds ++ [(frSess e.f, frReqid e.f)] } }))
  .next (wuGo (8 * (s1.host.wupds.length + 1)) s1)

end Sys2Proof.Machine
end

