-- ==== Sys2Proof/Machine/Mover.lean ====
section
/-! DEFINITION. The movers and their COPY (11 R264-R268). -/

namespace Sys2Proof.Machine

/-! ### Fields (Table 11-7) -/

structure CopyCmd where
  src : Nat
  dst : Nat
  rows : Nat
  len : Nat
  sstride : Nat
  dstride : Nat
  deriving DecidableEq, Repr

def copyFields (u : UnitCmd) : CopyCmd :=
  let w := fun i => wordAt u.w i
  { src := (w 1).toNat + 2 ^ 32 * field (w 2) 15 0, dst := (w 3).toNat + 2 ^ 32 * field (w 4) 15 0,
    rows := field (w 5) 27 16 + 1, len := field (w 5) 11 0 + 1, sstride := field (w 6) 31 16 * 64,
    dstride := field (w 6) 15 0 * 64 }

/-- Device addresses have 48 bits; a row past their end wraps modulo 2^48 (DESIGN CHOICE, log entry 41). -/
def rowSrc (c : CopyCmd) (r : Nat) : Nat := (c.src + r * c.sstride) % 2 ^ 48
def rowDst (c : CopyCmd) (r : Nat) : Nat := (c.dst + r * c.dstride) % 2 ^ 48

/-- A row of a bad length: it runs past the end of the region that holds its start. -/
def rowLong (a n : Nat) : Bool :=
  match regionRest (addrDie a) (addrOff a) with
  | some k => decide (n > k)
  | none => false

/-- The command keeps R268. -/
def copyOk (u : UnitCmd) (c : CopyCmd) : Bool :=
  decide (cmdOpc u = 1) && masksOk [0xF000_0000, mAll, 0xFFFF, mAll, 0xFFFF, 0x0FFF_0FFF, mAll, mAll] u.w
    && (decide (c.rows = 1) || (decide (c.src % 64 = 0) && decide (c.dst % 64 = 0)))
    && (upTo c.rows).all (fun r => !rowLong (rowSrc c r) c.len && !rowLong (rowDst c r) c.len)

/-! ### The check before the move (R265) -/

/-- What a row of n bytes within region r of a die of this package would come to. -/
def spotCheck (s : State) (g : Agent) (d : Nat) (r : Region) (o n : Nat) (wr : Bool) : Nat :=
  match r with
  | .hbuf => stADDR
  | .dome => if wr then stRDONLY else stOK
  | .lpddr => if o + n > lpSize s.mem then stADDR else stOK
  | .bell => if o % 4 = 0 ∧ n % 4 = 0 ∧ wordsThere (fun t x => bellRead t d x) s o (n / 4) then stOK else stADDR
  | .queue => if o % 4 = 0 ∧ n % 4 = 0 ∧ wordsThere (fun t x => queRead t d x) s o (n / 4) then stOK else stADDR
  | .regs =>
    if decide (d < 4) && insidePmem o n then stOK
    else if o % 4 = 0 ∧ n % 4 = 0 ∧ wordsThere (fun t x => regRead t g.req d x) s o (n / 4) then stOK else stADDR
  | _ => stOK

/-- What the check of one row says. -/
def rowCheck (s : State) (g : Agent) (a n : Nat) (wr : Bool) : Nat :=
  match placeOf s g a with
  | .bad st => st
  | .far =>
    match regionOf (addrDie a) (addrOff a) with
    | some (.dome, _, _) => if wr then stRDONLY else stOK
    | some (.hbuf, _, _) => stADDR
    | some _ => stOK
    | none => stADDR
  | .here d off =>
    if d > 5 then stADDR
    else if !dieAnswers s g d then stISOLATED
    else match regionOf d off with
      | none => stADDR
      | some (r, lo, _) => spotCheck s g d r (off - lo) n wr

/-- The statuses of every row, sources and destinations, with their addresses. -/
def copyChecks (s : State) (g : Agent) (c : CopyCmd) : List (Nat × Nat) :=
  (upTo c.rows).flatMap (fun r =>
    [(rowCheck s g (rowSrc c r) c.len false, rowSrc c r), (rowCheck s g (rowDst c r) c.len true, rowDst c r)])

/-! ### Moving -/

def spansMeet (a b n : Nat) : Bool := decide (a < b + n) && decide (b < a + n)

/-- Source and destination overlap (R266). -/
def copyOverlaps (c : CopyCmd) : Bool :=
  (upTo c.rows).any (fun i => (upTo c.rows).any (fun j => spansMeet (rowSrc c i) (rowDst c j) c.len))

/-- Accumulator words put in place, without the effects of a store. -/
def plPlace (s : State) (d : Nat) : List (Nat × Word) → State
  | [] => s
  | e :: es =>
    let p := plinth s d (e.1 / 0x40000)
    let i := e.1 % 0x40000 / 8
    let a := acc p i
    plPlace (setPlinth s d (e.1 / 0x40000) { p with
      acc := tabSet p.acc i (if e.1 % 8 < 4 then { a with sum := e.2 } else { a with err := e.2 }) }) d es

/-- Bytes that an area of a memory comes to hold though no access put them there: nothing is counted, checked or recorded.
Registers keep their values (DESIGN CHOICE, log entry 75). -/
def placeArea (s : State) (d : Nat) (r : Region) (o : Nat) (bs : List Byte) : State :=
  match r with
  | .vault => setCd s d { cd s d with vault := memPut 0 (cd s d).vault o bs }
  | .plinth => plPlace s d (wordCover (plWordAt s d) o bs)
  | .tile => tileStores s d (wordCover (tileWordAt s d) o bs)
  | .spire => spireStores s d o bs
  | .regs => if decide (d < 4) && insidePmem o bs.length then pmemPut s d (o - 0x60000) bs else s
  | .lpddr => { s with mem := { s.mem with lpddr := lpPut s.mem.lpddr o bs } }
  | .dome => s
  | .bell => s
  | .queue => s
  | .hbuf => s

/-- A row of a destination of which nothing is promised: unspecified bytes in its memory, on an isolated die too (R265). -/
def loseRow (s : State) (c : CopyCmd) (r : Nat) : State :=
  let a := rowDst c r
  if addrChip a = ownChip s then
    match regionOf (addrDie a) (addrOff a) with
    | some (g, lo, _) =>
      let (bs, s1) := drawBytes s c.len
      placeArea s1 (addrDie a) g (addrOff a - lo) bs
    | none => s
  else s

def loseRows (s : State) (c : CopyCmd) : List Nat → State
  | [] => s
  | r :: rs => loseRows (loseRow s c r) c rs

/-- An address error or a store to a read-only target by a mover is recorded (17 R399). -/
def moverErr (s : State) (m : Fin 8) (a st : Nat) : State :=
  if st = stADDR ∨ st = stRDONLY then addrError s (moverReq m) (srcWord s skEngine 4 m) (Config.moverPort m) a else s

/-- The move ends with an error at row r, met at address a: the rows before it stay written, the others are unspecified. -/
def copyFails (s : State) (m : Fin 8) (c : CopyCmd) (r a st : Nat) : State :=
  moverFail (moverErr (loseRows s c (countFrom r (c.rows - r))) m a st) m st

def setRun (s : State) (m : Fin 8) (r : CopyRun) : State := setMover s m { mover s m with run := some r }

/-- Row r read: its bytes held, or a request under way to another die (R265), or none where the move stops here. -/
def copyReads (s : State) (m : Fin 8) (c : CopyCmd) (r : CopyRun) : Option State × State :=
  let g := moverAgent m
  let a := rowSrc c r.row
  match routeOf s g a with
  | .bad st => (none, copyFails s m c r.row a st)
  | .far =>
    match sendAsk s { kind := kRD, src := moverSrcPort m, addr := a, len := c.len } (.unit (.mover m)) with
    | some s1 => (none, setRun s1 m { r with phase := 1 })
    | none => (none, copyFails s m c r.row a stISOLATED)
  | .here d off =>
    match dieRead s g d off c.len with
    | (.ok bs, s1) => (some (setRun s1 m { r with buf := some bs }), s1)
    | (.err st, s1) => (none, copyFails s1 m c r.row a st)
    | (_, s1) => (none, s1)

/-- The bytes of row r written; those of an overlapping COPY are unspecified. -/
def copyWrites (s : State) (m : Fin 8) (c : CopyCmd) (r : CopyRun) (bs0 : List Byte) : Option State × State :=
  let g := moverAgent m
  let a := rowDst c r.row
  let (bs, s) := if copyOverlaps c then drawBytes s bs0.length else (bs0, s)
  match routeOf s g a with
  | .bad st => (none, copyFails s m c r.row a st)
  | .far =>
    match sendAsk s { kind := kWR, src := moverSrcPort m, addr := a, len := c.len, payload := bs }
        (.unit (.mover m)) with
    | some s1 => (none, setRun s1 m { r with phase := 2 })
    | none => (none, copyFails s m c r.row a stISOLATED)
  | .here d off =>
    match dieWrite s g d off bs with
    | (.ok _, s1) => (some (setRun s1 m { row := r.row + 1, phase := 0, buf := none }), s1)
    | (.err st, s1) => (none, copyFails s1 m c r.row a st)
    | (_, s1) => (none, s1)

/-- The move goes on as far as it can: to its end, an error, a request to another die or chip, or a target that makes it wait. -/
def copyGo : Nat → State → Fin 8 → CopyCmd → State
  | 0, s, _, _ => s
  | k + 1, s, m, c =>
    match (mover s m).run with
    | none => s
    | some r =>
      if r.bad ≠ 0 then copyFails s m c r.row (if r.phase = 1 then rowSrc c r.row else rowDst c r.row) r.bad
      else if r.phase ≠ 0 then s
      else if r.row ≥ c.rows then finishCmd (setMover s m { mover s m with run := none }) (.mover m) 0 0 0
      else
        let t := match r.buf with
          | none => copyReads s m c r
          | some bs => copyWrites s m c r bs
        match t with
        | (some s1, _) => copyGo k s1 m c
        | (none, s1) => s1

/-- Steps that are enough for a whole COPY: a read and a write for each row, and the end. -/
def copyFuel (c : CopyCmd) : Nat := 2 * c.rows + 1

/-- A mover that got an answer goes on. -/
def moverGo (s : State) (m : Fin 8) : State :=
  match (mover s m).cmd with
  | some u => copyGo (copyFuel (copyFields u)) s m (copyFields u)
  | none => s

/-- The check passes, or the COPY ends with what it found (R265). -/
def copyStart (s : State) (m : Fin 8) (c : CopyCmd) : State :=
  let es := copyChecks s (moverAgent m) c
  if es.any (fun e => decide (e.1 = stISOLATED)) then finishCmd s (.mover m) 0x15 0 0
  else match es.find? (fun e => decide (e.1 ≠ stOK)) with
    | some e => finishCmd (moverErr s m e.2 e.1) (.mover m) 0x14 0 0
    | none => copyGo (copyFuel c) (setRun s m { row := 0, phase := 0, buf := none }) m c

/-- COPY (R265, R268): the mover's command starts, or goes on where it had to wait. -/
def execMoverCopy (m : Fin 8) (s : State) : Host.Outcome State Fault Refusal :=
  .next (match (mover s m).cmd with
    | none => s
    | some u =>
      let c := copyFields u
      if s.mstate ≠ .run then s
      else if (mover s m).run.isSome then moverGo s m
      else if copyOk u c then copyStart s m c
      else finishCmd s (.mover m) 1 0 0)

end Sys2Proof.Machine
end

