-- ==== Sys2Proof/Machine/Naldy.lean ====
section
/-! DEFINITION. Transactions that have arrived at a link endpoint: taking them once, performing or relaying them, holding
and cancelling, responses and isolation notices (10 R231, R235-R241, R245), and the accesses that wait at a Lantern (06 R158). -/

namespace Sys2Proof.Machine

/-! ### The replay window (R238) -/

/-- An entry added, the oldest of its channel dropped beyond 64. -/
def winAdd (l : List WinEntry) (ch : Nat) (tid : BitVec 16) : List WinEntry :=
  let full := (l.filter (fun w => decide (w.ch = ch))).length ≥ 64
  let l1 := if full then l.eraseP (fun w => decide (w.ch = ch)) else l
  l1 ++ [⟨ch, tid, none, 0⟩]

/-- A duplicate: answered with the recorded response, or with the original's when there is one. -/
def answerDup (s : State) (e p : Nat) (w : WinEntry) : State :=
  let s0 := setEndp s e { endp s e with dup := satAdd (endp s e).dup 1 }
  match w.resp with
  | some r =>
    match replyEp s0 e with
    | some o => sendTxn s0 o r
    | none => s0
  | none =>
    setParty s0 p { party s0 p with window := (party s0 p).window.map (fun x =>
      if x.ch = w.ch ∧ x.tid = w.tid then { x with dups := x.dups + 1 } else x) }

/-! ### Who sent it -/

def txnChip (t : Txn) : Nat := srcChip (wordAt t.hdr 1)
def txnDie (t : Txn) : Nat := srcDie (wordAt t.hdr 1)

/-- The mover behind a port of H (log entry 22). -/
def portMover (port : Nat) : Option Nat :=
  if port = 0x400 ∨ port = 0x401 then none else (upTo 8).find? (fun m => decide (moverSrcPort m = port))

/-- Word 0 of the entry header of a push that came over a link: what a mover pushes is a completion record (Table 9-1). -/
def txnHeader (t : Txn) : Word := if txnDie t = 4 ∧ (portMover (txnSrcPort t)).isSome then hdrRecord else hdrPush

/-- Source kind and unit of a mesh port, 09 Table 9-6. -/
def portSource (die port : Nat) : Nat × Nat :=
  if die ≥ 4 then (skEngine, if port = 0x401 then euHost else (portMover port).getD euBoot)
  else if port < 8 then (skTower, port)
  else if port < 0x40 then (skPlinth, port - 0x20)
  else if port < 0x60 then (skSpire, port - 0x40)
  else if port < 0x100 then (skLantern, port - 0x60)
  else if port < 0x200 then (skFront, port - 0x100)
  else (skDome, port - 0x200)

/-- Word 1 of the entry header of a push that came over a link. -/
def txnSource (t : Txn) : Word :=
  let k := portSource (txnDie t) (txnSrcPort t)
  w32 (k.1 * 2 ^ 16 + txnChip t * 2 ^ 13 + txnDie t * 2 ^ 9 + k.2)

/-! ### Relaying (R230, R231) -/

/-- A transaction as it is forwarded by endpoint e: without its TID, since it takes one of the next hop's sequence as it leaves, and on
an external port with one hop more. -/
def relayTxn (t : Txn) (e : Nat) : Txn :=
  let h := listSet t.hdr 0 (wordAt t.hdr 0 &&& 0xFFFF_0000)
  { t with hdr := listSet h 4 (wordAt t.hdr 4 + w32 (b2n (isExt e) * 2 ^ 29)) }

/-- Why a request that has come to die `die` cannot be sent on: its chip is absent or the hops are spent, or its chip or die is
isolated. -/
def relayStop (s : State) (t : Txn) : Option Nat :=
  let c := addrChip (txnAddr t)
  if c = ownChip s then (if dieIsolated s (addrDie (txnAddr t)) then some stISOLATED else none)
  else if txnHops t ≥ 7 ∨ !chipPresent s c then some stADDR
  else if chipIsolated s c then some stISOLATED
  else none

/-- A request for another die or chip sent on from die `die`, or why it is not. -/
def relayTo (s : State) (die : Nat) (t : Txn) (who : Origin) : Except Nat State :=
  match relayStop s t, nextEp s die (txnSrcPort t) (txnAddr t) with
  | some st, _ => .error st
  | none, none => .error stISOLATED
  | none, some e =>
    match partyOf s e with
    | none => .error stISOLATED
    | some p => .ok (sendAs s e p who (relayTxn t e))

/-! ### Performing -/

/-- What a request comes to: it is performed or held, or its row changes nothing yet. -/
abbrev Act := Option State

def rspTo (s : State) (e : Nat) (t : Txn) (st : Nat) (data : List Byte) : State :=
  respond s e (txnTid t) (wordAt t.hdr 1) (txnAddr t) (kindVc (txnKind t)) st data

/-- Who an operation that a request brought belongs to. -/
def txnWho (e : Nat) (t : Txn) : Origin := .remote e (kindVc (txnKind t)) (txnTid t) (wordAt t.hdr 1) (txnAddr t)

/-- An access by the request's own agent; one that meets a RUN in a Lantern waits there (06 R158). -/
def txnAccess (a : Access) (e : Nat) (t : Txn) : Act :=
  match a with
  | (.ok bs, s) => some (rspTo s e t stOK bs)
  | (.err st, s) => some (rspTo s e t st [])
  | (.never, s) => some s
  | (.wait (some l), s) => some (holdAt s (addrDie (txnAddr t)) l { who := txnWho e t, txn := some (e, t) })
  | (.wait none, _) => none

/-- An operation on a Bell or a queue: its reply sent, or held with its deadline. -/
def txnReply (r : Reply) (e : Nat) (t : Txn) (who : Origin) : State :=
  match r with
  | (some (st, bs), s) => rspTo s e t st bs
  | (none, s) =>
    if txnDl t then { s with nld := { s.nld with holds := s.nld.holds ++ [(who, txnDeadline t)] } } else s

/-- A chain row: OK once it lies in a receive buffer; none while no buffer is free (R241). -/
def chnGo (s : State) (e : Nat) (t : Txn) : Act :=
  match plinthAt (txnAddr t) with
  | none => some (rspTo s e t stADDR [])
  | some (d, n) =>
    let cols := field (wordAt t.hdr 6) 5 0 + 1
    if h : d < 4 then
      (chainTake s d n (8 + e) (txnChid t) (field (txnOperand t) 13 8 + 1) cols (txnRow t)
        (chnRow cols (txnBytes t))).map (fun s1 => chainPump 8 (rspTo s1 e t stOK []) ⟨d, h⟩ n)
    else none

/-- A request whose target lies on the die that it has come to. -/
def txnHere (s : State) (e : Nat) (t : Txn) : Act :=
  let k := txnKind t
  let a := txnAddr t
  let die := addrDie a
  let who := txnWho e t
  let g := remoteAgent s e t
  let named (at_ : State → Nat → Option Nat) (op : Nat → Reply) : Act :=
    some (match at_ s a with
      | none => rspTo s e t stADDR []
      | some w => txnReply (op w) e t who)
  if k = kRD then txnAccess (dieRead s g die (addrOff a) (txnLen t)) e t
  else if k = kWR then txnAccess (dieWrite s g die (addrOff a) (txnBytes t)) e t
  else if k = kBADD then named bellAt (fun w => localBadd s die (w % 256) (txnOperand t))
  else if k = kBWAIT then named bellAt (fun w => localBwait s die (w % 256) (txnOperand t) (txnTry t) who)
  else if k = kQPUSH then named queueAt (fun w =>
    localQpush s die (w % 128) ⟨who, txnHeader t, txnSource t, toWords 8 (ofWords (t.hdr.drop 8))⟩ (txnTry t))
  else if k = kQPOP then named queueAt (fun w => localQpop s die (w % 128) (txnTry t) who)
  else if k = kCHN then chnGo s e t
  else some (match plinthAt a with
    | none => rspTo s e t stADDR []
    | some (d, n) => rspTo (setPlinth s d n (chainNotice (plinth s d n) (txnChid t))) e t stOK [])

/-! ### Accesses that wait at a Lantern (06 R158) -/

/-- An access that has waited proceeds. -/
def heldGo (s : State) (h : HeldAccess) : State :=
  match h.reg, h.txn, h.who with
  | some (a, addr, v), _, _ => registerLate s a addr v
  | none, some (e, t), _ => (txnHere s e t).getD s
  | none, none, .spire k i =>
    match (spire s k i).mesh with
    | some m => if m.held then (meshGo s k i { m with held := false }).getD s else s
    | none => s
  | _, _, _ => s

/-- The number of the input by which an access reaches a Lantern of die d: a Spire of the die, a link, or an engine of H. -/
def heldInput (d : Nat) (h : HeldAccess) : Nat :=
  match h.who with
  | .spire k n => if k = d then 1000 + n else k
  | o => pushInput d o

/-- The access that waits at a Lantern and proceeds next: the oldest of the input whose turn it is (02 R39). -/
def nextHeld (d : Nat) (l : Lantern) : Option HeldAccess :=
  l.held.find? (fun h => decide (heldInput d h = nextInput l.heldRr (l.held.map (heldInput d))))

/-- An access that waits at a Lantern proceeds, once no RUN executes there. -/
def lanternGo (s : State) (d n : Nat) : State :=
  let l := lantern s d n
  match l.run, nextHeld d l with
  | none, some h => heldGo (setLantern s d n { l with held := l.held.erase h, heldRr := heldInput d h }) h
  | _, _ => s

/-- LANTERN_MEM_ACCESS (06 R158). -/
def execLanternMemAccess (d : Fin 4) (n : Fin 8) (s : State) : Host.Outcome State Fault Refusal :=
  .next (lanternGo s d n)

/-- A request has come to the die of its target: of this package's dies there is none above 5. -/
def txnArrived (s : State) (e : Nat) (t : Txn) : Bool :=
  decide (addrChip (txnAddr t) = ownChip s) && (decide (addrDie (txnAddr t) = epDie e) || decide (addrDie (txnAddr t) > 5))

/-- A request performed here or relayed. -/
def txnGo (s : State) (e : Nat) (t : Txn) : Act :=
  if txnArrived s e t then txnHere s e t
  else match relayTo s (epDie e) t (txnWho e t) with
    | .ok s1 => some s1
    | .error st => some (rspTo s e t st [])

/-- A request that HALT has stopped on its way is taken and has no effect (08 R201). -/
def dropVoid (s : State) (p : Nat) (x : Nat × BitVec 16) : State :=
  setParty s p { party s p with void := (party s p).void.filter (fun y => decide (y ≠ x)) }

/-- A request that has come to endpoint e is of an isolated party: another chip, a die of one, or a die of this package (R245 step 1; 09
R226). -/
def fromIsolated (s : State) (e : Nat) (t : Txn) : Bool :=
  if txnChip t = ownChip s then !diesJoined s (epDie e) (txnDie t)
  else chipIsolated s (txnChip t) || decide ((txnChip t, txnDie t) ∈ s.nld.farIso)

/-- The next request of a kind that endpoint e holds: taken once (R238), then performed or relayed. One of an isolated party is
discarded whole, one that HALT has stopped answers CANCELLED. -/
def nldRow (s : State) (e : Nat) (k : Nat) : State :=
  match nextTxn (endp s e) k, partyOf s e with
  | some t, some p =>
    let s1 := takeTxn s e t
    let ch := kindVc k
    if fromIsolated s e t then s1
    else if (ch, txnTid t) ∈ (party s1 p).void then rspTo (dropVoid s1 p (ch, txnTid t)) e t stCANCELLED []
    else if txnRecorded t then
      match winFind (party s1 p) ch (txnTid t) with
      | some w => answerDup s1 e p w
      | none =>
        (txnGo (setParty s1 p { party s1 p with window := winAdd (party s1 p).window ch (txnTid t) }) e t).getD s
    else (txnGo s1 e t).getD s
  | _, _ => s

/-- NLD_RD. -/
def execNldRd (e : Ep) (s : State) : Host.Outcome State Fault Refusal := .next (nldRow s (epCode e) kRD)

/-- NLD_WR. -/
def execNldWr (e : Ep) (s : State) : Host.Outcome State Fault Refusal := .next (nldRow s (epCode e) kWR)

/-- NLD_BADD. -/
def execNldBadd (e : Ep) (s : State) : Host.Outcome State Fault Refusal := .next (nldRow s (epCode e) kBADD)

/-- NLD_CHN. -/
def execNldChn (e : Ep) (s : State) : Host.Outcome State Fault Refusal := .next (nldRow s (epCode e) kCHN)

/-- NLD_CHBRK. -/
def execNldChbrk (e : Ep) (s : State) : Host.Outcome State Fault Refusal := .next (nldRow s (epCode e) kCHBRK)

/-! ### Held operations and their deadlines (R240) -/

/-- Pushes of an origin that their queues can take by now are taken. -/
def servePushes (s : State) (who : Origin) : List (Nat × Nat) → State
  | [] => s
  | p :: ps =>
    servePushes (if (queue s p.1 p.2).pushes.any (fun x => decide (x.who = who)) then admitAll s p.1 p.2 else s) who ps

/-- The queues of the package that something waits to be pushed into. -/
def pushedQueues (s : State) : List (Nat × Nat) :=
  (upTo 4).flatMap (fun d => ((cd s d).queues.filter (fun q => decide (q.2.pushes ≠ []))).map (fun q => (d, q.1)))

/-- Operations held past their deadline answer TIMEOUT; those no longer held are forgotten. -/
def expireHolds (s : State) : List (Origin × Time) → State
  | [] => s
  | h :: hs =>
    if !heldBy s h.1 then
      expireHolds { s with nld := { s.nld with holds := s.nld.holds.filter (fun x => decide (x ≠ h)) } } hs
    else if s.tb.toNat < h.2.toNat then expireHolds s hs
    else
      let s1 := servePushes s h.1 (pushedQueues s)
      let s2 := if heldBy s1 h.1 then
          answerOp (withdraw s1 h.1) h.1 (if heldMet s1 h.1 then stOK else stTIMEOUT) []
        else s1
      expireHolds { s2 with nld := { s2.nld with holds := s2.nld.holds.filter (fun x => decide (x ≠ h)) } } hs

def heldRow (s : State) (e k : Nat) : State := nldRow (expireHolds s s.nld.holds) e k

/-- NLD_BWAIT. -/
def execNldBwait (e : Ep) (s : State) : Host.Outcome State Fault Refusal := .next (heldRow s (epCode e) kBWAIT)

/-- NLD_QPUSH. -/
def execNldQpush (e : Ep) (s : State) : Host.Outcome State Fault Refusal := .next (heldRow s (epCode e) kQPUSH)

/-- NLD_QPOP. -/
def execNldQpop (e : Ep) (s : State) : Host.Outcome State Fault Refusal := .next (heldRow s (epCode e) kQPOP)

/-- Everything held on this chip for somebody, or asked of another chip. -/
def everyOrigin (s : State) : List Origin :=
  (upTo 4).flatMap (fun d => heldOrigins (cd s d)) ++ (allAsks s).map (fun x => x.2.who)

/-- An operation that a CANCEL names: its TID from the same party, on the channel that its target selects (log entry 47). -/
def cancelNames (s : State) (e : Nat) (t : Txn) (o : Origin) : Bool :=
  let off := addrOff (txnAddr t)
  let ch := if 0x500000000 ≤ off ∧ off < 0x500010000 then 3 else 0
  match o with
  | .remote x c tid _ _ => decide (partyOf s x = partyOf s e) && decide (c = ch) && decide (tid = txnTid t)
  | _ => false

/-- NLD_CANCEL (R240): a held operation answers CANCELLED, one that was relayed is cancelled at its target; anything else
has been performed already. -/
def execNldCancel (e : Ep) (s : State) : Host.Outcome State Fault Refusal :=
  .next (match nextTxn (endp s (epCode e)) kCANCEL with
    | none => s
    | some t =>
      let s1 := takeTxn s (epCode e) t
      match (everyOrigin s1).find? (cancelNames s1 (epCode e) t) with
      | none => s1
      | some o => cancelOp s1 o)

/-! ### Responses and isolation (R237, R245) -/

/-- The mover whose row a request was for goes on. -/
def afterAsk (s : State) (o : Outst) : State :=
  match o.who with
  | .unit (.mover m) => moverGo s m
  | _ => s

/-- A response answers a request: its TID, header word 1 and address (log entry 26). -/
def answersTo (t : Txn) (o : Outst) : Bool :=
  o.sent && decide (o.tid = txnTid t) && decide (wordAt o.txn.hdr 1 = wordAt t.hdr 1) && decide (txnAddr o.txn = txnAddr t)

/-- NLD_RSP: a response completes its request, or is discarded. -/
def execNldRsp (e : Ep) (s : State) : Host.Outcome State Fault Refusal :=
  .next (match nextTxn (endp s (epCode e)) kRSP, partyOf s (epCode e) with
    | some t, some p =>
      let s1 := takeTxn s (epCode e) t
      match (party s1 p).outst.find? (answersTo t) with
      | none => s1
      | some o =>
        let st := field (txnOperand t) 7 0
        let s2 := afterAsk (askDone (dropAsk s1 p o) o st (txnBytes t)) o
        if st = stISOLATED then farDieCut s2 (addrChip (txnAddr t)) (addrDie (txnAddr t)) else s2
    | _, _ => s)

/-- This chip routes to chip c through chip x, its neighbour. A sender that lies further off is no neighbour of any port: its ISO changes
nothing here, and a neighbour between, which routes to c through it, isolates c and sends an ISO of its own (R245; log entry 47). -/
def routesThrough (s : State) (x c : Nat) : Bool :=
  (maskPorts (routeMask s c)).any (fun p => decide ((endp s (17 + p)).neighbour.map (·.toNat) = some x))

/-- NLD_TSYNC (R247): the oldest TSYNC transaction that port p has received carries the message m; it is taken, and its leg acts.
One that carries no leg is taken and dropped. -/
def execNldTsync (p : Fin 4) (m : TsyncMsg) (s : State) : Host.Outcome State Fault Refusal :=
  .next (match nextTxn (endp s (17 + p.val)) kTSYNC with
    | none => s
    | some t =>
      let s1 := takeTxn s (17 + p.val) t
      match tsyncMsg t with
      | some x => if x ≠ m then s else tsyncLeg s1 p m (txnTid t)
      | none => s1)

/-- NLD_ISO. -/
def execNldIso (e : Ep) (s : State) : Host.Outcome State Fault Refusal :=
  .next (match nextTxn (endp s (epCode e)) kISO with
    | none => s
    | some t =>
      let s1 := takeTxn s (epCode e) t
      let c := (txnOperand t).toNat % 8
      if addrChip (txnAddr t) ≠ ownChip s1 then
        match relayTo s1 (epDie (epCode e)) t .boot with
        | .ok s2 => s2
        | .error _ => s1
      else if routesThrough s1 (txnChip t) c then isolateChip s1 (epCode e) c
      else s1)

end Sys2Proof.Machine
end

