-- ==== Sys2Proof/Machine/Dispatch.lean ====
section
/-! DEFINITION. The dispatch: one arm for each command, a direct call of its meaning. -/

namespace Sys2Proof.Machine

/-- The effect of a command on everything but the queue of waiting commands. -/
def exec (i : Instr) (s : State) : Host.Outcome State Fault Refusal :=
  match i with
  | .powerUp => Sys2Proof.Machine.execPowerUp s
  | .powerGood test => Sys2Proof.Machine.execPowerGood test s
  | .brownOut r => Sys2Proof.Machine.execBrownOut r s
  | .rstNLow ns => Sys2Proof.Machine.execRstNLow ns s
  | .rstNHigh test => Sys2Proof.Machine.execRstNHigh test s
  | .vcoreFastSlew d => Sys2Proof.Machine.execVcoreFastSlew d s
  | .timeBaseStart => Sys2Proof.Machine.execTimeBaseStart s
  | .refclkLost => Sys2Proof.Machine.execRefclkLost s
  | .refclkReturn => Sys2Proof.Machine.execRefclkReturn s
  | .speedWindowEnd d rate => Sys2Proof.Machine.execSpeedWindowEnd d rate s
  | .sysTbLoRead a d => Sys2Proof.Machine.execSysTbLoRead a d s
  | .nldTofsLoRead a => Sys2Proof.Machine.execNldTofsLoRead a s
  | .pciTbLoRead => Sys2Proof.Machine.execPciTbLoRead s
  | .stallLong d port => Sys2Proof.Machine.execStallLong d port s
  | .stallEpisodeEnd d port => Sys2Proof.Machine.execStallEpisodeEnd d port s
  | .sysStallCntRead d => Sys2Proof.Machine.execSysStallCntRead d s
  | .registerWrite a addr v => Sys2Proof.Machine.execRegisterWrite a addr v s
  | .seedWrite d u v => Sys2Proof.Machine.execSeedWrite d u v s
  | .pass d n => Sys2Proof.Machine.execPass d n s
  | .program d n => Sys2Proof.Machine.execProgram d n s
  | .programTokenGrant => Sys2Proof.Machine.execProgramTokenGrant s
  | .programEnd d n bank cellsGood => Sys2Proof.Machine.execProgramEnd d n bank cellsGood s
  | .verify d n => Sys2Proof.Machine.execVerify d n s
  | .verifyEnd d n tightOk => Sys2Proof.Machine.execVerifyEnd d n tightOk s
  | .swap d n => Sys2Proof.Machine.execSwap d n s
  | .domeDeferredResume d n => Sys2Proof.Machine.execDomeDeferredResume d n s
  | .towerMul d n => Sys2Proof.Machine.execTowerMul d n s
  | .plinthPairIntake d n fromTower => Sys2Proof.Machine.execPlinthPairIntake d n fromTower s
  | .clear d n => Sys2Proof.Machine.execClear d n s
  | .preload d n => Sys2Proof.Machine.execPreload d n s
  | .drain d n => Sys2Proof.Machine.execDrain d n s
  | .readt d n => Sys2Proof.Machine.execReadt d n s
  | .writet d n => Sys2Proof.Machine.execWritet d n s
  | .chain d n => Sys2Proof.Machine.execChain d n s
  | .plinthSettled d n => Sys2Proof.Machine.execPlinthSettled d n s
  | .chainCombine d n => Sys2Proof.Machine.execChainCombine d n s
  | .plinthStore d n off v => Sys2Proof.Machine.execPlinthStore d n off v s
  | .lntRun d n => Sys2Proof.Machine.execLntRun d n s
  | .lntNop d n => Sys2Proof.Machine.execLntNop d n s
  | .lntEnd d n => Sys2Proof.Machine.execLntEnd d n s
  | .lntSetrm d n => Sys2Proof.Machine.execLntSetrm d n s
  | .lntLane d n => Sys2Proof.Machine.execLntLane d n s
  | .lntLd d n => Sys2Proof.Machine.execLntLd d n s
  | .lntSt d n => Sys2Proof.Machine.execLntSt d n s
  | .lntStn d n => Sys2Proof.Machine.execLntStn d n s
  | .lntStk d n => Sys2Proof.Machine.execLntStk d n s
  | .lntPrd d n => Sys2Proof.Machine.execLntPrd d n s
  | .lntPrdx d n => Sys2Proof.Machine.execLntPrdx d n s
  | .lntMov d n => Sys2Proof.Machine.execLntMov d n s
  | .lntTrn d n => Sys2Proof.Machine.execLntTrn d n s
  | .lntBcr d n => Sys2Proof.Machine.execLntBcr d n s
  | .lntBcc d n => Sys2Proof.Machine.execLntBcc d n s
  | .lntLid d n => Sys2Proof.Machine.execLntLid d n s
  | .lntRix d n => Sys2Proof.Machine.execLntRix d n s
  | .lntSel d n => Sys2Proof.Machine.execLntSel d n s
  | .lntAdd d n => Sys2Proof.Machine.execLntAdd d n s
  | .lntSub d n => Sys2Proof.Machine.execLntSub d n s
  | .lntMul d n => Sys2Proof.Machine.execLntMul d n s
  | .lntFma d n => Sys2Proof.Machine.execLntFma d n s
  | .lntMin d n => Sys2Proof.Machine.execLntMin d n s
  | .lntMax d n => Sys2Proof.Machine.execLntMax d n s
  | .lntAbs d n => Sys2Proof.Machine.execLntAbs d n s
  | .lntNeg d n => Sys2Proof.Machine.execLntNeg d n s
  | .lntDiv d n => Sys2Proof.Machine.execLntDiv d n s
  | .lntSqrt d n => Sys2Proof.Machine.execLntSqrt d n s
  | .lntAnd d n => Sys2Proof.Machine.execLntAnd d n s
  | .lntOr d n => Sys2Proof.Machine.execLntOr d n s
  | .lntXor d n => Sys2Proof.Machine.execLntXor d n s
  | .lntShl d n => Sys2Proof.Machine.execLntShl d n s
  | .lntShr d n => Sys2Proof.Machine.execLntShr d n s
  | .lntCeq d n => Sys2Proof.Machine.execLntCeq d n s
  | .lntClt d n => Sys2Proof.Machine.execLntClt d n s
  | .lntCle d n => Sys2Proof.Machine.execLntCle d n s
  | .lntCun d n => Sys2Proof.Machine.execLntCun d n s
  | .lntCvt d n => Sys2Proof.Machine.execLntCvt d n s
  | .lntExp d n => Sys2Proof.Machine.execLntExp d n s
  | .lntLn d n => Sys2Proof.Machine.execLntLn d n s
  | .lntSigm d n => Sys2Proof.Machine.execLntSigm d n s
  | .lntTanh d n => Sys2Proof.Machine.execLntTanh d n s
  | .lntRcp d n => Sys2Proof.Machine.execLntRcp d n s
  | .lntRsqrt d n => Sys2Proof.Machine.execLntRsqrt d n s
  | .lntRed d n => Sys2Proof.Machine.execLntRed d n s
  | .lntCprs d n => Sys2Proof.Machine.execLntCprs d n s
  | .lntXpnd d n => Sys2Proof.Machine.execLntXpnd d n s
  | .lanternMemAccess d n => Sys2Proof.Machine.execLanternMemAccess d n s
  | .add d n w => Sys2Proof.Machine.execAdd d n w s
  | .sub d n w => Sys2Proof.Machine.execSub d n w s
  | .andR d n w => Sys2Proof.Machine.execAndR d n w s
  | .orR d n w => Sys2Proof.Machine.execOrR d n w s
  | .xorR d n w => Sys2Proof.Machine.execXorR d n w s
  | .sll d n w => Sys2Proof.Machine.execSll d n w s
  | .srl d n w => Sys2Proof.Machine.execSrl d n w s
  | .sra d n w => Sys2Proof.Machine.execSra d n w s
  | .slt d n w => Sys2Proof.Machine.execSlt d n w s
  | .sltu d n w => Sys2Proof.Machine.execSltu d n w s
  | .mul d n w => Sys2Proof.Machine.execMul d n w s
  | .mulh d n w => Sys2Proof.Machine.execMulh d n w s
  | .mulhu d n w => Sys2Proof.Machine.execMulhu d n w s
  | .div d n w => Sys2Proof.Machine.execDiv d n w s
  | .divu d n w => Sys2Proof.Machine.execDivu d n w s
  | .rem d n w => Sys2Proof.Machine.execRem d n w s
  | .remu d n w => Sys2Proof.Machine.execRemu d n w s
  | .fadd d n w => Sys2Proof.Machine.execFadd d n w s
  | .fsub d n w => Sys2Proof.Machine.execFsub d n w s
  | .fmul d n w => Sys2Proof.Machine.execFmul d n w s
  | .fdiv d n w => Sys2Proof.Machine.execFdiv d n w s
  | .fsqrt d n w => Sys2Proof.Machine.execFsqrt d n w s
  | .fmin d n w => Sys2Proof.Machine.execFmin d n w s
  | .fmax d n w => Sys2Proof.Machine.execFmax d n w s
  | .feq d n w => Sys2Proof.Machine.execFeq d n w s
  | .flt d n w => Sys2Proof.Machine.execFlt d n w s
  | .fle d n w => Sys2Proof.Machine.execFle d n w s
  | .fcvtWS d n w => Sys2Proof.Machine.execFcvtWS d n w s
  | .fcvtWuS d n w => Sys2Proof.Machine.execFcvtWuS d n w s
  | .fcvtSW d n w => Sys2Proof.Machine.execFcvtSW d n w s
  | .fcvtSWu d n w => Sys2Proof.Machine.execFcvtSWu d n w s
  | .fclass d n w => Sys2Proof.Machine.execFclass d n w s
  | .fma d n w => Sys2Proof.Machine.execFma d n w s
  | .addi d n w => Sys2Proof.Machine.execAddi d n w s
  | .andi d n w => Sys2Proof.Machine.execAndi d n w s
  | .ori d n w => Sys2Proof.Machine.execOri d n w s
  | .xori d n w => Sys2Proof.Machine.execXori d n w s
  | .slli d n w => Sys2Proof.Machine.execSlli d n w s
  | .srli d n w => Sys2Proof.Machine.execSrli d n w s
  | .srai d n w => Sys2Proof.Machine.execSrai d n w s
  | .slti d n w => Sys2Proof.Machine.execSlti d n w s
  | .sltiu d n w => Sys2Proof.Machine.execSltiu d n w s
  | .lui d n w => Sys2Proof.Machine.execLui d n w s
  | .lw d n w => Sys2Proof.Machine.execLw d n w s
  | .lh d n w => Sys2Proof.Machine.execLh d n w s
  | .lhu d n w => Sys2Proof.Machine.execLhu d n w s
  | .lb d n w => Sys2Proof.Machine.execLb d n w s
  | .lbu d n w => Sys2Proof.Machine.execLbu d n w s
  | .sw d n w => Sys2Proof.Machine.execSw d n w s
  | .sh d n w => Sys2Proof.Machine.execSh d n w s
  | .sb d n w => Sys2Proof.Machine.execSb d n w s
  | .meshAccessComplete d n => Sys2Proof.Machine.execMeshAccessComplete d n s
  | .beq d n w => Sys2Proof.Machine.execBeq d n w s
  | .bne d n w => Sys2Proof.Machine.execBne d n w s
  | .blt d n w => Sys2Proof.Machine.execBlt d n w s
  | .bge d n w => Sys2Proof.Machine.execBge d n w s
  | .bltu d n w => Sys2Proof.Machine.execBltu d n w s
  | .bgeu d n w => Sys2Proof.Machine.execBgeu d n w s
  | .call d n w => Sys2Proof.Machine.execCall d n w s
  | .jalr d n w => Sys2Proof.Machine.execJalr d n w s
  | .enter d n w => Sys2Proof.Machine.execEnter d n w s
  | .leave d n w => Sys2Proof.Machine.execLeave d n w s
  | .nop d n w => Sys2Proof.Machine.execNop d n w s
  | .iflush d n w => Sys2Proof.Machine.execIflush d n w s
  | .rftR d n w => Sys2Proof.Machine.execRftR d n w s
  | .rftN d n w => Sys2Proof.Machine.execRftN d n w s
  | .halt d n w => Sys2Proof.Machine.execHalt d n w s
  | .rds d n w => Sys2Proof.Machine.execRds d n w s
  | .wrs d n w => Sys2Proof.Machine.execWrs d n w s
  | .trap d n w => Sys2Proof.Machine.execTrap d n w s
  | .wspill d n w => Sys2Proof.Machine.execWspill d n w s
  | .wfill d n w => Sys2Proof.Machine.execWfill d n w s
  | .qpush d n w => Sys2Proof.Machine.execQpush d n w s
  | .qpop d n w => Sys2Proof.Machine.execQpop d n w s
  | .badd d n w => Sys2Proof.Machine.execBadd d n w s
  | .bwait d n w => Sys2Proof.Machine.execBwait d n w s
  | .waitt d n w => Sys2Proof.Machine.execWaitt d n w s
  | .waittReached d n => Sys2Proof.Machine.execWaittReached d n s
  | .deadlineTimeout d n => Sys2Proof.Machine.execDeadlineTimeout d n s
  | .timer d n => Sys2Proof.Machine.execTimer d n s
  | .sprRunStart d n => Sys2Proof.Machine.execSprRunStart d n s
  | .sprRunStop d n => Sys2Proof.Machine.execSprRunStop d n s
  | .sprWtrapsRead d n => Sys2Proof.Machine.execSprWtrapsRead d n s
  | .bellAdd d n v => Sys2Proof.Machine.execBellAdd d n v s
  | .bellSet d n v => Sys2Proof.Machine.execBellSet d n v s
  | .bellPoison d n => Sys2Proof.Machine.execBellPoison d n s
  | .bellUnpoison d n => Sys2Proof.Machine.execBellUnpoison d n s
  | .bellWaitSatisfied d n => Sys2Proof.Machine.execBellWaitSatisfied d n s
  | .queuePushAdmit d q => Sys2Proof.Machine.execQueuePushAdmit d q s
  | .queueFrontEndTake d q c => Sys2Proof.Machine.execQueueFrontEndTake d q c s
  | .waitEntry d q => Sys2Proof.Machine.execWaitEntry d q s
  | .ringEntry d q => Sys2Proof.Machine.execRingEntry d q s
  | .ringAdd d q => Sys2Proof.Machine.execRingAdd d q s
  | .commandComplete u => Sys2Proof.Machine.execCommandComplete u s
  | .queStop d q => Sys2Proof.Machine.execQueStop d q s
  | .queResume d q => Sys2Proof.Machine.execQueResume d q s
  | .queFlush d q => Sys2Proof.Machine.execQueFlush d q s
  | .queConfigWrite d q cfg v => Sys2Proof.Machine.execQueConfigWrite d q cfg v s
  | .queHwcntRead d q => Sys2Proof.Machine.execQueHwcntRead d q s
  | .queDiscRead d q => Sys2Proof.Machine.execQueDiscRead d q s
  | .flitReceive e f => Sys2Proof.Machine.execFlitReceive e f s
  | .flitSend e => Sys2Proof.Machine.execFlitSend e s
  | .nakReceive e ack => Sys2Proof.Machine.execNakReceive e ack s
  | .ackDue e => Sys2Proof.Machine.execAckDue e s
  | .nldRd e => Sys2Proof.Machine.execNldRd e s
  | .nldWr e => Sys2Proof.Machine.execNldWr e s
  | .nldBadd e => Sys2Proof.Machine.execNldBadd e s
  | .nldBwait e => Sys2Proof.Machine.execNldBwait e s
  | .nldQpush e => Sys2Proof.Machine.execNldQpush e s
  | .nldQpop e => Sys2Proof.Machine.execNldQpop e s
  | .nldCancel e => Sys2Proof.Machine.execNldCancel e s
  | .nldChn e => Sys2Proof.Machine.execNldChn e s
  | .nldChbrk e => Sys2Proof.Machine.execNldChbrk e s
  | .nldTsync p m => Sys2Proof.Machine.execNldTsync p m s
  | .nldIso e => Sys2Proof.Machine.execNldIso e s
  | .nldRsp e => Sys2Proof.Machine.execNldRsp e s
  | .laneLockLoss p => Sys2Proof.Machine.execLaneLockLoss p s
  | .laneNoProgress e => Sys2Proof.Machine.execLaneNoProgress e s
  | .nldRetrainWrite e => Sys2Proof.Machine.execNldRetrainWrite e s
  | .nldResumeFlit e m => Sys2Proof.Machine.execNldResumeFlit e m s
  | .retrainLimitExpiry e => Sys2Proof.Machine.execRetrainLimitExpiry e s
  | .extPortTrainTimeout p => Sys2Proof.Machine.execExtPortTrainTimeout p s
  | .tsyncPeriod => Sys2Proof.Machine.execTsyncPeriod s
  | .hfKeepalive => Sys2Proof.Machine.execHfKeepalive s
  | .nldLockWrite v => Sys2Proof.Machine.execNldLockWrite v s
  | .nldEpCounterRead e k => Sys2Proof.Machine.execNldEpCounterRead e k s
  | .vaultClearDone d => Sys2Proof.Machine.execVaultClearDone d s
  | .lpddrTrainingEnd fails => Sys2Proof.Machine.execLpddrTrainingEnd fails s
  | .mr4Poll refm => Sys2Proof.Machine.execMr4Poll refm s
  | .lpddrRefreshLost => Sys2Proof.Machine.execLpddrRefreshLost s
  | .memCfgWrite v => Sys2Proof.Machine.execMemCfgWrite v s
  | .memVcorrRead d => Sys2Proof.Machine.execMemVcorrRead d s
  | .memBurstCountRead k => Sys2Proof.Machine.execMemBurstCountRead k s
  | .moverCopy m => Sys2Proof.Machine.execMoverCopy m s
  | .flashDiscovery => Sys2Proof.Machine.execFlashDiscovery s
  | .flashReadTimeout => Sys2Proof.Machine.execFlashReadTimeout s
  | .imageAuth => Sys2Proof.Machine.execImageAuth s
  | .imageConfig => Sys2Proof.Machine.execImageConfig s
  | .bootDomeEntry => Sys2Proof.Machine.execBootDomeEntry s
  | .sectionLoad => Sys2Proof.Machine.execSectionLoad s
  | .bootSettleEnd => Sys2Proof.Machine.execBootSettleEnd s
  | .bootRelease => Sys2Proof.Machine.execBootRelease s
  | .bootSlotTimeout => Sys2Proof.Machine.execBootSlotTimeout s
  | .bootRefclkAbsent => Sys2Proof.Machine.execBootRefclkAbsent s
  | .svnCommit => Sys2Proof.Machine.execSvnCommit s
  | .updErase slot => Sys2Proof.Machine.execUpdErase slot s
  | .updWrite slot => Sys2Proof.Machine.execUpdWrite slot s
  | .updCheck slot => Sys2Proof.Machine.execUpdCheck slot s
  | .updCommandEnd => Sys2Proof.Machine.execUpdCommandEnd s
  | .openSession => Sys2Proof.Machine.execOpenSession s
  | .closeSession => Sys2Proof.Machine.execCloseSession s
  | .ping => Sys2Proof.Machine.execPing s
  | .hostRd => Sys2Proof.Machine.execHostRd s
  | .hostWr => Sys2Proof.Machine.execHostWr s
  | .hostBadd => Sys2Proof.Machine.execHostBadd s
  | .hostBwait => Sys2Proof.Machine.execHostBwait s
  | .hostQpush => Sys2Proof.Machine.execHostQpush s
  | .hostQpop => Sys2Proof.Machine.execHostQpop s
  | .wupd => Sys2Proof.Machine.execWupd s
  | .hostDeadline k reqid => Sys2Proof.Machine.execHostDeadline k reqid s
  | .pciSqTailWrite k tail wrote => Sys2Proof.Machine.execPciSqTailWrite k tail wrote s
  | .pciCqHeadWrite k v => Sys2Proof.Machine.execPciCqHeadWrite k v s
  | .cqFrameWrite k => Sys2Proof.Machine.execCqFrameWrite k s
  | .pciMsixSwWrite v => Sys2Proof.Machine.execPciMsixSwWrite v s
  | .heartbeat => Sys2Proof.Machine.execHeartbeat s
  | .eventQueuePop => Sys2Proof.Machine.execEventQueuePop s
  | .pciePerst => Sys2Proof.Machine.execPciePerst s
  | .functionLevelReset => Sys2Proof.Machine.execFunctionLevelReset s
  | .ethFrameReceive m f => Sys2Proof.Machine.execEthFrameReceive m f s
  | .ethPauseReceive m quanta => Sys2Proof.Machine.execEthPauseReceive m quanta s
  | .ethLinkDownTimeout m => Sys2Proof.Machine.execEthLinkDownTimeout m s
  | .ethEnable m v => Sys2Proof.Machine.execEthEnable m v s
  | .mdioFrame m v => Sys2Proof.Machine.execMdioFrame m v s
  | .mdioFrameEnd m data => Sys2Proof.Machine.execMdioFrameEnd m data s
  | .pciCounterRead k => Sys2Proof.Machine.execPciCounterRead k s
  | .ethCounterRead m k => Sys2Proof.Machine.execEthCounterRead m k s
  | .csiTriggerPulse r => Sys2Proof.Machine.execCsiTriggerPulse r s
  | .csiFrameStart r h => Sys2Proof.Machine.execCsiFrameStart r h s
  | .csiLongPacket r h crcOk data => Sys2Proof.Machine.execCsiLongPacket r h crcOk data s
  | .csiFrameEnd r h => Sys2Proof.Machine.execCsiFrameEnd r h s
  | .csiFrameTimeout r k => Sys2Proof.Machine.execCsiFrameTimeout r k s
  | .csiEnable r v => Sys2Proof.Machine.execCsiEnable r v s
  | .csiCounterRead r k => Sys2Proof.Machine.execCsiCounterRead r k s
  | .uartCharReceived u c => Sys2Proof.Machine.execUartCharReceived u c s
  | .uartRxEngineTake u => Sys2Proof.Machine.execUartRxEngineTake u s
  | .uartTxChar u => Sys2Proof.Machine.execUartTxChar u s
  | .uartTxDone u => Sys2Proof.Machine.execUartTxDone u s
  | .uartCtsChange u high => Sys2Proof.Machine.execUartCtsChange u high s
  | .uartSyncChar u data => Sys2Proof.Machine.execUartSyncChar u data s
  | .uartSleepEntry u => Sys2Proof.Machine.execUartSleepEntry u s
  | .uartWake u byRx => Sys2Proof.Machine.execUartWake u byRx s
  | .deepWakeReady u rxHigh => Sys2Proof.Machine.execDeepWakeReady u rxHigh s
  | .uartEnable u v => Sys2Proof.Machine.execUartEnable u v s
  | .uartDisable u => Sys2Proof.Machine.execUartDisable u s
  | .uartCounterRead u k => Sys2Proof.Machine.execUartCounterRead u k s
  | .mstateReport => Sys2Proof.Machine.execMstateReport s
  | .vfieldRise => Sys2Proof.Machine.execVfieldRise s
  | .fReset => Sys2Proof.Machine.execFReset s
  | .fuvTimeout => Sys2Proof.Machine.execFuvTimeout s
  | .fLinkTimeout => Sys2Proof.Machine.execFLinkTimeout s
  | .fioSafe => Sys2Proof.Machine.execFioSafe s
  | .fioRearm => Sys2Proof.Machine.execFioRearm s
  | .fioWdKick v => Sys2Proof.Machine.execFioWdKick v s
  | .fioWdWrite v => Sys2Proof.Machine.execFioWdWrite v s
  | .fioWdExpiry => Sys2Proof.Machine.execFioWdExpiry s
  | .aoCmdWrite n v => Sys2Proof.Machine.execAoCmdWrite n v s
  | .aoMeasUpdate n x vhead vloop => Sys2Proof.Machine.execAoMeasUpdate n x vhead vloop s
  | .aoComplianceSet n => Sys2Proof.Machine.execAoComplianceSet n s
  | .aoComplianceClear n => Sys2Proof.Machine.execAoComplianceClear n s
  | .aoOpenSet n => Sys2Proof.Machine.execAoOpenSet n s
  | .aoOpenClear n => Sys2Proof.Machine.execAoOpenClear n s
  | .doCmdWrite v => Sys2Proof.Machine.execDoCmdWrite v s
  | .doOverload n => Sys2Proof.Machine.execDoOverload n s
  | .doLatchOff n => Sys2Proof.Machine.execDoLatchOff n s
  | .doRetry n => Sys2Proof.Machine.execDoRetry n s
  | .doRetryReset n => Sys2Proof.Machine.execDoRetryReset n s
  | .doFaultClear v => Sys2Proof.Machine.execDoFaultClear v s
  | .doOpenldSet n => Sys2Proof.Machine.execDoOpenldSet n s
  | .doOpenldClear n => Sys2Proof.Machine.execDoOpenldClear n s
  | .doExtDriveSet n => Sys2Proof.Machine.execDoExtDriveSet n s
  | .doExtDriveClear n => Sys2Proof.Machine.execDoExtDriveClear n s
  | .diFilteredChange n => Sys2Proof.Machine.execDiFilteredChange n s
  | .governorTick pwr => Sys2Proof.Machine.execGovernorTick pwr s
  | .vreqWrite n v => Sys2Proof.Machine.execVreqWrite n v s
  | .sensorSample samples => Sys2Proof.Machine.execSensorSample samples s
  | .thmPeakRead => Sys2Proof.Machine.execThmPeakRead s
  | .thmSlowtRead => Sys2Proof.Machine.execThmSlowtRead s
  | .sysGovcntRead => Sys2Proof.Machine.execSysGovcntRead s
  | .twrWaitRead d n => Sys2Proof.Machine.execTwrWaitRead d n s
  | .plnDiscRead d n => Sys2Proof.Machine.execPlnDiscRead d n s
  | .plnFoldflushRead d n => Sys2Proof.Machine.execPlnFoldflushRead d n s
  | .lntStallRead d n => Sys2Proof.Machine.execLntStallRead d n s
  | .lntStepsRead d n => Sys2Proof.Machine.execLntStepsRead d n s
  | .faultRecordLog x => Sys2Proof.Machine.execFaultRecordLog x s
  | .faultQueueDeliver => Sys2Proof.Machine.execFaultQueueDeliver s
  | .flogHeadWrite v => Sys2Proof.Machine.execFlogHeadWrite v s
  | .pciHbWordWrite v => Sys2Proof.Machine.execPciHbWordWrite v s
  | .sysWdWrite v => Sys2Proof.Machine.execSysWdWrite v s
  | .machineWdogExpiry => Sys2Proof.Machine.execMachineWdogExpiry s
  | .resumeAction v => Sys2Proof.Machine.execResumeAction v s
  | .resetAction v => Sys2Proof.Machine.execResetAction v s
  | .blockLockAcquired e => Sys2Proof.Machine.execBlockLockAcquired e s
  | .ethLinkChange m up speed => Sys2Proof.Machine.execEthLinkChange m up speed s
  | .pauseTimerExpiry m => Sys2Proof.Machine.execPauseTimerExpiry m s
  | .msixImodExpiry k => Sys2Proof.Machine.execMsixImodExpiry k s
  | .pciePerstRelease => Sys2Proof.Machine.execPciePerstRelease s
  | .uartRxHighBitTime u => Sys2Proof.Machine.execUartRxHighBitTime u s

end Sys2Proof.Machine
end

