-- ==== Sys2Proof/Machine/Pins.lean ====
section
/-! DEFINITION. The levels of output pins between the characters, frames, pulses and bursts that `Output` lists, as the state of the
machine sets them (12 R293, R294; 13 R301, R326; 14 R337-R348; 16 R374, R377; 18 R415). -/

namespace Sys2Proof.Machine

/-- What stands on an output pin: nothing drives it and a 50 kΩ resistor may pull it, a level is driven, or a unit sends on it. -/
inductive Pin where
  | highZ | pulledUp | pulledDown | low | high | sending
  deriving DecidableEq, Repr

def pinLevel (b : Bool) : Pin := if b then .high else .low

/-- In RESET, BOOT and SAFE the serial ports and other interfaces keep their reset pins (14 R346, R348). -/
def released (s : State) : Bool := decide (s.mstate = .run) || decide (s.mstate = .halt)

/-! ### Boot flash (12 R293, R294) -/

/-- BOOT_CLK, BOOT_DQ0-7 and BOOT_DS. After release they idle low but for the update engine, whose refused commands touch no flash. -/
def flashPin (s : State) : Pin :=
  match s.mstate with
  | .reset => .highZ
  | .safe => .highZ
  | .boot => .sending
  | _ => match s.boot.updBusy with
    | some (op, _) => if op < 4 then .sending else .low
    | none => .low

/-- BOOT_CS_N. -/
def flashSelect (s : State) : Pin :=
  match flashPin s with
  | .highZ => .pulledUp
  | .low => .high
  | p => p

/-! ### LPDDR (12 R294; 18 R415) -/

/-- The devices' reset is held: while the controller is OFF (DEDUCED, log entry 69, for BOOT before CONFIG). -/
def lpddrResetHeld (s : State) : Bool := decide (s.mem.st = .off)

/-- Balls that some fitting leaves unused. -/
inductive LpBall where
  | cke0 | cke1 | wck0 | wck1 | ca6 | cs1
  deriving DecidableEq, Repr

/-- The configuration does not use a ball, which the controller then drives low. -/
def ballUnused (m : MemCtl) (b : LpBall) : Bool :=
  match b with
  | .cke0 => isLp5 m
  | .cke1 => isLp5 m
  | .wck0 => !isLp5 m
  | .wck1 => !isLp5 m
  | .ca6 => !isLp5 m
  | .cs1 => !hasRanks2 m

def lpBallPin (s : State) (b : LpBall) : Pin := if ballUnused s.mem b then .low else .sending

/-! ### Links and supplies (12 R294; 16 R374, R377) -/

/-- The lanes of an external port are at electrical idle. -/
def lanesIdle (s : State) (e : Nat) : Bool := decide ((endp s e).st = .down)

/-- RST_OUT_N, open drain: low until RESET is left. -/
def rstOutPin (s : State) : Pin := if s.power.rstOutN then .pulledUp else .low

/-- VCn_VID: the code in force. -/
def vidPins (s : State) (n : Nat) : BitVec 6 := s.power.vapp.getD n 0

/-! ### Output edges (16 R387, Table 16-3) -/

/-- The output groups of H, in the order of their fields in SYS_SLEW from bit 0 up. -/
inductive OutGroup where
  | uart | csi | mdio | rstOut | vid | boot
  deriving DecidableEq, Repr

/-- The place of a group's 2-bit field in SYS_SLEW. -/
def slewField : OutGroup → Nat
  | .uart => 0
  | .csi => 1
  | .mdio => 2
  | .rstOut => 3
  | .vid => 4
  | .boot => 5

/-- The slew code that a group is driven at: its field, but for the BOOT group code 0 until release. -/
def slewCode (s : State) (g : OutGroup) : BitVec 2 :=
  if g = .boot ∧ !released s then 0 else s.power.slew.extractLsb' (2 * slewField g) 2

/-- The least and the greatest 10-90 % edge time of a code, in ns into 15 pF. -/
def edgeNs (c : BitVec 2) : Nat × Nat := (2 ^ c.toNat, 2 ^ (c.toNat + 1))

/-! ### PCI Express, Ethernet and cameras (13 R301, R307, R326) -/

/-- What the endpoint's configuration space says of its identity: Vendor ID and Device ID from the OTP, the Subsystem IDs from the
image, and the class code; and the sizes of BAR0/1 and BAR2/3 (Table 13-1). -/
structure PciIdentity where
  vendor : BitVec 16
  device : BitVec 16
  subsystem : BitVec 32
  classCode : BitVec 24
  bar0 : Nat
  bar2 : Nat
  deriving DecidableEq, Repr

/-- The Subsystem IDs are a value of the image in the slot that boots; where the image holds them no rule says (log entry 76). -/
def pciIdentity (s : State) : PciIdentity :=
  { vendor := s.otp.vendorId, device := s.otp.deviceId, subsystem := Config.subsystemIds (slotBytes s s.boot.slot 0 0x1000),
    classCode := 0x12_0000, bar0 := 0x10000, bar2 := 0x100000 }

/-- Power states of the endpoint and of its link. -/
inductive PciPower where
  | d0 | d3hot | aspmL1
  deriving DecidableEq, Repr

/-- What the endpoint supports, and nothing else (R301, Table 13-1; 00 R2). Which of it a link uses the endpoint and the host settle as
the base specification states (log entry 76). -/
structure PciSupport where
  widths : List Nat := [8, 4, 2, 1]
  laneReversal : Bool := true
  polarityInversion : Bool := true
  /-- in 100 MT/s -/
  rates : List Nat := [320, 160, 80, 50, 25]
  functions : Nat := 1
  maxPayloads : List Nat := [128, 256, 512]
  maxRead : Nat := 4096
  outstanding : Nat := 64
  msixVectors : Nat := 64
  power : List PciPower := [.d0, .d3hot, .aspmL1]
  aer : Bool := true
  ecrc : Bool := true
  functionLevelReset : Bool := true
  deriving DecidableEq, Repr

def pciSupport : PciSupport := {}

/-- The endpoint trains its link and its configuration space answers: out of RESET with PCIE_PERST_N high (Table 13-12). -/
def pcieAnswers (s : State) : Bool := decide (s.mstate ≠ .reset) && !s.host.perst

/-- MDC of MAC m: low in RESET; it runs while a management frame does (DEDUCED, log entry 69: low otherwise). -/
def mdcPin (s : State) (m : Nat) : Pin := if s.mstate ≠ .reset ∧ bit (mac s m).mdio 31 then .sending else .low

/-- CSI_TRIGr between pulses: the level that is not the pulse's (R307; DEDUCED, log entry 69: POL is the level of the pulse). -/
def trigPin (s : State) (r : Nat) : Pin :=
  let v := csiRx s r
  pinLevel (!bit (match v.live with
    | some c => c.trig
    | none => v.regs.trig) 31)

/-! ### Serial ports (14 R337-R340, R346-R348) -/

/-- The port drives its pins: from its first EN after the release on. -/
def uDrives (s : State) (v : Uart) : Bool := released s && v.driven

/-- Un_TX: its idle level is 1, in IrDA 0. -/
def txPin (s : State) (u : Nat) : Pin :=
  let v := uart s u
  if !uDrives s v then (if uMode v = 2 then .pulledDown else .pulledUp)
  else if v.txBusy then .sending
  else pinLevel (decide (uMode (inForce v) ≠ 2))

/-- Un_SCK between characters: the CPOL level in synchronous mode; other modes leave the pin alone (DEDUCED, log entry 69). -/
def sckPin (s : State) (u : Nat) : Pin :=
  let v := uart s u
  if uDrives s v && decide (uMode (inForce v) = 1) then pinLevel (uCpol (inForce v)) else .pulledUp

/-- Un_RTS_N. -/
def rtsPin (s : State) (u : Nat) : Pin :=
  let v := uart s u
  if uDrives s v then pinLevel (rtsHigh s (inForce v)) else .pulledUp

end Sys2Proof.Machine
end

