-- ==== Sys2Proof/Safety.lean ====
section
/-! DEFINITION. The properties of a state that every step keeps, what it is to be rounded correctly, and the conditions under which
commands do their work, in the words the statements use. -/

namespace Sys2Proof.Machine

/-! ### Invariants -/

/-- The memories of a C-die are in canonical form. -/
def CDie.memOk (c : CDie) : Bool :=
  memWf 0 c.vault && memWf 0 c.domeMem && memWf 0 c.spireMem && memWf 0 c.lnPmem

/-- Every memory of the package is in canonical form. -/
def State.memOk (s : State) : Bool :=
  s.c0.memOk && s.c1.memOk && s.c2.memOk && s.c3.memOk && memRises 0 s.mem.lpddr && memWf flashFill s.flash
    && memWf 0 s.host.rings

/-- The time base counts tens of nanoseconds (02 R46, R47). -/
def State.tbOk (s : State) : Bool := decide (s.tb.toNat % 10 = 0)

/-- Every queue of a C-die holds no more entries than its ring has places (09 R209, R211). A die that 16 R376 has left unspecified holds
anything. -/
def CDie.queuesOk (c : CDie) : Bool := c.slewed || c.queues.all (fun e => decide (e.2.occ ≤ queDepth e.2))

/-- Every Spire's current window is w0 to w6 or the trap window, and 1 to 7 windows are live (08 R180, R181). -/
def CDie.windowsOk (c : CDie) : Bool :=
  c.slewed || c.spires.all (fun e => decide (e.2.cwp < 8) && decide (1 ≤ e.2.live) && decide (e.2.live ≤ 7))

def State.queuesOk (s : State) : Bool := s.c0.queuesOk && s.c1.queuesOk && s.c2.queuesOk && s.c3.queuesOk

def State.windowsOk (s : State) : Bool := s.c0.windowsOk && s.c1.windowsOk && s.c2.windowsOk && s.c3.windowsOk

/-- The fault log holds at most its 256 records (17 R398). -/
def State.logOk (s : State) : Bool := decide (logCount s ≤ 256)

/-- At most 32 banks hold a programming token (04 R94). -/
def State.tokensOk (s : State) : Bool := decide (s.tokenHeld.length ≤ 32)

/-- A command has taken the part into RESET, where it stays or which it leaves at once (16 R373, R390; 17 R407): the time base is 0 and not
started, the memory controller is as RESET leaves it, no session is open, and SYS_RSTCAUSE names a cause. -/
def State.cameReset (t : State) : Prop :=
  (t.mstate = .reset ∨ t.mstate = .boot) ∧ t.tb = 0 ∧ t.tbStarted = false ∧ t.mem = { State.reset.mem with epoch := t.mem.epoch } ∧
    t.host.sessions = [] ∧ t.power.rstcause ≠ 0

/-! ### Memory -/

/-- A memory after `rows` rows of `len` bytes have been written from `base` on, `stride` apart: byte i of row m holds
`byte m i`, and every address outside the rows reads as before. -/
def tileWritten (before after : Mem) (base stride rows len : Nat) (byte : Nat → Nat → Byte) : Prop :=
  (∀ m i : Nat, m < rows → i < len → memRead 0 after (base + m * stride + i) = byte m i) ∧
  (∀ a : Nat, (∀ m : Nat, m < rows → ¬ (base + m * stride ≤ a ∧ a < base + m * stride + len)) →
    memRead 0 after a = memRead 0 before a)

/-! ### Spires -/

/-- Die d with Spire n replaced and nothing else changed. -/
def putSpire (s : State) (d n : Nat) (v : Spire) : State :=
  putCd s d { cd s d with spires := tabSet (cd s d).spires n v }

/-- Spire n of die d is at an instruction boundary where the next instruction is issued: the machine and the Spire run,
nothing is under way, no TIMER is pending outside the trap window, and R376 has not left the die unspecified. -/
def spireAtBoundary (s : State) (d n : Nat) : Bool :=
  decide (s.mstate = .run) && !(cd s d).slewed && decide ((spire s d n).st = .running) && decide ((spire s d n).mesh = none)
    && decide ((spire s d n).wait = none)
    && !((spire s d n).ie && decide ((spire s d n).cwp ≠ 7) && decide ((spire s d n).tcmp.toNat ≤ s.tb.toNat))

/-- A fetch at the pc may return w: the word that local memory holds there, or one that it held when it was written over since the last
IFLUSH (08 R189). -/
def spireHolds (s : State) (d n : Nat) (w : Word) : Bool :=
  let v := spire s d n
  let a := v.pc.toNat / 4 * 4
  decide (v.pc.toNat < 0x10000) && (decide (w = locWord (cd s d) n a) || decide ((a, w) ∈ v.stale))

/-- Spire n of die d issues the word w, which is instruction i. -/
def spireIssues (s : State) (d n : Nat) (w : Word) (i : SpOp) : Bool :=
  spireAtBoundary s d n && spireHolds s d n w && decide (spDecode w = some i)

/-- The command that each Spire instruction has when Spire n of die d issues the word w. -/
def spireRows (d : Fin 4) (n : Fin 32) (w : Word) : List Instr :=
  [.add d n w, .sub d n w, .andR d n w, .orR d n w, .xorR d n w, .sll d n w, .srl d n w, .sra d n w, .slt d n
    w, .sltu d n w, .mul d n w, .mulh d n w, .mulhu d n w, .div d n w, .divu d n w, .rem d n w, .remu d n w,
    .fadd d n w, .fsub d n w, .fmul d n w, .fdiv d n w, .fsqrt d n w, .fmin d n w, .fmax d n w, .feq d n w,
    .flt d n w, .fle d n w, .fcvtWS d n w, .fcvtWuS d n w, .fcvtSW d n w, .fcvtSWu d n w, .fclass d n w, .fma
    d n w, .addi d n w, .andi d n w, .ori d n w, .xori d n w, .slli d n w, .srli d n w, .srai d n w, .slti d n
    w, .sltiu d n w, .lui d n w, .lw d n w, .lh d n w, .lhu d n w, .lb d n w, .lbu d n w, .sw d n w, .sh d n
    w, .sb d n w, .beq d n w, .bne d n w, .blt d n w, .bge d n w, .bltu d n w, .bgeu d n w, .call d n w, .jalr
    d n w, .enter d n w, .leave d n w, .nop d n w, .iflush d n w, .rftR d n w, .rftN d n w, .halt d n w, .rds
    d n w, .wrs d n w, .trap d n w, .wspill d n w, .wfill d n w, .qpush d n w, .qpop d n w, .badd d n w,
    .bwait d n w, .waitt d n w]

/-! ### Lanterns -/

/-- Every Lantern instruction's opcode with its command (06 Table 6-4). -/
def lanternRows (d : Fin 4) (n : Fin 8) : List (Nat × Instr) :=
  [(0x01, .lntNop d n), (0x02, .lntEnd d n), (0x03, .lntSetrm d n), (0x04, .lntLane d n), (0x08, .lntLd d n), (0x09, .lntSt d n),
    (0x0A, .lntStn d n), (0x0B, .lntStk d n), (0x0C, .lntPrd d n), (0x0D, .lntPrdx d n), (0x10, .lntMov d n), (0x11, .lntTrn d n),
    (0x12, .lntBcr d n), (0x13, .lntBcc d n), (0x14, .lntLid d n), (0x15, .lntRix d n), (0x16, .lntSel d n), (0x20, .lntAdd d n),
    (0x21, .lntSub d n), (0x22, .lntMul d n), (0x23, .lntFma d n), (0x24, .lntMin d n), (0x25, .lntMax d n), (0x26, .lntAbs d n),
    (0x27, .lntNeg d n), (0x28, .lntDiv d n), (0x29, .lntSqrt d n), (0x2A, .lntAnd d n), (0x2B, .lntOr d n), (0x2C, .lntXor d n),
    (0x2D, .lntShl d n), (0x2E, .lntShr d n), (0x30, .lntCeq d n), (0x31, .lntClt d n), (0x32, .lntCle d n), (0x33, .lntCun d n),
    (0x38, .lntCvt d n), (0x40, .lntExp d n), (0x41, .lntLn d n), (0x42, .lntSigm d n), (0x43, .lntTanh d n), (0x44, .lntRcp d n),
    (0x45, .lntRsqrt d n), (0x50, .lntRed d n), (0x58, .lntCprs d n), (0x59, .lntXpnd d n)]

/-- In the RUN r of Lantern n of die d the instruction i comes to issue and passes the checks of 06 R154. -/
def lnIssues (s : State) (d n : Nat) (r : LnRun) (i : LnInsn) : Prop :=
  (cd s d).slewed = false ∧ (lantern s d n).run = some r ∧ lnLegal s d n r = true ∧ lnFetch s d n (lnAt r) = i

/-- The RUN r with the instruction i behind it: the next instruction of the lane program or of the tile program comes to
issue, with the counters of q. -/
def lnAfter (r q : LnRun) (i : LnInsn) : LnRun :=
  { r with
    pc := match r.lane with
      | some (_, k) => if k ≤ 1 then r.pc + 1 else r.pc
      | none => r.pc + 1,
    inChain := if r.lane = none then i.ch else r.inChain,
    lane := match r.lane with
      | some (j, k) => if k ≤ 1 then none else some (j + 1, k - 1)
      | none => none,
    sat := q.sat, flush := q.flush }

/-- The Lantern v after the instruction i of its RUN r has issued, with the tile registers, generators, flags and counters
that the Lantern w has: nothing else changes but where the RUN stands, LNT_LASTPC and LNT_STEPS. -/
def lnIssued (v w : Lantern) (r : LnRun) (i : LnInsn) : Prop :=
  let q := w.run.getD r
  w = { v with
    tile := w.tile, gens := w.gens, flags := v.flags ||| w.flags, dz := v.dz || w.dz,
    lastpc := if r.lane = none then BitVec.ofNat 12 r.pc else v.lastpc,
    steps := if r.lane = none ∧ r.inChain = false then (if v.steps = 0xFFFF_FFFF then v.steps else v.steps + 1) else v.steps,
    run := some (lnAfter r q i) } ∧
  r.sat ≤ q.sat ∧ r.flush ≤ q.flush

/-- Of the tile registers of v, w has register j holding `word` and every other unchanged. -/
def lnWrote (v w : Lantern) (j : Nat) (word : Nat → Nat) : Prop :=
  ∀ t k : Nat, t < 32 → k < 256 → lnWord w t k = if t = j then word k else lnWord v t k

/-! ### Names -/

/-- A name, seen from die d, of a Bell (bits = 8) or a queue (bits = 7) of that die (08 R192). -/
def nameHere (s : State) (d w bits : Nat) : Bool :=
  decide (w < 65536) && !nameBad s w bits && nameOn s d w && !targetIsolated s d (nameChip w) (nameDie w)

/-- A name, seen from die d, of a Bell or a queue of another die or chip that is not isolated (08 R192). -/
def nameFar (s : State) (d w bits : Nat) : Bool :=
  decide (w < 65536) && !nameBad s w bits && !nameOn s d w && !targetIsolated s d (nameChip w) (nameDie w)

/-- The endpoint of C-die d by which a request for what the name w names leaves: the link to its die, or to H for another chip
(10 R230, Table 10-2). -/
def nameEp (s : State) (d w : Nat) : Nat := epToward d (if nameChip w = ownChip s then nameDie w else 4)

/-- A request that endpoint e of a die of the package takes to send, for `who`: it is outstanding
and stands behind what the endpoint has to send; it is numbered as it leaves (10 R237). -/
def linkAsk (s : State) (e : Nat) (q : Ask) (who : Origin) : State :=
  sendAs s e (8 + e) who (mkTxn s q 0 0)

/-! ### Correct rounding (03 R65; 06 R148) -/

/-- The number that a finite pattern of format f stands for. -/
def finVal (f : FFmt) (x : Nat) : ℚ :=
  match unpack f x with
  | .fin s m e => (if s then -1 else 1) * m * 2 ^ e
  | _ => 0

/-- The finite number c, of pattern x, is the one that attribute rm takes for the exact value v. -/
def Nearest (f : FFmt) (rm : Nat) (v : ℝ) (x : Nat) : Prop :=
  let c : ℝ := finVal f x
  ∀ y : Nat, isFinite f y = true →
    let w : ℝ := finVal f y
    match rm with
    | 0 => |c - v| ≤ |w - v| ∧ (|c - v| = |w - v| → w = c ∨ x % 2 = 0)
    | 1 => |c - v| ≤ |w - v| ∧ (|c - v| = |w - v| → |w| ≤ |c|)
    | 2 => v ≤ c ∧ (v ≤ w → c ≤ w)
    | 3 => c ≤ v ∧ (w ≤ v → w ≤ c)
    | _ => |c| ≤ |v| ∧ (|w| ≤ |v| → |w| ≤ |c|)

/-- v, rounded under rm with no bound on the exponent, is too large for the format. -/
def Overflows (f : FFmt) (rm : Nat) (v : ℝ) : Prop :=
  let top : ℝ := 2 ^ (fEmax f + 1)
  let last : ℝ := top - 2 ^ (fEmax f - f.mb)
  match rm with
  | 0 | 1 => (last + top) / 2 ≤ |v|
  | 2 => last < v ∨ v ≤ -top
  | 3 => v < -last ∨ top ≤ v
  | _ => top ≤ |v|

/-- v, rounded under rm with no bound on the exponent, lies below the least normal number: tiny after rounding. -/
def Tiny (f : FFmt) (rm : Nat) (v : ℝ) : Prop :=
  let least : ℝ := 2 ^ fEmin f
  let below : ℝ := least - 2 ^ (fEmin f - f.mb - 1)
  match rm with
  | 0 | 1 => |v| < (below + least) / 2
  | 2 => -least < v ∧ v ≤ below
  | 3 => -below ≤ v ∧ v < least
  | _ => |v| < least

/-- r is the exact value v rounded once into format f under attribute rm, with what IEEE 754 then signals: overflow, inexact, and
underflow for a result that is both tiny and inexact. -/
def Rounded (f : FFmt) (rm : Nat) (v : ℝ) (r : Nat × Exc) : Prop :=
  let c : ℝ := finVal f r.1
  (Overflows f rm v → r.2 = { ov := true, nx := true } ∧
    (0 < v → r.1 = if rm = 3 ∨ rm = 4 then fMaxFin f false else fInf f false) ∧
    (v < 0 → r.1 = if rm = 2 ∨ rm = 4 then fMaxFin f true else fInf f true)) ∧
  (¬ Overflows f rm v → isFinite f r.1 = true ∧ r.1 < 2 ^ (1 + f.eb + f.mb) ∧ Nearest f rm v r.1 ∧
    (0 < v → fSign f r.1 = false) ∧ (v < 0 → fSign f r.1 = true) ∧
    r.2.nv = false ∧ r.2.dz = false ∧ r.2.ov = false ∧ (r.2.nx = true ↔ c ≠ v) ∧ (r.2.uf = true ↔ c ≠ v ∧ Tiny f rm v))

end Sys2Proof.Machine
end

