-- ==== Sys2Proof/Certificates/Slice0/Obligations.lean ====
section
/-! DEFINITION. The statements for the provers. Every statement is about all states; a die that 16 R376 has left unspecified is ruled out by
the statement's own hypotheses where it matters. -/

open Sys2Proof Sys2Proof.Machine

/-- 08 R179, R180: specifiers 0 to 7 name g0 to g7, which every window shares; 8 to 23 name w0 to w15 of the current window, and no
two windows share one. g0 reads 0 and discards writes. -/
def Obligations.SpireRegisterFile : Prop :=
  ∀ (v : Spire) (r q k : Nat) (x : Word), r < 24 → q < 24 → k < 8 → v.cwp < 8 →
    spReg v 0 = 0 ∧
    spReg { spSet v r x with cwp := k } q =
      (if q = r ∧ r ≠ 0 ∧ (r < 8 ∨ k = v.cwp) then x else spReg { v with cwp := k } q)

/-- 08 R191, Table 8-7. -/
def Obligations.SpireIntegerOps : Prop :=
  ∀ (s : State) (d : Fin 4) (n : Fin 32) (w : Word),
    ∀ e ∈ ([(.add d n w, .add, fun a b => a + b), (.sub d n w, .sub, fun a b => a - b),
        (.andR d n w, .and, fun a b => a &&& b), (.orR d n w, .or, fun a b => a ||| b),
        (.xorR d n w, .xor, fun a b => a ^^^ b), (.sll d n w, .sll, fun a b => a <<< (b.toNat % 32)),
        (.srl d n w, .srl, fun a b => a >>> (b.toNat % 32)), (.sra d n w, .sra, fun a b => a.sshiftRight (b.toNat % 32)),
        (.slt d n w, .slt, fun a b => if a.toInt < b.toInt then 1 else 0),
        (.sltu d n w, .sltu, fun a b => if a.toNat < b.toNat then 1 else 0),
        (.mul d n w, .mul, fun a b => BitVec.ofNat 32 (a.toNat * b.toNat)),
        (.mulh d n w, .mulh, fun a b => (a.signExtend 64 * b.signExtend 64).extractLsb' 32 32),
        (.mulhu d n w, .mulhu, fun a b => (a.setWidth 64 * b.setWidth 64).extractLsb' 32 32)] :
        List (Instr × SpOp × (Word → Word → Word))),
      spireIssues s d n w e.2.1 = true →
        let v := spire s d n
        let x := e.2.2 (spReg v (iRs1 w)) (spReg v (iRs2 w))
        exec e.1 s = .next (putSpire s d n { spSet v (iRd w) x with pc := v.pc + 4 })

/-- 08 R191. The rounding of an inexact signed quotient is not stated there (log entry 43). -/
def Obligations.SpireDivision : Prop :=
  (∀ (s : State) (d : Fin 4) (n : Fin 32) (w : Word),
    ∀ e ∈ ([(.div d n w, .div, aluDiv), (.rem d n w, .rem, aluRem), (.divu d n w, .divu, aluDivu),
        (.remu d n w, .remu, aluRemu)] : List (Instr × SpOp × (Word → Word → Word))),
      spireIssues s d n w e.2.1 = true →
        let v := spire s d n
        let x := e.2.2 (spReg v (iRs1 w)) (spReg v (iRs2 w))
        exec e.1 s = .next (putSpire s d n { spSet v (iRd w) x with pc := v.pc + 4 })) ∧
  (∀ a : Word, aluDiv a 0 = 0xFFFF_FFFF ∧ aluRem a 0 = a ∧ aluDivu a 0 = 0xFFFF_FFFF ∧ aluRemu a 0 = a) ∧
  aluDiv 0x8000_0000 0xFFFF_FFFF = 0x8000_0000 ∧ aluRem 0x8000_0000 0xFFFF_FFFF = 0 ∧
  (∀ a b : Word, b ≠ 0 → a = aluDiv a b * b + aluRem a b ∧ (aluRem a b).toInt.natAbs < b.toInt.natAbs) ∧
  (∀ a b : Word, b ≠ 0 → (aluDivu a b).toNat = a.toNat / b.toNat ∧ (aluRemu a b).toNat = a.toNat % b.toNat)

/-- 08 R195, Table 8-7. -/
def Obligations.SpireImmediateOps : Prop :=
  ∀ (s : State) (d : Fin 4) (n : Fin 32) (w : Word),
    let se : Word := (w.extractLsb' 0 16).signExtend 32
    let ze : Word := (w.extractLsb' 0 16).setWidth 32
    let sh : Nat := (w.extractLsb' 0 5).toNat
    ∀ e ∈ ([(.addi d n w, .addi, fun a => a + se), (.andi d n w, .andi, fun a => a &&& ze),
        (.ori d n w, .ori, fun a => a ||| ze), (.xori d n w, .xori, fun a => a ^^^ ze),
        (.slli d n w, .slli, fun a => a <<< sh), (.srli d n w, .srli, fun a => a >>> sh),
        (.srai d n w, .srai, fun a => a.sshiftRight sh), (.slti d n w, .slti, fun a => if a.toInt < se.toInt then 1 else 0),
        (.sltiu d n w, .sltiu, fun a => if a.toNat < se.toNat then 1 else 0), (.lui d n w, .lui, fun _ => ze <<< 16)] :
        List (Instr × SpOp × (Word → Word))),
      spireIssues s d n w e.2.1 = true →
        let v := spire s d n
        exec e.1 s = .next (putSpire s d n { spSet v (iRd w) (e.2.2 (spReg v (iRs1 w))) with pc := v.pc + 4 })

/-- 08 R190, Table 8-7. The result of FCLASS is a free value (log entry 21). -/
def Obligations.SpireFloatOps : Prop :=
  ∀ (s : State) (d : Fin 4) (n : Fin 32) (w : Word),
    let v := spire s d n
    let rm := v.rm.toNat
    let x := (spReg v (iRs1 w)).toNat
    let y := (spReg v (iRs2 w)).toNat
    let z := (spReg v (iRs3 w)).toNat
    ∀ e ∈ ([(.fadd d n w, .fadd, fAdd b32 rm x y), (.fsub d n w, .fsub, fSub b32 rm x y),
        (.fmul d n w, .fmul, fMul b32 rm x y), (.fdiv d n w, .fdiv, fDiv b32 rm x y), (.fsqrt d n w, .fsqrt, fSqrt b32 rm x),
        (.fmin d n w, .fmin, fMin b32 x y), (.fmax d n w, .fmax, fMax b32 x y),
        (.feq d n w, .feq, (b2n (fCeq b32 x y), cmpExc b32 x y)), (.flt d n w, .flt, (b2n (fClt b32 x y), cmpExc b32 x y)),
        (.fle d n w, .fle, (b2n (fCle b32 x y), cmpExc b32 x y)),
        (.fcvtWS d n w, .fcvtWS, intResult (fToInt rm (-2147483648) 2147483647 x)),
        (.fcvtWuS d n w, .fcvtWuS, intResult (fToInt rm 0 4294967295 x)),
        (.fcvtSW d n w, .fcvtSW, intToF b32 rm (spReg v (iRs1 w)).toInt), (.fcvtSWu d n w, .fcvtSWu, intToF b32 rm x),
        (.fclass d n w, .fclass, ((Config.fclass (spReg v (iRs1 w))).toNat, excNone)),
        (.fma d n w, .fma, fFma b32 rm x y z)] : List (Instr × SpOp × (Nat × Exc))),
      spireIssues s d n w e.2.1 = true →
        exec e.1 s = .next (putSpire s d n
          { spSet { v with fflags := v.fflags ||| excFcsr e.2.2.2 } (iRd w) (BitVec.ofNat 32 e.2.2.1) with pc := v.pc + 4 })

/-- 03 R65 and 08 R190, in binary32 patterns. -/
def Obligations.Binary32SpecialCases : Prop :=
  (∀ rm x y : Nat, isNaN b32 x ∨ isNaN b32 y →
    ∀ f ∈ [fAdd b32 rm x y, fSub b32 rm x y, fMul b32 rm x y, fDiv b32 rm x y],
      f = (quiet b32 (if isNaN b32 x then x else y), { nv := isSig b32 x || isSig b32 y })) ∧
  (∀ rm x y z : Nat, isNaN b32 x ∨ isNaN b32 y ∨ isNaN b32 z →
    fFma b32 rm x y z =
      (quiet b32 (if isNaN b32 x then x else if isNaN b32 y then y else z),
        { nv := isSig b32 x || isSig b32 y || isSig b32 z || (isZero b32 x && isInf b32 y) || (isInf b32 x && isZero b32 y) })) ∧
  (∀ rm x y : Nat, ((unpack b32 x = .inf false ∧ unpack b32 y = .inf true) ∨ (unpack b32 x = .inf true ∧ unpack b32 y = .inf false) →
      fAdd b32 rm x y = (0x7FC00000, { nv := true })) ∧
    ((isZero b32 x ∧ isInf b32 y) ∨ (isInf b32 x ∧ isZero b32 y) → fMul b32 rm x y = (0x7FC00000, { nv := true })) ∧
    ((isZero b32 x ∧ isZero b32 y) ∨ (isInf b32 x ∧ isInf b32 y) → fDiv b32 rm x y = (0x7FC00000, { nv := true }))) ∧
  (∀ x y : Nat, isNaN b32 x = true → isNaN b32 y = false →
    fMin b32 x y = (y, { nv := isSig b32 x }) ∧ fMax b32 x y = (y, { nv := isSig b32 x }) ∧
      fMin b32 y x = (y, { nv := isSig b32 x }) ∧ fMax b32 y x = (y, { nv := isSig b32 x })) ∧
  (∀ x y : Nat, isNaN b32 x ∨ isNaN b32 y →
    fCeq b32 x y = false ∧ fClt b32 x y = false ∧ fCle b32 x y = false ∧ cmpExc b32 x y = { nv := isSig b32 x || isSig b32 y }) ∧
  (∀ (rm : Nat) (lo hi : Int) (x : Nat) (s : Bool),
    (isNaN b32 x = true → fToInt rm lo hi x = (0, { nv := true })) ∧
    (unpack b32 x = .inf s → fToInt rm lo hi x = (if s then lo else hi, { nv := true })))

/-- 03 R65; 06 R148: full conformance, so a value that the format holds is written as it is and signals nothing, and every operation
on finite numbers gives its exact result rounded once. -/
def Obligations.LongFormatsExact : Prop :=
  ∀ f ∈ [b32, b16],
    (∀ (rm x : Nat) (s : Bool) (m : Nat) (e : Int),
      x < 2 ^ (1 + f.eb + f.mb) → unpack f x = .fin s m e → roundTo f rm s m e = (x, {})) ∧
    ∀ rm x y z : Nat, rm < 5 → x < 2 ^ (1 + f.eb + f.mb) → y < 2 ^ (1 + f.eb + f.mb) → z < 2 ^ (1 + f.eb + f.mb) →
      isFinite f x = true → isFinite f y = true → isFinite f z = true →
      let u : ℝ := finVal f x
      let v : ℝ := finVal f y
      let w : ℝ := finVal f z
      let s := fSign f x != fSign f y
      Rounded f rm (u + v) (fAdd f rm x y) ∧ Rounded f rm (u - v) (fSub f rm x y) ∧ Rounded f rm (u * v) (fMul f rm x y) ∧
      Rounded f rm (u * v + w) (fFma f rm x y z) ∧ (v ≠ 0 → Rounded f rm (u / v) (fDiv f rm x y)) ∧
      (0 ≤ u → Rounded f rm (Real.sqrt u) (fSqrt f rm x)) ∧
      (u + v = 0 → fSign f (fAdd f rm x y).1 = if fSign f x = fSign f y then fSign f x else decide (rm = 3)) ∧
      (u - v = 0 → fSign f (fSub f rm x y).1 = if fSign f x = fSign f y then decide (rm = 3) else fSign f x) ∧
      (u * v + w = 0 → fSign f (fFma f rm x y z).1 = if s = fSign f z then s else decide (rm = 3)) ∧
      fSign f (fMul f rm x y).1 = s ∧ (v ≠ 0 → fSign f (fDiv f rm x y).1 = s) ∧ (u = 0 → (fSqrt f rm x).1 = x) ∧
      (v = 0 → u ≠ 0 → fDiv f rm x y = (fInf f s, { dz := true })) ∧
      (v = 0 → u = 0 → fDiv f rm x y = (fNaN f, { nv := true })) ∧ (u < 0 → fSqrt f rm x = (fNaN f, { nv := true }))

/-- 08 R187, R188, Table 8-7. -/
def Obligations.SpireLocalLoads : Prop :=
  ∀ (s : State) (d : Fin 4) (n : Fin 32) (w : Word),
    ∀ e ∈ ([(.lw d n w, .lw, 4, fun bs => leWord bs),
        (.lh d n w, .lh, 2, fun bs => (BitVec.ofNat 16 (leNat bs)).signExtend 32),
        (.lhu d n w, .lhu, 2, fun bs => (BitVec.ofNat 16 (leNat bs)).setWidth 32),
        (.lb d n w, .lb, 1, fun bs => (BitVec.ofNat 8 (leNat bs)).signExtend 32),
        (.lbu d n w, .lbu, 1, fun bs => (BitVec.ofNat 8 (leNat bs)).setWidth 32)] :
        List (Instr × SpOp × Nat × (List Byte → Word))),
      let v := spire s d n
      let a := (spReg v (iRs1 w) + iSimm w).toNat
      spireIssues s d n w e.2.1 = true → a % e.2.2.1 = 0 → a + e.2.2.1 ≤ 0x10000 →
        exec e.1 s = .next (putSpire s d n
          { spSet v (iRd w) (e.2.2.2 (memBytes 0 (cd s d).spireMem (n.val * 0x10000 + a) e.2.2.1)) with pc := v.pc + 4 })

/-- 08 R187 to R189, Table 8-7. -/
def Obligations.SpireLocalStores : Prop :=
  ∀ (s : State) (d : Fin 4) (n : Fin 32) (w : Word),
    ∀ e ∈ ([(.sw d n w, .sw, 4), (.sh d n w, .sh, 2), (.sb d n w, .sb, 1)] : List (Instr × SpOp × Nat)),
      let v := spire s d n
      let a := (spReg v (iRs1 w) + iSimm w).toNat
      let bs := (List.range e.2.2).map (fun i => (spReg v (iRd w)).extractLsb' (8 * i) 8)
      spireIssues s d n w e.2.1 = true → a % e.2.2 = 0 → a + e.2.2 ≤ 0x10000 →
        exec e.1 s = .next (putCd s d { cd s d with
          spireMem := memPut 0 (cd s d).spireMem (n.val * 0x10000 + a) bs,
          spires := tabSet (cd s d).spires n { v with
            pc := v.pc + 4,
            stale := v.stale ++ (staleWords (cd s d) n a e.2.2).filter (fun x => !decide (x ∈ v.stale)) } })

/-- 00 R428: the byte at every address, after a write. -/
def Obligations.ByteMemoryReadAfterWrite : Prop :=
  ∀ (fill : Byte) (m : Mem) (a b : Nat) (bs : List Byte), memWf fill m = true →
    memWf fill (memPut fill m a bs) = true ∧
    memRead fill (memPut fill m a bs) b = (if a ≤ b ∧ b < a + bs.length then bs.getD (b - a) fill else memRead fill m b) ∧
    memBytes fill m a bs.length = (List.range bs.length).map (fun i => memRead fill m (a + i))

/-- 08 R184, R187, Tables 8-3 and 8-4. -/
def Obligations.SpireAccessPlaces : Prop :=
  ∀ (s : State) (d : Fin 4) (n : Fin 32) (w : Word),
    ∀ e ∈ ([(.lw d n w, .lw, 4, false, false), (.lh d n w, .lh, 2, true, false), (.lhu d n w, .lhu, 2, false, false),
        (.lb d n w, .lb, 1, true, false), (.lbu d n w, .lbu, 1, false, false), (.sw d n w, .sw, 4, false, true),
        (.sh d n w, .sh, 2, false, true), (.sb d n w, .sb, 1, false, true)] : List (Instr × SpOp × Nat × Bool × Bool)),
      let size := e.2.2.1
      let store := e.2.2.2.2
      let v := spire s d n
      let x := spReg v (iRs1 w) + iSimm w
      let a := x.toNat
      let c := cd s d
      let chip := s.nld.chip.toNat
      let trapped := fun (code : Nat) => { v with
        xpc := v.pc, xcwp := BitVec.ofNat 3 v.cwp, xcode := BitVec.ofNat 8 code, acause := 0, xcause := x, cwp := 7,
        pc := locWord c n (v.xbase.toNat * 128 + 4 * code) &&& 0xFFFF_FFFC }
      let acc := fun (dev : Nat) => ({
        rd := if store then 0 else iRd w, isStore := store, signed := e.2.2.2.1, size := size, addr := x,
        dev := BitVec.ofNat 48 dev, value := if store then spReg v (iRd w) else 0, held := false, answer := none } : MeshAcc)
      let access := fun (dev : Nat) => (meshGo (putSpire s d n { v with mesh := some (acc dev) }) d n (acc dev)).getD s
      spireIssues s d n w e.2.1 = true →
        (v.cwp ≠ 7 → a % size ≠ 0 → exec e.1 s = .next (putSpire s d n (trapped 4))) ∧
        (v.cwp ≠ 7 → a % size = 0 → 0x10000 ≤ a → a < 0x80000000 → ¬ (0x20000000 ≤ a ∧ a < 0x21800000) →
          ¬ (0x30000000 ≤ a ∧ a < 0x31000000) →
          let agent := d.val * 32 + n.val
          let mine := s.faults.addrLimits.find? (fun l => decide (l.agent = agent))
          let record : List Word := [BitVec.ofNat 32 (3 * 2 ^ 28 + 2 ^ 26 + 1),
            BitVec.ofNat 32 (2 ^ 24 + chip * 2 ^ 13 + d.val * 2 ^ 9 + n.val), 0, s.tb.extractLsb' 0 32, s.tb.extractLsb' 32 32, x, 0,
            BitVec.ofNat 32 (0x40 + n.val)]
          (mine = none →
            let u := raise { s with faults := { s.faults with addrLimits := s.faults.addrLimits ++ [⟨agent, s.tb, 0⟩] } } record
            exec e.1 s = .next (putSpire u d n (trapped 5))) ∧
          (∀ l, mine = some l → 1000000 ≤ (s.tb - l.last).toNat →
            let u := raise { s with faults := { s.faults with
              addrLimits := s.faults.addrLimits.map (fun y => if y.agent = agent then ⟨agent, s.tb, 0⟩ else y) } }
              (recMerge record l.waiting)
            exec e.1 s = .next (putSpire u d n (trapped 5))) ∧
          (∀ l, mine = some l → (s.tb - l.last).toNat < 1000000 →
            exec e.1 s = .next (putSpire { s with faults := { s.faults with
              addrLimits := s.faults.addrLimits.map (fun y => if y.agent = agent then { y with waiting := y.waiting + 1 } else y) } }
              d n (trapped 5)))) ∧
        (a % size = 0 → 0x20000000 ≤ a → a < 0x21800000 →
          let dev := chip * 2 ^ 45 + d.val * 2 ^ 41 + (a - 0x20000000)
          exec e.1 s = .next (access dev) ∧
          (c.vaultClearing = false → c.vaultErr = [] → exec e.1 s = .next (putCd s d { c with
            vault := if store then memPut 0 c.vault (a - 0x20000000) (natLe size (spReg v (iRd w)).toNat) else c.vault,
            spires := tabSet c.spires n.val { v with mesh := some { acc dev with
              answer := some (0, if store then 0 else leWord (memBytes 0 c.vault (a - 0x20000000) size)) } } }))) ∧
        (a % size = 0 → 0x30000000 ≤ a → a < 0x31000000 →
          exec e.1 s = .next (access (chip * 2 ^ 45 + d.val * 2 ^ 41 + 0xF00000000 + (a - 0x30000000)))) ∧
        (a % size = 0 → 0x80000000 ≤ a → exec e.1 s = .next (access (v.farseg.toNat * 2 ^ 31 + (a - 0x80000000))))

/-- 08 R188: a store completes when its target acknowledges it, a load when its data returns; an error answer raises ACCESS (08 R184,
10 R239), in window 7 a nested trap fault (08 R186). -/
def Obligations.SpireAccessAnswered : Prop :=
  ∀ (s : State) (d : Fin 4) (n : Fin 32) (m : MeshAcc) (x : Word),
    let v := spire s d n
    (cd s d).slewed = false → v.st = .running →
    let ext := loadExt m.size m.signed x
    let done := if m.isStore then { v with mesh := none, pc := v.pc + 4 } else { spSet v m.rd ext with mesh := none, pc := v.pc + 4 }
    (v.mesh = some { m with answer := some (0, x) } →
      exec (.meshAccessComplete d n) s = .next (putSpire s d n
        (if v.runBit then done else { done with st := .halted, hcause := 2, runBit := false, wait := none }))) ∧
    (∀ e ∈ ([(1, 0), (2, 2), (3, 1)] : List (BitVec 8 × BitVec 4)), v.mesh = some { m with answer := some (e.1, x) } →
      let src : Word := BitVec.ofNat 32 (2 ^ 24 + s.nld.chip.toNat * 2 ^ 13 + d.val * 2 ^ 9 + n.val)
      let u0 := putSpire s d n { v with mesh := none }
      let u := if e.1 = 3 then u0 else addrError u0 (d.val * 32 + n.val) src (BitVec.ofNat 32 (0x40 + n.val)) m.dev.toNat
      (v.cwp ≠ 7 →
        let trapped := { spire u d n with
          xpc := v.pc, xcwp := BitVec.ofNat 3 v.cwp, xcode := 5, acause := e.2, xcause := m.addr, cwp := 7,
          pc := locWord (cd u d) n (v.xbase.toNat * 128 + 20) &&& 0xFFFF_FFFC }
        exec (.meshAccessComplete d n) s = .next (putSpire u d n
          (if v.runBit then trapped else { trapped with st := .halted, hcause := 2, runBit := false, wait := none }))) ∧
      (v.cwp = 7 →
        let act := if s.faults.fesc then 3 else 1
        let rec7 : List Word := [BitVec.ofNat 32 (3 * 2 ^ 28 + 2 * 2 ^ 26 + 0x31), BitVec.ofNat 32 (act * 2 ^ 29 + src.toNat), 0,
          s.tb.extractLsb' 0 32, s.tb.extractLsb' 32 32, v.pc,
          BitVec.ofNat 32 (v.acause.toNat * 65536 + v.xcode.toNat * 256 + v.xcwp.toNat), v.xcause]
        let w := putSpire u d n { v with st := .halted, hcause := 4, runBit := false, wait := none, mesh := none }
        exec (.meshAccessComplete d n) s = .next (if s.faults.fesc then haltFault w 5 rec7 else raise w rec7)))

/-- 08 R195, Table 8-7. -/
def Obligations.SpireJumps : Prop :=
  ∀ (s : State) (d : Fin 4) (n : Fin 32) (w : Word),
    let v := spire s d n
    let off : Word := 4 * (w.extractLsb' 0 16).signExtend 32
    (∀ e ∈ ([(.beq d n w, .beq, fun a b => decide (a = b)), (.bne d n w, .bne, fun a b => decide (a ≠ b)),
        (.blt d n w, .blt, fun a b => decide (a.toInt < b.toInt)), (.bge d n w, .bge, fun a b => decide (b.toInt ≤ a.toInt)),
        (.bltu d n w, .bltu, fun a b => decide (a.toNat < b.toNat)),
        (.bgeu d n w, .bgeu, fun a b => decide (b.toNat ≤ a.toNat))] : List (Instr × SpOp × (Word → Word → Bool))),
      spireIssues s d n w e.2.1 = true →
        exec e.1 s = .next (putSpire s d n
          { v with pc := if e.2.2 (spReg v (iRd w)) (spReg v (iRs1 w)) then v.pc + off else v.pc + 4 })) ∧
    (spireIssues s d n w .call = true →
      exec (.call d n w) s = .next (putSpire s d n
        { spSet v 20 (v.pc + 4) with pc := v.pc + 4 * (w.extractLsb' 0 26).signExtend 32 })) ∧
    (spireIssues s d n w .jalr = true →
      exec (.jalr d n w) s = .next (putSpire s d n
        { spSet v (iRd w) (v.pc + 4) with
          pc := (spReg v (iRs1 w) + (w.extractLsb' 0 16).signExtend 32) &&& 0xFFFF_FFFC }))

/-- 08 R182. -/
def Obligations.SpireEnterLeave : Prop :=
  ∀ (s : State) (d : Fin 4) (n : Fin 32) (w : Word),
    ∀ e ∈ ([(.enter d n w, .enter, true), (.leave d n w, .leave, false)] : List (Instr × SpOp × Bool)),
      let v := spire s d n
      let up := e.2.2
      let f : Word := (w.extractLsb' 0 16).setWidth 32
      spireIssues s d n w e.2.1 = true → v.cwp < 7 → f.toNat % 8 = 0 → (if up then v.live < 7 else 1 < v.live) →
        ∃ v' : Spire,
          exec e.1 s = .next (putSpire s d n v') ∧
          v'.cwp = (if up then (v.cwp + 1) % 7 else (v.cwp + 6) % 7) ∧
          v' = { v with regs := v'.regs, cwp := v'.cwp, live := if up then v.live + 1 else v.live - 1, pc := v.pc + 4 } ∧
          ∀ k q : Nat, k < 8 → q < 24 →
            spReg { v' with cwp := k } q =
              (if q = 6 then (if up then spReg v 6 - f else spReg v 6 + f)
              else if k = v'.cwp ∧ 16 ≤ q ∧ q ≤ 19 then spReg v q
              else spReg { v with cwp := k } q)

/-- 08 R182, R184, R186; 17 R403. What a fault that halts the machine does beside its record is in WatchdogAndRecovery. -/
def Obligations.SpireWindowTraps : Prop :=
  ∀ (s : State) (d : Fin 4) (n : Fin 32) (w : Word),
    ∀ e ∈ ([(.enter d n w, .enter, true), (.leave d n w, .leave, false)] : List (Instr × SpOp × Bool)),
      let v := spire s d n
      let up := e.2.2
      let handler := fun (code : Nat) => locWord (cd s d) n (v.xbase.toNat * 128 + 4 * code) &&& 0xFFFF_FFFC
      let code := if up then 8 else 9
      let win := if up then (v.cwp + 8 - v.live) % 7 else (v.cwp + 6) % 7
      spireIssues s d n w e.2.1 = true →
        (v.cwp < 7 → (w.extractLsb' 0 16).toNat % 8 = 0 → v.live = (if up then 7 else 1) →
          exec e.1 s = .next (putSpire s d n { v with
            xpc := v.pc, xcwp := BitVec.ofNat 3 v.cwp, xcode := BitVec.ofNat 8 code, acause := 0,
            xcause := BitVec.ofNat 32 win, xwin := BitVec.ofNat 3 win, cwp := 7, pc := handler code,
            wtraps := satAdd v.wtraps 1 })) ∧
        (v.cwp < 7 → (w.extractLsb' 0 16).toNat % 8 ≠ 0 →
          exec e.1 s = .next (putSpire s d n { v with
            xpc := v.pc, xcwp := BitVec.ofNat 3 v.cwp, xcode := 2, acause := 0, xcause := w, cwp := 7, pc := handler 2 })) ∧
        (v.cwp = 7 →
          let src : Nat := 2 ^ 24 + s.nld.chip.toNat * 2 ^ 13 + d.val * 2 ^ 9 + n.val
          let xstat : Nat := v.acause.toNat * 65536 + v.xcode.toNat * 256 + v.xcwp.toNat
          let stopped := putSpire s d n { v with st := .halted, hcause := 3, runBit := false, wait := none, mesh := none }
          let rec_ := fun (act : Nat) => [BitVec.ofNat 32 (3 * 2 ^ 28 + 2 * 2 ^ 26 + 0x30), BitVec.ofNat 32 (act * 2 ^ 29 + src), 0,
            s.tb.extractLsb' 0 32, s.tb.extractLsb' 32 32, v.pc, BitVec.ofNat 32 xstat, v.xcause]
          (s.faults.fesc = false → exec e.1 s = .next (raise stopped (rec_ 1))) ∧
          (s.faults.fesc = true → exec e.1 s = .next (haltFault stopped 5 (rec_ 3)) ∧
            (haltFault stopped 5 (rec_ 3)).mstate = .halt))

/-- 08 R183, whole: in window 7 a misaligned address, one outside local memory and an illegal WSPILL or WFILL are nested trap faults
(HCAUSE 4), outside it both are illegal instructions (XCODE 2); no fault changes LIVE. `spReg` of a Spire with CWP k reads window k. -/
def Obligations.SpireWindowMoves : Prop :=
  ∀ (s : State) (d : Fin 4) (n : Fin 32) (w : Word),
    let v := spire s d n
    let a := (spReg v (iRs1 w)).toNat
    let k := v.xwin.toNat
    (v.cwp = 7 → k < 7 → a % 4 = 0 → a + 64 ≤ 0x10000 →
      (spireIssues s d n w .wspill = true → v.live ≠ 1 →
        exec (.wspill d n w) s = .next (putCd s d { cd s d with
          spireMem := memPut 0 (cd s d).spireMem (n.val * 0x10000 + a)
            (((List.range 16).map (fun r => natLe 4 (spReg { v with cwp := k } (8 + r)).toNat)).flatten),
          spires := tabSet (cd s d).spires n { v with
            pc := v.pc + 4, live := v.live - 1,
            stale := v.stale ++ (staleWords (cd s d) n a 64).filter (fun x => !decide (x ∈ v.stale)) } })) ∧
      (spireIssues s d n w .wfill = true → v.live ≠ 7 →
        ∃ v' : Spire,
          exec (.wfill d n w) s = .next (putSpire s d n v') ∧
          v' = { v with regs := v'.regs, pc := v.pc + 4, live := v.live + 1 } ∧
          ∀ j q : Nat, j < 8 → q < 24 →
            spReg { v' with cwp := j } q =
              (if j = k ∧ 8 ≤ q then leWord (memBytes 0 (cd s d).spireMem (n.val * 0x10000 + a + 4 * (q - 8)) 4)
              else spReg { v with cwp := j } q))) ∧
    (∀ e ∈ ([(.wspill d n w, .wspill, 1), (.wfill d n w, .wfill, 7)] : List (Instr × SpOp × Nat)),
      spireIssues s d n w e.2.1 = true →
        (v.cwp = 7 → v.live = e.2.2 ∨ k = 7 ∨ a % 4 ≠ 0 ∨ 0x10000 < a + 64 →
          ∃ t : State, exec e.1 s = .next t ∧ (spire t d n).live = v.live ∧ (spire t d n).regs = v.regs ∧
            (spire t d n).st = .halted ∧ (spire t d n).hcause = 4) ∧
        (v.cwp ≠ 7 → ∃ t : State, exec e.1 s = .next t ∧ (spire t d n).live = v.live ∧ (spire t d n).regs = v.regs ∧
          (spire t d n).xcode = 2 ∧ (spire t d n).cwp = 7))

/-- 08 R184, R189, R199, R201; for the pc after HALT see log entry 42. -/
def Obligations.SpireSystemInstructions : Prop :=
  ∀ (s : State) (d : Fin 4) (n : Fin 32) (w : Word),
    let v := spire s d n
    ∀ e ∈ ([(.nop d n w, .nop, { v with pc := v.pc + 4 }), (.iflush d n w, .iflush, { v with pc := v.pc + 4, stale := [] }),
        (.halt d n w, .halt, { v with pc := v.pc + 4, st := .halted, hcause := 1, runBit := false })] :
        List (Instr × SpOp × Spire)),
      (spireIssues s d n w e.2.1 = true → exec e.1 s = .next (putSpire s d n e.2.2)) ∧
      (spireAtBoundary s d n = true → v.pc.toNat < 0x10000 → locWord (cd s d) n (v.pc.toNat / 4 * 4) ≠ w →
        (v.pc.toNat / 4 * 4, w) ∉ v.stale → exec e.1 s = .next s) ∧
      (v.cwp = 7 →
        (spireIssues s d n w .rftR = true →
          exec (.rftR d n w) s = .next (putSpire s d n { v with pc := v.xpc, cwp := v.xcwp.toNat })) ∧
        (spireIssues s d n w .rftN = true →
          exec (.rftN d n w) s = .next (putSpire s d n { v with pc := v.xpc + 4, cwp := v.xcwp.toNat })))

/-- 08 R184 to R186, R196. Two clauses are the model's reading, log entry 42: a word that Table 8-7 does not list takes ILLEGAL on whatever
Spire row carries it, and a load or store of an address that nothing occupies in window 7 is an address error at once, so that beside the
nested fault it leaves the ADDR_ERROR record of `addrError`. -/
def Obligations.SpireTrapOrder : Prop :=
  ∀ (s : State) (d : Fin 4) (n : Fin 32) (w : Word),
    let v := spire s d n
    let trapped := fun (code : Nat) (xcause : Word) => putSpire s d n { v with
      xpc := v.pc, xcwp := BitVec.ofNat 3 v.cwp, xcode := BitVec.ofNat 8 code, acause := 0, xcause := xcause, cwp := 7,
      pc := locWord (cd s d) n (v.xbase.toNat * 128 + 4 * code) &&& 0xFFFF_FFFC }
    let runs := s.mstate = .run ∧ (cd s d).slewed = false ∧ v.st = .running ∧ v.mesh = none ∧ v.wait = none
    let due := v.ie = true ∧ v.cwp ≠ 7 ∧ v.tcmp.toNat ≤ s.tb.toNat
    let src : Nat := 2 ^ 24 + s.nld.chip.toNat * 2 ^ 13 + d.val * 2 ^ 9 + n.val
    let nested := fun (u : State) =>
      let act := if s.faults.fesc then 3 else 1
      let rec7 : List Word := [BitVec.ofNat 32 (3 * 2 ^ 28 + 2 * 2 ^ 26 + 0x31), BitVec.ofNat 32 (act * 2 ^ 29 + src), 0,
        s.tb.extractLsb' 0 32, s.tb.extractLsb' 32 32, v.pc,
        BitVec.ofNat 32 (v.acause.toNat * 65536 + v.xcode.toNat * 256 + v.xcwp.toNat), v.xcause]
      let t := putSpire u d n { v with st := .halted, hcause := 4, runBit := false, wait := none, mesh := none }
      if s.faults.fesc then haltFault t 5 rec7 else raise t rec7
    let a1 := (spReg v (iRs1 w)).toNat
    let a2 := (spReg v (iRs2 w)).toNat
    let ea := spReg v (iRs1 w) + iSimm w
    let special : List Nat :=
      [0x000, 0x001, 0x002, 0x003, 0x004, 0x005, 0x006, 0x008, 0x00A, 0x00B, 0x00C, 0x00D, 0x010, 0x011, 0x012]
    let moves := v.cwp = 7 ∧ v.xwin ≠ 7
    spDecode 0 = none ∧
    (∀ c ∈ spireRows d n w,
      (runs → due → exec c s = .next (trapped 0x0A 0)) ∧
      (runs → ¬ due → v.cwp ≠ 7 → 0x10000 ≤ v.pc.toNat → exec c s = .next (trapped 0x01 v.pc)) ∧
      (spireAtBoundary s d n = true → spireHolds s d n w = true → spDecode w = none → v.cwp ≠ 7 →
        exec c s = .next (trapped 0x02 w)) ∧
      (runs → v.cwp = 7 → 0x10000 ≤ v.pc.toNat → exec c s = .next (nested s)) ∧
      (spireAtBoundary s d n = true → spireHolds s d n w = true → spDecode w = none → v.cwp = 7 →
        exec c s = .next (nested s))) ∧
    (∀ e ∈ ([(.trap d n w, .trap, True, 0x10 + (w.extractLsb' 0 4).toNat, 0),
        (.rftR d n w, .rftR, v.cwp ≠ 7, 2, w), (.rftN d n w, .rftN, v.cwp ≠ 7, 2, w),
        (.wspill d n w, .wspill, v.cwp ≠ 7 ∨ v.live = 1 ∨ v.xwin = 7, 2, w),
        (.wspill d n w, .wspill, moves ∧ v.live ≠ 1 ∧ a1 % 4 ≠ 0, 4, spReg v (iRs1 w)),
        (.wspill d n w, .wspill, moves ∧ v.live ≠ 1 ∧ a1 % 4 = 0 ∧ 0x10000 < a1 + 64, 5, spReg v (iRs1 w)),
        (.wfill d n w, .wfill, v.cwp ≠ 7 ∨ v.live = 7 ∨ v.xwin = 7, 2, w),
        (.wfill d n w, .wfill, moves ∧ v.live ≠ 7 ∧ a1 % 4 ≠ 0, 4, spReg v (iRs1 w)),
        (.wfill d n w, .wfill, moves ∧ v.live ≠ 7 ∧ a1 % 4 = 0 ∧ 0x10000 < a1 + 64, 5, spReg v (iRs1 w)),
        (.rds d n w, .rds, iImm w ∉ special, 2, w),
        (.wrs d n w, .wrs, iImm w ∉ special ∨ (iImm w = 6 ∧ 4 < ((spReg v (iRd w)).extractLsb' 5 3).toNat), 2, w),
        (.qpush d n w, .qpush, a2 % 32 ≠ 0, 4, spReg v (iRs2 w)),
        (.qpush d n w, .qpush, a2 % 32 = 0 ∧ 0x10000 < a2 + 32, 5, spReg v (iRs2 w)),
        (.qpop d n w, .qpop, a2 % 64 ≠ 0, 4, spReg v (iRs2 w)),
        (.qpop d n w, .qpop, a2 % 64 = 0 ∧ 0x10000 < a2 + 64, 5, spReg v (iRs2 w)),
        (.lw d n w, .lw, ea.toNat % 4 ≠ 0, 4, ea), (.lh d n w, .lh, ea.toNat % 2 ≠ 0, 4, ea),
        (.lhu d n w, .lhu, ea.toNat % 2 ≠ 0, 4, ea), (.sw d n w, .sw, ea.toNat % 4 ≠ 0, 4, ea),
        (.sh d n w, .sh, ea.toNat % 2 ≠ 0, 4, ea)] : List (Instr × SpOp × Prop × Nat × Word)),
      spireIssues s d n w e.2.1 = true → e.2.2.1 →
        (v.cwp ≠ 7 → exec e.1 s = .next (trapped e.2.2.2.1 e.2.2.2.2)) ∧ (v.cwp = 7 → exec e.1 s = .next (nested s))) ∧
    (∀ e ∈ ([(.lw d n w, .lw, 4), (.lh d n w, .lh, 2), (.lhu d n w, .lhu, 2), (.lb d n w, .lb, 1), (.lbu d n w, .lbu, 1),
        (.sw d n w, .sw, 4), (.sh d n w, .sh, 2), (.sb d n w, .sb, 1)] : List (Instr × SpOp × Nat)),
      spireIssues s d n w e.2.1 = true → v.cwp = 7 → ea.toNat % e.2.2 = 0 → 0x10000 ≤ ea.toNat → ea.toNat < 0x80000000 →
        ¬ (0x20000000 ≤ ea.toNat ∧ ea.toNat < 0x21800000) → ¬ (0x30000000 ≤ ea.toNat ∧ ea.toNat < 0x31000000) →
        exec e.1 s = .next (nested (addrError s (d.val * 32 + n.val) (BitVec.ofNat 32 src) (BitVec.ofNat 32 (0x40 + n.val)) ea.toNat)))

/-- 08 R197, Table 8-8; 02 R49 for TBLO and TBHI. -/
def Obligations.SpireSpecialRegisters : Prop :=
  ∀ (s : State) (d : Fin 4) (n : Fin 32) (w : Word),
    let v := spire s d n
    let key := (d.val * 32 + n.val) * 16
    let x := spReg v (iRd w)
    let illegal := putSpire s d n { v with
      xpc := v.pc, xcwp := BitVec.ofNat 3 v.cwp, xcode := 2, acause := 0, xcause := w, cwp := 7,
      pc := locWord (cd s d) n (v.xbase.toNat * 128 + 8) &&& 0xFFFF_FFFC }
    (spireIssues s d n w .rds = true →
      (∀ e ∈ ([(0x000, BitVec.ofNat 32 ((if v.ie then 256 else 0) + v.live * 16 + v.cwp)), (0x001, v.xpc),
          (0x002, BitVec.ofNat 32 (v.acause.toNat * 65536 + v.xcode.toNat * 256 + v.xcwp.toNat)), (0x003, v.xcause),
          (0x004, v.xwin.setWidth 32), (0x005, v.xbase.setWidth 32 <<< 7),
          (0x006, BitVec.ofNat 32 (v.rm.toNat * 32 + v.fflags.toNat)), (0x008, v.farseg.setWidth 32),
          (0x00A, v.tcmp.extractLsb' 0 32), (0x00B, v.tcmp.extractLsb' 32 32), (0x00C, v.dl.extractLsb' 0 32),
          (0x00D, v.dl.extractLsb' 32 32), (0x011, tabGet 0 s.shadows key),
          (0x012, BitVec.ofNat 32 (s.nld.chip.toNat * 2 ^ 13 + d.val * 2 ^ 9 + n.val))] : List (Nat × Word)),
        iImm w = e.1 → exec (.rds d n w) s = .next (putSpire s d n { spSet v (iRd w) e.2 with pc := v.pc + 4 })) ∧
      (iImm w = 0x010 → exec (.rds d n w) s = .next
        { putSpire s d n { spSet v (iRd w) (s.tb.extractLsb' 0 32) with pc := v.pc + 4 } with
          shadows := tabSet s.shadows key (s.tb.extractLsb' 32 32) }) ∧
      (iImm w ∉ [0x000, 0x001, 0x002, 0x003, 0x004, 0x005, 0x006, 0x008, 0x00A, 0x00B, 0x00C, 0x00D, 0x010, 0x011, 0x012] →
        v.cwp ≠ 7 → exec (.rds d n w) s = .next illegal)) ∧
    (spireIssues s d n w .wrs = true →
      (∀ e ∈ ([(0x000, { v with ie := x.getLsbD 8 }), (0x001, { v with xpc := x }),
          (0x002, { v with acause := x.extractLsb' 16 4, xcode := x.extractLsb' 8 8, xcwp := x.extractLsb' 0 3 }),
          (0x003, { v with xcause := x }), (0x004, { v with xwin := x.extractLsb' 0 3 }),
          (0x005, { v with xbase := x.extractLsb' 7 9 }), (0x008, { v with farseg := x.extractLsb' 0 17 }),
          (0x00A, { v with tcmp := v.tcmp.extractLsb' 32 32 ++ x }), (0x00B, { v with tcmp := x ++ v.tcmp.extractLsb' 0 32 }),
          (0x00C, { v with dl := v.dl.extractLsb' 32 32 ++ x }), (0x00D, { v with dl := x ++ v.dl.extractLsb' 0 32 }),
          (0x010, v), (0x011, v), (0x012, v)] : List (Nat × Spire)),
        iImm w = e.1 → exec (.wrs d n w) s = .next (putSpire s d n { e.2 with pc := v.pc + 4 })) ∧
      (iImm w = 0x006 → (x.extractLsb' 5 3).toNat ≤ 4 → exec (.wrs d n w) s =
        .next (putSpire s d n { v with rm := x.extractLsb' 5 3, fflags := x.extractLsb' 0 5, pc := v.pc + 4 })) ∧
      (iImm w = 0x006 → 4 < (x.extractLsb' 5 3).toNat → v.cwp ≠ 7 → exec (.wrs d n w) s = .next illegal) ∧
      (iImm w ∉ [0x000, 0x001, 0x002, 0x003, 0x004, 0x005, 0x006, 0x008, 0x00A, 0x00B, 0x00C, 0x00D, 0x010, 0x011, 0x012] →
        v.cwp ≠ 7 → exec (.wrs d n w) s = .next illegal))

/-- 08 R192, R193; 09 R219. `enterEntry` and `popEntry` are what a queue does with an entry; other statements say what that is. That a
push which waits, or goes out over the links, keeps the 32 bytes that its buffer held at issue is log entry 42 (the model's reading). -/
def Obligations.SpireQueueOperations : Prop :=
  ∀ (s : State) (d : Fin 4) (n : Fin 32) (w : Word),
    let v := spire s d n
    let name := (spReg v (iRs1 w)).toNat
    let a := (spReg v (iRs2 w)).toNat
    let k := name / 512 % 16
    let q := name % 128
    let rd := fun (x : Word) => { spSet v (iRd w) x with pc := v.pc + 4 }
    let good := nameHere s d name 7
    let waiting := fun (kind : SpWaitKind) (far : Bool) => { v with
      st := .waiting,
      wait := some { kind := kind, rd := iRd w, name := BitVec.ofNat 16 name, addr := spReg v (iRs2 w), target := 0,
                     dl := if w.getLsbD 1 then some v.dl else none, remote := far, abandon := 0 } }
    let waits := fun (kind : SpWaitKind) => waiting kind false
    (spireIssues s d n w .qpush = true → a % 32 = 0 → a + 32 ≤ 0x10000 →
      let body := (List.range 8).map (fun i => locWord (cd s d) n (a + 4 * i))
      let hdr1 := BitVec.ofNat 32 (2 ^ 16 + s.nld.chip.toNat * 2 ^ 13 + d.val * 2 ^ 9 + n.val)
      (good = true → (cd s k).slewed = false → (cd s k).vaultClearing = false → (queue s k q).en = true →
        (queue s k q).pushes = [] → (queue s k q).pops = [] → (queue s k q).occ < 2 ^ (queue s k q).ldepth.toNat →
        exec (.qpush d n w) s = .next (putSpire (enterEntry s k q 0x10000000 hdr1 body) d n (rd 0))) ∧
      (good = true → (queue s k q).en = true → (cd s k).vaultClearing = false →
        2 ^ (queue s k q).ldepth.toNat ≤ (queue s k q).occ → w.getLsbD 0 = true →
        exec (.qpush d n w) s = .next (putSpire s d n (rd 1))) ∧
      (∀ (p : Push) (e : Fin 4) (j : Fin 32) (u : State), good = true → (cd s k).slewed = false → (queue s k q).en = true →
        (cd s k).vaultClearing = false → (queue s k q).pops = [] → (queue s k q).pushes = [p] → p.who = .spire e j → ¬ (e = d ∧ j = n) →
        (queue s k q).occ + 1 = 2 ^ (queue s k q).ldepth.toNat → w.getLsbD 0 = true →
        exec (.queuePushAdmit ⟨k % 4, by omega⟩ ⟨q, by omega⟩) s = .next u →
        exec (.qpush d n w) s = .next (putSpire u d n (rd 1))) ∧
      (good = true → (cd s k).slewed = false → (queue s k q).en = true → (cd s k).vaultClearing = true →
        exec (.qpush d n w) s = .next (setQueue (putSpire s d n (waits .qpush)) k q { queue s k q with
          pushes := (queue s k q).pushes ++ [⟨.spire d n, 0x10000000, hdr1, body⟩] })) ∧
      (good = true → (cd s k).slewed = false → (queue s k q).en = true → 2 ^ (queue s k q).ldepth.toNat ≤ (queue s k q).occ →
        w.getLsbD 0 = false →
        exec (.qpush d n w) s = .next (setQueue (putSpire s d n (waits .qpush)) k q { queue s k q with
          pushes := (queue s k q).pushes ++ [⟨.spire d n, 0x10000000, hdr1, body⟩] }))) ∧
    (spireIssues s d n w .qpop = true → a % 64 = 0 → a + 64 ≤ 0x10000 →
      (∀ bs t, good = true → (queue s k q).en = true → (queue s k q).stopped = false → (queue s k q).occ ≠ 0 →
        (queue s k q).pops = [] → (cd s k).slewed = false → (cd s k).vaultClearing = false → popEntry s k q = .ok (bs, t) →
        exec (.qpop d n w) s = .next (putCd t d { cd t d with
          spireMem := memPut 0 (cd s d).spireMem (n.val * 0x10000 + a) bs,
          spires := tabSet (cd s d).spires n { rd 0 with
            stale := v.stale ++ (staleWords (cd s d) n a bs.length).filter (fun x => !decide (x ∈ v.stale)) } })) ∧
      (good = true → (queue s k q).en = true → (queue s k q).occ = 0 → w.getLsbD 0 = true →
        exec (.qpop d n w) s = .next (putSpire s d n (rd 2))) ∧
      (good = true → (queue s k q).en = true → (queue s k q).stopped = true ∨ (queue s k q).pops ≠ [] → w.getLsbD 0 = true →
        exec (.qpop d n w) s = .next (putSpire s d n (rd 2))) ∧
      (good = true → (cd s k).slewed = false → (queue s k q).en = true →
        (queue s k q).occ = 0 ∨ (queue s k q).stopped = true ∨ (queue s k q).pops ≠ [] → w.getLsbD 0 = false →
        exec (.qpop d n w) s = .next (setQueue (putSpire s d n (waits .qpop)) k q
          { queue s k q with pops := (queue s k q).pops ++ [.spire d n] }))) ∧
    (∀ e ∈ ([(.qpush d n w, .qpush, 32), (.qpop d n w, .qpop, 64)] : List (Instr × SpOp × Nat)),
      spireIssues s d n w e.2.1 = true → a % e.2.2 = 0 → a + e.2.2 ≤ 0x10000 →
        (nameBad s name 7 = true ∨ 65536 ≤ name ∨ (good = true ∧ (queue s k q).en = false) →
          exec e.1 s = .next (putSpire s d n (rd 6))) ∧
        (name < 65536 → nameBad s name 7 = false → targetIsolated s d (nameChip name) k = true →
          exec e.1 s = .next (putSpire s d n (rd 5)))) ∧
    (∀ e ∈ ([(.qpush d n w, .qpush, SpWaitKind.qpush, 32, 5, 32, memBytes 0 (cd s d).spireMem (n.val * 0x10000 + a) 32),
        (.qpop d n w, .qpop, SpWaitKind.qpop, 64, 6, 0, [])] :
        List (Instr × SpOp × SpWaitKind × Nat × Nat × Nat × List Byte)),
      spireIssues s d n w e.2.1 = true → a % e.2.2.2.1 = 0 → a + e.2.2.2.1 ≤ 0x10000 → nameFar s d name 7 = true →
        let ask : Ask := {
          kind := e.2.2.2.2.1, tryB := w.getLsbD 0, dl := if w.getLsbD 1 then some v.dl else none, src := 0x40 + n.val, die := d.val,
          addr := (name / 8192 % 8) * 2 ^ 45 + k * 2 ^ 41 + 0x600000000 + q * 0x200, len := e.2.2.2.2.2.1,
          payload := e.2.2.2.2.2.2 }
        (epOpen s (nameEp s d name) = true →
          exec e.1 s = .next (linkAsk (putSpire s d n (waiting e.2.2.1 true)) (nameEp s d name) ask (.spire d n))) ∧
        (epOpen s (nameEp s d name) = false → exec e.1 s = .next (putSpire s d n (rd 5))))

/-- 08 R192, R193; 09 R205. That STATE stays RUNNING while a BADD is under way is the model's reading, log entry 42. -/
def Obligations.SpireBellOperations : Prop :=
  ∀ (s : State) (d : Fin 4) (n : Fin 32) (w : Word),
    let v := spire s d n
    let name := (spReg v (iRs1 w)).toNat
    let x := spReg v (iRs2 w)
    let k := name / 512 % 16
    let b := name % 256
    let rd := fun (y : Word) => { spSet v (iRd w) y with pc := v.pc + 4 }
    let good := nameHere s d name 8
    let met := decide (((bell s k b).count - x).toNat < 2 ^ 31)
    (spireIssues s d n w .badd = true → good = true → (cd s k).slewed = false → (bell s k b).poisoned = false →
      exec (.badd d n w) s = .next (putSpire (setBell s k b { bell s k b with
        count := (bell s k b).count + x,
        waiters := (bell s k b).waiters.map (fun y =>
          if ((bell s k b).count + x - y.target).toNat < 2 ^ 31 then { y with sat := true } else y) }) d n (rd 0))) ∧
    (spireIssues s d n w .bwait = true → good = true → (bell s k b).poisoned = false →
      (met = true → exec (.bwait d n w) s = .next (putSpire s d n (rd 0))) ∧
      (met = false → w.getLsbD 0 = true → exec (.bwait d n w) s = .next (putSpire s d n (rd 2))) ∧
      (met = false → w.getLsbD 0 = false → (cd s k).slewed = false →
        exec (.bwait d n w) s = .next (setBell
          (putSpire s d n { v with
            st := .waiting,
            wait := some { kind := .bwait, rd := iRd w, name := BitVec.ofNat 16 name, addr := 0, target := 0,
                           dl := if w.getLsbD 1 then some v.dl else none, remote := false, abandon := 0 } })
          k b { bell s k b with waiters := (bell s k b).waiters ++ [⟨.spire d n, x, false⟩] }))) ∧
    (∀ e ∈ ([(.badd d n w, .badd), (.bwait d n w, .bwait)] : List (Instr × SpOp)), spireIssues s d n w e.2 = true →
      (good = true → (bell s k b).poisoned = true → exec e.1 s = .next (putSpire s d n (rd 4))) ∧
      (nameBad s name 8 = true ∨ 65536 ≤ name → exec e.1 s = .next (putSpire s d n (rd 6))) ∧
      (name < 65536 → nameBad s name 8 = false → targetIsolated s d (nameChip name) k = true →
        exec e.1 s = .next (putSpire s d n (rd 5)))) ∧
    (∀ e ∈ ([(.badd d n w, .badd, SpWaitKind.badd, 3, SpState.running), (.bwait d n w, .bwait, SpWaitKind.bwait, 4, SpState.waiting)] :
        List (Instr × SpOp × SpWaitKind × Nat × SpState)),
      spireIssues s d n w e.2.1 = true → nameFar s d name 8 = true →
        let held := decide (e.2.2.2.1 = 4)
        let ask : Ask := {
          kind := e.2.2.2.1, tryB := held && w.getLsbD 0, dl := if held && w.getLsbD 1 then some v.dl else none,
          src := 0x40 + n.val, die := d.val, addr := (name / 8192 % 8) * 2 ^ 45 + k * 2 ^ 41 + 0x500000000 + b * 0x100,
          operand := x }
        (epOpen s (nameEp s d name) = true →
          exec e.1 s = .next (linkAsk
            (putSpire s d n { v with
              st := e.2.2.2.2,
              wait := some { kind := e.2.2.1, rd := iRd w, name := BitVec.ofNat 16 name, addr := 0, target := 0,
                             dl := if w.getLsbD 1 then some v.dl else none, remote := true, abandon := 0 } })
            (nameEp s d name) ask (.spire d n))) ∧
        (epOpen s (nameEp s d name) = false → exec e.1 s = .next (putSpire s d n (rd 5))))

/-- 08 R193, R194, 10 R240; for TRY on WAITT see log entry 42. -/
def Obligations.SpireWaitsEnd : Prop :=
  ∀ (s : State) (d : Fin 4) (n : Fin 32) (w : Word),
    let v := spire s d n
    let t : Time := spReg v (iRs2 w) ++ spReg v (iRs1 w)
    let timer := { v with
      xpc := v.pc, xcwp := BitVec.ofNat 3 v.cwp, xcode := 10, acause := 0, xcause := 0, cwp := 7,
      pc := locWord (cd s d) n (v.xbase.toNat * 128 + 40) &&& 0xFFFF_FFFC }
    let ended := fun (r : Nat) (x : Word) => { spSet v r x with pc := v.pc + 4, st := .running, wait := none }
    (spireIssues s d n w .waitt = true →
      (t.toNat ≤ s.tb.toNat → exec (.waitt d n w) s = .next (putSpire s d n { spSet v (iRd w) 0 with pc := v.pc + 4 })) ∧
      (s.tb.toNat < t.toNat → w.getLsbD 0 = true →
        exec (.waitt d n w) s = .next (putSpire s d n { spSet v (iRd w) 2 with pc := v.pc + 4 })) ∧
      (s.tb.toNat < t.toNat → w.getLsbD 0 = false →
        exec (.waitt d n w) s = .next (putSpire s d n { v with
          st := .waiting,
          wait := some { kind := .waitt, rd := iRd w, name := 0, addr := 0, target := t,
                         dl := if w.getLsbD 1 then some v.dl else none, remote := false, abandon := 0 } }))) ∧
    (∀ x : SpWait, (cd s d).slewed = false → v.st = .waiting → v.wait = some x → x.abandon = 0 →
      (x.kind = .waitt → x.target.toNat ≤ s.tb.toNat →
        exec (.waittReached d n) s = .next (putSpire s d n (ended x.rd 0))) ∧
      (∀ y : Time, x.dl = some y → y.toNat ≤ s.tb.toNat → x.remote = false →
        (x.kind = .waitt → exec (.deadlineTimeout d n) s = .next (putSpire (withdraw s (.spire d n)) d n
          (ended x.rd (if x.target.toNat ≤ s.tb.toNat then 0 else 3)))) ∧
        (x.kind = .qpop → exec (.deadlineTimeout d n) s = .next (putSpire (withdraw s (.spire d n)) d n (ended x.rd 3))) ∧
        (x.kind = .bwait → exec (.deadlineTimeout d n) s = .next (putSpire (withdraw s (.spire d n)) d n (ended x.rd
          (if (bell s (x.name.toNat / 512 % 16) (x.name.toNat % 256)).waiters.any (fun b => b.who == .spire d n && b.sat) then 0
            else 3)))) ∧
        (x.kind = .qpush → queTakes s (x.name.toNat / 512 % 16) (x.name.toNat % 128) = false →
          exec (.deadlineTimeout d n) s = .next (putSpire (withdraw s (.spire d n)) d n (ended x.rd 3))) ∧
        (x.kind = .qpush →
          let t := admitAll s (x.name.toNat / 512 % 16) (x.name.toNat % 128)
          (spire t d n).wait = none → exec (.deadlineTimeout d n) s = .next t)) ∧
      (x.kind ≠ .waitt → s.mstate = .run → v.ie = true → v.cwp ≠ 7 → v.tcmp.toNat ≤ s.tb.toNat →
        (heldBy s (.spire d n) = true → v.mesh = none →
          exec (.timer d n) s = .next (putSpire (withdraw s (.spire d n)) d n
            (if heldMet s (.spire d n) then
              let c := ended x.rd 0
              { c with
                xpc := v.pc + 4, xcwp := BitVec.ofNat 3 v.cwp, xcode := 10, acause := 0, xcause := 0, cwp := 7,
                pc := locWord (cd s d) n (v.xbase.toNat * 128 + 40) &&& 0xFFFF_FFFC }
            else { timer with st := .running, wait := none }))) ∧
        (∀ (p : Nat) (o : Outst), heldBy s (.spire d n) = false → findAsk s (.spire d n) = some (p, o) → o.sent = true →
          exec (.timer d n) s = .next (sendTxn (putSpire s d n { v with wait := some { x with abandon := 1 } }) o.ep
            (cancelTxn s o)))) ∧
      (x.kind = .waitt → s.mstate = .run → v.ie = true → v.cwp ≠ 7 → v.tcmp.toNat ≤ s.tb.toNat →
        exec (.timer d n) s = .next (putSpire s d n { timer with st := .running, wait := none }))) ∧
    (∀ (x : SpWait) (st : Nat), (cd s d).slewed = false → v.wait = some x → x.abandon = 3 → st = stCANCELLED ∨ st = stISOLATED →
      spireDone s d n st [] = putSpire s d n { v with st := .halted, hcause := 5, runBit := false, wait := none, mesh := none }) ∧
    (s.mstate = .run → (cd s d).slewed = false → v.st = .running → v.mesh = none → v.wait = none → v.ie = true → v.cwp ≠ 7 →
      v.tcmp.toNat ≤ s.tb.toNat → exec (.timer d n) s = .next (putSpire s d n timer))

/-- 08 R199; R198 for SPR_WTRAPS; 00 R7. That RUN = 1 written outside RUN reads back and starts the Spire as RUN is entered is log entry
57, that HCAUSE reads 0 again after the start and that RUN = 0 leaves a HELD or HALTED Spire as it is are log entry 71 (the model's
readings). -/
def Obligations.SpireStartStop : Prop :=
  ∀ (s : State) (d : Fin 4) (n : Fin 32), (cd s d).slewed = false →
    let v := spire s d n
    let stopped := { v with st := .halted, hcause := 2, runBit := false, wait := none, mesh := none }
    (regsUp s = true → exec (.sprWtrapsRead d n) s =
      .next (putSpire { s with outputs := .read v.wtraps :: s.outputs } d n { v with wtraps := 0 })) ∧
    (s.mstate = .run →
      (v.st = .held ∨ v.st = .halted → exec (.sprRunStart d n) s = .next (putSpire s d n { v with
        st := .running, runBit := true, hcause := 0, pc := v.entry.setWidth 32 <<< 2, cwp := 0, live := 1, ie := false, rm := 0,
        fflags := 0, tcmp := 0xFFFF_FFFF_FFFF_FFFF, xbase := v.xbaserst, wait := none, mesh := none })) ∧
      (v.st = .running ∨ v.st = .waiting → exec (.sprRunStart d n) s = .next (putSpire s d n v))) ∧
    (regsUp s = false → exec (.sprRunStart d n) s = .next s ∧ exec (.sprRunStop d n) s = .next s) ∧
    (s.mstate = .boot ∨ s.mstate = .halt →
      (v.st = .held ∨ v.st = .halted → exec (.sprRunStart d n) s = .next (putSpire s d n { v with runBit := true })) ∧
      (v.st = .running ∨ v.st = .waiting → exec (.sprRunStart d n) s = .next (putSpire s d n v))) ∧
    (regsUp s = true →
      ((v.st = .running ∧ v.mesh = none ∧ v.wait = none) ∨
          (v.st = .waiting ∧ v.wait.any (fun x => decide (x.kind = .waitt)) = true) →
        exec (.sprRunStop d n) s = .next (putSpire s d n stopped)) ∧
      (v.st = .running → v.mesh ≠ none → exec (.sprRunStop d n) s = .next (putSpire s d n { v with runBit := false })) ∧
      (v.st = .held ∨ v.st = .halted → exec (.sprRunStop d n) s = .next (putSpire s d n { v with runBit := false })) ∧
      (∀ x : SpWait, v.st = .waiting → v.wait = some x → x.kind ≠ .waitt → x.abandon = 0 → heldBy s (.spire d n) = true →
        heldMet s (.spire d n) = false →
        exec (.sprRunStop d n) s = .next (putSpire (withdraw s (.spire d n)) d n stopped)))

/-- 08 R195, R196, Tables 8-6 and 8-7. -/
def Obligations.SpireWordsRoundTrip : Prop :=
  (∀ (i : SpOp) (a : SpArgs), spArgsOk i a = true →
    spDecode (spEncode i a) = some i ∧
    (let w := spEncode i a
     match (spForm i).1 with
     | .b => iRd w = a.rs1.toNat ∧ iRs1 w = a.rs2.toNat ∧ w.extractLsb' 0 16 = a.imm
     | .j => w.extractLsb' 0 26 = a.off
     | .r4 => iRd w = a.rd.toNat ∧ iRs1 w = a.rs1.toNat ∧ iRs2 w = a.rs2.toNat ∧ iRs3 w = a.rs3.toNat
     | .r2 | .rb | .r1 | .r0 => iRd w = a.rd.toNat ∧ iRs1 w = a.rs1.toNat ∧ iRs2 w = a.rs2.toNat
     | .rq => iRd w = a.rd.toNat ∧ iRs1 w = a.rs1.toNat ∧ iRs2 w = a.rs2.toNat ∧ iTry w = a.tryB ∧ iDl w = a.dl
     | .i2 | .i1 | .ia | .ii => iRd w = a.rd.toNat ∧ iRs1 w = a.rs1.toNat ∧ w.extractLsb' 0 16 = a.imm)) ∧
  (∀ (w : Word) (i : SpOp), spDecode w = some i → ∃ a : SpArgs, spArgsOk i a = true ∧ spEncode i a = w)

/-- Every command c and state s; the idle step is log entry 4. -/
def Obligations.StepRunsFrontCommand : Prop :=
  (∀ (c : Instr) (rest : List Instr) (s : State), s.pending = c :: rest → step s = exec c { s with pending := rest }) ∧
  (∀ s : State, s.pending = [] → step s = .next (idleTick s))

/-- The reset values that the spec gives. -/
def Obligations.ResetState : Prop :=
  let s := State.reset
  s.pending = [] ∧ s.mstate = .reset ∧ s.tb = 0 ∧ s.power.rstcause = 1 ∧ s.faults.head = 0 ∧ s.faults.tail = 0 ∧
  s.faults.held = [] ∧ s.power.vreq = [30, 30, 30, 30] ∧ s.power.vapp = [30, 30, 30, 30] ∧ s.power.capE = [50, 50, 50, 50] ∧
  s.power.capT = [50, 50, 50, 50] ∧ s.power.peak = 0x800 ∧ s.f.st = .rsafe ∧ s.memOk = true ∧ s.tbOk = true ∧
  s.queuesOk = true ∧ s.logOk = true ∧ s.windowsOk = true ∧ s.tokensOk = true ∧
  (∀ d : Fin 4, (∀ n : Fin 32, (spire s d n).st = .held ∧ (∀ r : Fin 24, spReg (spire s d n) r = 0) ∧
      (spire s d n).tcmp = 0xFFFF_FFFF_FFFF_FFFF ∧ (spire s d n).live = 1 ∧ (spire s d n).cwp = 0 ∧ (spire s d n).xbase = 0) ∧
    (∀ b : Fin 256, (bell s d b).count = 0 ∧ (bell s d b).poisoned = false) ∧ (∀ q : Fin 128, (queue s d q).en = false)) ∧
  (∀ n : Fin 16, (session s n).owner = none)

/-- 02 R46, R47, R49, R52, R53; 10 R250; 11 R260; 13 R323; 16 R376. That an idle step is an edge is log entry 4, the credits of both halves of a pair log
entry 54, and F's early watchdog log entry 27 (the model's choices). -/
def Obligations.TimeBase : Prop :=
  ∀ s : State,
    (s.pending = [] → s.tbStarted = true → s.refclk = true → s.mstate ≠ .reset →
      ∃ t : State, step s = .next t ∧
        t = { s with
          tb := if s.tb = 0xFFFF_FFFF_FFFF_FFFA then 0 else s.tb + 10, nld := { s.nld with eps := t.nld.eps }, free := t.free } ∧
        (∀ e : Nat, (e < 12 → (cd s (e / 3)).slewed = false) →
          endp t e = endp { s with nld := { s.nld with eps := stallTick s.nld.eps } } e) ∧
        (∀ e : Nat, e < 12 → (cd s (e / 3)).slewed = true → tabFind? s.nld.eps e ≠ none → endp t e = slewedEndp (3 * s.free + e)) ∧
        ((∀ d : Fin 4, (cd s d).slewed = false) → t.free = s.free)) ∧
    (∀ e : Nat, endp { s with nld := { s.nld with eps := stallTick s.nld.eps } } e =
      { endp s e with cstall := if (endp s e).st = .up ∧ (∃ f ∈ (endp s e).txq,
        (endp s e).credits.getD f.vc 0 < if f.fk = 3 ∧ ¬ (17 ≤ e ∧ e < 21) then 2 else 1) then satAdd (endp s e).cstall 1 else (endp s e).cstall }) ∧
    (s.mstate ≠ .reset → s.tbStarted = false → s.refclk = true →
      exec .timeBaseStart s = .next { s with tbStarted := true, tb := 10 }) ∧
    (let back := { s with refclk := true, f := { s.f with
       wdLoose := s.f.wdLoose || !s.refclk, diLoose := if s.refclk then s.f.diLoose else 0xFF } }
     exec .refclkReturn s = .next (s.host.stallQ.foldl (fun t x => hostRetry t x.1 x.2) back)) ∧
    (s.mstate = .reset → exec .refclkLost s = .next { s with refclk := false }) ∧
    (s.mstate ≠ .reset → s.refclk = false → exec .refclkLost s = .next (clockLostOn s [0, 1, 2, 3, 4])) ∧
    (s.mstate = .boot ∨ s.mstate = .safe → s.refclk = true → (∀ d : Fin 4, (cd s d).slewed = false) →
      ∃ t : State, exec .refclkLost s = .next t ∧ t.refclk = false ∧ t.tb = s.tb ∧ t.mstate = s.mstate ∧ t.tokenHeld = [] ∧
        (∀ d : Fin 5, sysDie t d = { sysDie s d with
          refclkLost := true, speedBad := spoil (sysDie s d).speedBad (s.tb.toNat / 1000) })) ∧
    (s.mstate = .run ∨ s.mstate = .halt → s.refclk = true →
      let u := stopProgramming (clockLostOn { s with refclk := false } [0, 1, 2, 3, 4])
      exec .refclkLost s = .next (haltFault u 1
        [BitVec.ofNat 32 (3 * 2 ^ 28 + 2 * 2 ^ 26 + 0x11),
          BitVec.ofNat 32 (3 * 2 ^ 29 + 11 * 2 ^ 24 + u.nld.chip.toNat * 2 ^ 13 + 4 * 2 ^ 9), 0, u.tb.extractLsb' 0 32,
          u.tb.extractLsb' 32 32, u.tb.extractLsb' 0 32, u.tb.extractLsb' 32 32, 0])) ∧
    (s.tbStarted = true → s.refclk = true → s.mstate ≠ .reset → ∀ (d : Fin 5) (rate : BitVec 16),
      let w := s.tb.toNat / 1000
      exec (.speedWindowEnd d rate) s = .next (
        if w ≠ 0 ∧ w ≠ (sysDie s d).speedSeen ∧ w - 1 ∉ (sysDie s d).speedBad then
          setSysDie s d { sysDie s d with rate := rate, speedValid := true, speedSeen := w }
        else s)) ∧
    (∀ (a : Requester) (d : Fin 5), reqReaches s a d = true →
      let seen := fun (u : State) (lo hi : Word) => ({ u with
        outputs := .read lo :: u.outputs, shadows := tabSet u.shadows (reqCode a * 16) hi } : State)
      ((d.val < 4 → (cd s d).slewed = false) →
        exec (.sysTbLoRead a d) s = .next (seen s (s.tb.extractLsb' 0 32) (s.tb.extractLsb' 32 32))) ∧
      (d.val < 4 → (cd s d).slewed = true → exec (.sysTbLoRead a d) s = .next
        (seen { s with free := s.free + 2 } (Config.freeWord s.free) (Config.freeWord (s.free + 1))))) ∧
    (∀ a : Requester, reqReaches s a 4 = true →
      exec (.nldTofsLoRead a) s = .next { s with
        outputs := .read (s.nld.tofs.extractLsb' 0 32) :: s.outputs,
        shadows := tabSet s.shadows (reqCode a * 16 + 8) (s.nld.tofs.extractLsb' 32 32) }) ∧
    (∀ (a : Requester) (d : Fin 5), reqReaches s a d = false → exec (.sysTbLoRead a d) s = .next s) ∧
    (∀ a : Requester, reqReaches s a 4 = false → exec (.nldTofsLoRead a) s = .next s) ∧
    (s.mstate ≠ .reset → exec .pciTbLoRead s = .next { s with
      outputs := .read (s.tb.extractLsb' 0 32) :: s.outputs, host := { s.host with tbHi := s.tb.extractLsb' 32 32 } })

/-- 02 R49, whole. `fabRead u q d 0x104` is a read of SYS_TB_HI of die d by requester q in state u, with the word that it returns; the other
readers go through SYS_TB_LO_READ, a Spire's RDS, or `regRead`, which every load, request and mover read of a register comes to. 16 R376
leaves what a die whose VCORE has moved too fast returns unspecified. -/
def Obligations.TimeBaseReads : Prop :=
  ∀ (s : State) (a : Requester) (d : Fin 5),
    let keeps := fun (t : State) => ∀ (k : Fin 5) (w : Word) (u : State), fabRead s (reqCode a) k 0x104 = some (w, u) →
      ∃ u', fabRead t (reqCode a) k 0x104 = some (w, u')
    (reqReaches s a d = true → (d.val < 4 → (cd s d).slewed = false) →
      ∃ t : State, exec (.sysTbLoRead a d) s = .next t ∧
        t = { s with outputs := .read (s.tb.extractLsb' 0 32) :: s.outputs, shadows := t.shadows } ∧
        ∀ k : Fin 5, fabRead t (reqCode a) k 0x104 = some (s.tb.extractLsb' 32 32, t)) ∧
    (∀ (b : Requester) (k : Fin 5) (t : State), b ≠ a → exec (.sysTbLoRead b k) s = .next t → keeps t) ∧
    (∀ (e : Fin 4) (j : Fin 32) (w : Word) (t : State), a ≠ .spire e j → exec (.rds e j w) s = .next t → keeps t) ∧
    (∀ (q k o : Nat) (w : Word) (t : State), q ≠ reqCode a → regRead s q k o = some (w, t) → keeps t) ∧
    (∀ t : State, exec .pciTbLoRead s = .next t → keeps t) ∧
    (∀ (power : Bool) (cause : BitVec 14),
      ∃ u, fabRead (enterReset s power cause) (reqCode a) d 0x104 = some (0, u)) ∧
    fabRead State.reset (reqCode a) d 0x104 = some (0, State.reset)

/-- 16 R372 to R376, R390; 12 R295; 17 R407, Table 17-2. That an interrupted CHECK (command 3) leaves its slot as it was is log
entry 39 (the model's reading). -/
def Obligations.SuppliesAndReset : Prop :=
  ∀ s : State,
    let reset := fun (power : Bool) (cause : BitVec 14) (t : State) =>
      t.mstate = .reset ∧ t.tb = 0 ∧ t.tbStarted = false ∧ t.nld = {} ∧ t.f.st = .rsafe ∧ t.host.sessions = [] ∧
      t.pending = s.pending ∧ t.otp = s.otp ∧ t.faults.held = [] ∧
      (∀ x ∈ s.boot.updBusy, 3 ≤ x.1 → t.flash = s.flash) ∧ (s.boot.updBusy = none → t.flash = s.flash) ∧
      (∀ x ∈ s.boot.updBusy, memWf 0xFF s.flash = true → ∀ a : Nat,
        ¬ (slotBase s x.2 ≤ a ∧ a < slotBase s x.2 + slotSize s) → memRead 0xFF t.flash a = memRead 0xFF s.flash a) ∧
      t.power.rstcause = ((if power then 1 else s.power.rstcause) ||| cause) ∧
      (if power then t.faults = {} else
        t.faults.log = s.faults.log ∧ t.faults.head = s.faults.head ∧ t.faults.tail = s.faults.tail ∧
        t.faults.qNext = s.faults.head ∧ t.faults.hostNext = s.faults.head) ∧
      ∀ d : Fin 4, (cd t d).domeMem = (cd s d).domeMem ∧
        cd t d = { ({} : CDie) with domeMem := (cd s d).domeMem, domes := (cd s d).domes.map (fun e => (e.1, domeRecord e.2)) }
    (s.power.powered = false ∨ s.power.good = false → ∃ t, exec .powerUp s = .next t ∧ reset true 0 t ∧ t.power.powered = true ∧ t.power.good = false) ∧
    (s.power.powered = true → ∀ n : Fin 4,
      (∃ t, exec (.brownOut (.vcore n)) s = .next t ∧ reset false (BitVec.ofNat 14 (2 ^ (8 + n.val))) t ∧ t.power.good = false) ∧
      (∃ t, exec (.brownOut .vsram) s = .next t ∧ reset true 0x1000 t ∧ t.power.good = false) ∧
      ∀ r ∈ [Rail.vio18, .vio33, .vser, .vddq],
        ∃ t, exec (.brownOut r) s = .next t ∧ reset false 0x2000 t ∧ t.power.good = false) ∧
    (∀ ns : Nat, s.power.rstN = true →
      (10000 ≤ ns → ∃ t, exec (.rstNLow ns) s = .next t ∧ reset false 2 t ∧ t.power.rstN = false) ∧
      (ns < 1000 → exec (.rstNLow ns) s = .next s) ∧
      (1000 ≤ ns → ns < 10000 →
        ∃ t, exec (.rstNLow ns) s = .next t ∧ (reset false 2 t ∨ t = { s with free := s.free + 1 }))) ∧
    (s.mstate = .reset →
      (s.power.powered = true → s.power.good = false → s.power.rstN = true →
        ∃ t, exec (.powerGood 0) s = .next t ∧ t.mstate = .boot ∧ t.power.rstOutN = true) ∧
      (s.power.good = true → s.power.rstN = false → ∀ test : BitVec 4,
        ∃ t, exec (.rstNHigh test) s = .next t ∧ t.power.rstN = true ∧ t.mstate = (if test = 0 then .boot else .reset))) ∧
    (s.mstate ≠ .reset → ∀ d : Fin 4, ∃ (c : CDie) (n : Nld), c.slewed = true ∧
      exec (.vcoreFastSlew d) s = .next { putCd s d c with nld := n, free := s.free + 1 } ∧
      n = { s.nld with eps := n.eps, parties := n.parties } ∧
      ∀ e : Nat, ¬ (3 * d.val ≤ e ∧ e < 3 * d.val + 3) →
        tabGet {} n.eps e = tabGet {} s.nld.eps e ∧ tabGet {} n.parties (8 + e) = tabGet {} s.nld.parties (8 + e))

/-- 16 R378 to R384, R393; 02 R50; 17 R396 for the records' words; 04 R104 for the ageing (`agePackage`, whose account is log entry
52). The codes of RESET until SYS_VREQn is written are log entry 48 and the LIMIT word of a STALL_LONG record, the stored value
also at 0, is log entry 55; that a die which passes SLOW on its way to HALT has its caps lowered and writes the HALT record alone, and the order
of the dies that rise in one sample, are log entry 56: the model's choices. -/
def Obligations.GovernorSensorsAndStalls : Prop :=
  ∀ s : State,
    (tbRuns s = true → s.power.capE.length = 4 → ∀ p : BitVec 12,
      let limit := 10 * max 15 (min 60 s.power.limit.toNat)
      let old := s.power
      let above := old.vapp.all (fun v => decide (v = 0)) && decide (limit < p.toNat)
      (∃ q : Power, exec (.governorTick p) s = .next (
          if above && !old.unmet then raise { s with power := q }
            [BitVec.ofNat 32 (3 * 2 ^ 28 + 2 ^ 26 + 0x90), BitVec.ofNat 32 (11 * 2 ^ 24 + s.nld.chip.toNat * 2 ^ 13 + 4 * 2 ^ 9), 0,
              s.tb.extractLsb' 0 32, s.tb.extractLsb' 32 32, p.setWidth 32, old.limit.setWidth 32, 0]
          else { s with power := q }) ∧
          q.pwr = p ∧ q.unmet = (old.unmet && decide (limit ≤ p.toNat) || above) ∧
          q = { old with pwr := p, vreqOn := old.vreq, capE := q.capE, capT := q.capT, vapp := q.vapp, govcnt := q.govcnt, unmet := q.unmet } ∧
          ∀ n : Fin 4,
            q.capE.getD n 0 = (if limit < p.toNat then old.capE.getD n 0 - 1
              else if p.toNat + 10 < limit then min (old.capE.getD n 0 + 1) 50 else old.capE.getD n 0) ∧
            q.capT.getD n 0 = (if s.mstate = .halt ∨ s.mstate = .safe then 0
              else if 2 ≤ dieThermal s 4 ∨ 2 ≤ dieThermal s n then old.capT.getD n 0 - 1 else min (old.capT.getD n 0 + 1) 50) ∧
            (let v := old.vapp.getD n 0
             let target := min (old.vreq.getD n 0).toNat (min (q.capE.getD n 0) (q.capT.getD n 0))
             let target := if s.mstate = .boot ∧ old.asked.getD n false = false then 30 else target
             q.vapp.getD n 0 = (if target < v.toNat then v - 1 else if v.toNat < target then v + 1 else v)))) ∧
    (∀ (n : Fin 4) (v : Word), regsUp s = true → exec (.vreqWrite n v) s = .next { s with power := { s.power with
      vreq := s.power.vreq.set n (BitVec.ofNat 6 (min 50 (v.extractLsb' 0 6).toNat)), asked := s.power.asked.set n true } } ∧
      ∀ (t : State) (k : Fin 4), exec (.vreqWrite n v) s = .next t → railLim t k = railLim s k) ∧
    (∀ n : Fin 4,
      let asks := (s.power.vreqOn.getD n 0).toNat
      let env := s.power.capE.getD n 0
      let heat := s.power.capT.getD n 0
      railLim s n = (if heat ≤ asks ∧ heat ≤ env then 2 else if env ≤ asks then 1 else 0) ∧
      (∀ q : Nat, regRead s q 4 (0x30 + 4 * n.val) = some (w32 (railLim s n * 256 + (s.power.vapp.getD n 0).toNat), s))) ∧
    (∀ xs : List (BitVec 12), tbRuns s = true → s.boot.paused = false →
      (∀ d : Fin 6, dieThermal (thermalCounts (sampleAll s xs)) d ≤ dieThermal s d) →
      ∃ q : Power, exec (.sensorSample xs) s = .next { agePackage s xs with power := q } ∧
        q = { s.power with sensors := q.sensors, peak := q.peak, slowt := q.slowt, slowMs := q.slowMs } ∧
        (∀ i : Fin 36, tabGet {} q.sensors i = sensorNext (sensor s i) (xs.getD i 0)) ∧
        ∀ i ∈ [36, 37], tabGet {} q.sensors i = (if fReached s then sensorNext (sensor s i) (xs.getD i 0) else {})) ∧
    (∀ (xs : List (BitVec 12)) (d : Fin 6), tbRuns s = true → s.boot.paused = false →
      let u := thermalCounts (sampleAll s xs)
      dieThermal s d < dieThermal u d → (∀ k : Fin 6, k ≠ d → dieThermal u k ≤ dieThermal s k) → toldFree s d = false →
      let i := hotSensor u d
      let r := fun (sev act kind : Nat) => [BitVec.ofNat 32 (3 * 2 ^ 28 + sev * 2 ^ 26 + kind),
        BitVec.ofNat 32 (act * 2 ^ 29 + 10 * 2 ^ 24 + s.nld.chip.toNat * 2 ^ 13 + d.val * 2 ^ 9 + i), 0, s.tb.extractLsb' 0 32,
        s.tb.extractLsb' 32 32, (sensor u i).filt.setWidth 32, 0, 0]
      let slow := if 2 ≤ dieThermal s d ∨ s.mstate = .halt ∨ s.mstate = .safe then u else { u with power := { u.power with
        capT := (upTo 4).map (fun n =>
          if d.val = 4 ∨ d.val = n then (u.power.vapp.getD n 0).toNat else u.power.capT.getD n 0) } }
      (dieThermal u d = 1 → exec (.sensorSample xs) s = .next (agePackage (raise u (r 1 0 0x91)) xs)) ∧
      (dieThermal u d = 2 → exec (.sensorSample xs) s = .next (agePackage (raise slow (r 1 0 0x92)) xs)) ∧
      (dieThermal u d = 3 → s.mstate = .run ∨ s.mstate = .halt →
        exec (.sensorSample xs) s = .next (agePackage (haltFault slow 0 (r 2 3 0x93)) xs))) ∧
    (∀ xs : List (BitVec 12), tbRuns s = true → (∀ d : Fin 4, toldFree s d = false) →
      let rise := fun (t : State) (d : Nat) =>
        let i := hotSensor t d
        let r := fun (sev act kind : Nat) => [BitVec.ofNat 32 (3 * 2 ^ 28 + sev * 2 ^ 26 + kind),
          BitVec.ofNat 32 (act * 2 ^ 29 + 10 * 2 ^ 24 + s.nld.chip.toNat * 2 ^ 13 + d * 2 ^ 9 + i), 0, s.tb.extractLsb' 0 32,
          s.tb.extractLsb' 32 32, (sensor t i).filt.setWidth 32, 0, 0]
        let slow := if 2 ≤ dieThermal s d ∨ t.mstate = .halt ∨ t.mstate = .safe then t else { t with power := { t.power with
          capT := (upTo 4).map (fun n => if d = 4 ∨ d = n then (t.power.vapp.getD n 0).toNat else t.power.capT.getD n 0) } }
        if dieThermal t d ≤ dieThermal s d then t
        else if dieThermal t d = 1 then raise t (r 1 0 0x91)
        else if dieThermal t d = 2 then raise slow (r 1 0 0x92)
        else if t.mstate = .run ∨ t.mstate = .halt then haltFault slow 0 (r 2 3 0x93)
        else if t.mstate = .boot then { slow with boot := { slow.boot with paused := true } }
        else slow
      let risen := [0, 1, 2, 3, 4, 5].foldl rise (thermalCounts (sampleAll s xs))
      let cool := ∀ i : Fin 38, sensorOn risen i = true → (sensor risen i).filt.toInt ≤ 420
      (risen.boot.paused = true → cool →
        exec (.sensorSample xs) s = .next (agePackage { risen with boot := { risen.boot with paused := false } } xs)) ∧
      (risen.boot.paused = false ∨ ¬ cool → exec (.sensorSample xs) s = .next (agePackage risen xs))) ∧
    (∀ xs : List (BitVec 12), tbRuns s = false → exec (.sensorSample xs) s = .next (agePackage s xs)) ∧
    (∀ (v : Sensor) (x : BitVec 12), 7 ≤ v.samples.length →
      (sensorNext v x).valid = true ∧
      (sensorNext v x).filt = BitVec.ofInt 12 (Int.fdiv (((x :: v.samples).take 8).map (fun y => y.toInt)).sum 8)) ∧
    (∀ (t y : Int) (h : Thresh), h.above ≤ 17 → h.below ≤ 17 →
      (threshNext t h y).flag = (if t ≤ y ∧ 16 ≤ h.above then true else if y ≤ t - 16 ∧ 16 ≤ h.below then false else h.flag) ∧
      (threshNext t h y).above = (if t ≤ y then min (h.above + 1) 17 else 0) ∧
      (threshNext t h y).below = (if y ≤ t - 16 then min (h.below + 1) 17 else 0)) ∧
    (∀ (d : Fin 5) (port : BitVec 16),
      let real := if d.val = 4 then port.toNat ∈ [0x400, 0x401, 0x402, 0x404, 0x405, 0x408, 0x409, 0x40A, 0x40B, 0x410, 0x411, 0x412,
          0x413, 0x420, 0x430, 0x431, 0x432, 0x433, 0x440, 0x441, 0x442, 0x443, 0x444]
        else port.toNat < 8 ∨ (0x20 ≤ port.toNat ∧ port.toNat < 0x28) ∨ (0x40 ≤ port.toNat ∧ port.toNat < 0x68) ∨
          (0x100 ≤ port.toNat ∧ port.toNat < 0x180) ∨ (0x200 ≤ port.toNat ∧ port.toNat < 0x303)
      (¬ real → exec (.stallLong d port) s = .next s) ∧
      (s.mstate ≠ .reset → (sysDie s d).stallEn = true → port ∉ (sysDie s d).episodes → real → toldFree s d = false →
        let u := setSysDie s d { sysDie s d with
          stallCnt := satAdd (sysDie s d).stallCnt 1, stallPort := port, episodes := (sysDie s d).episodes ++ [port] }
        exec (.stallLong d port) s = .next (raise u
          [BitVec.ofNat 32 (3 * 2 ^ 28 + 2 ^ 26 + 0x10), BitVec.ofNat 32 (11 * 2 ^ 24 + u.nld.chip.toNat * 2 ^ 13 + d.val * 2 ^ 9), 0,
            u.tb.extractLsb' 0 32, u.tb.extractLsb' 32 32, port.setWidth 32, (sysDie s d).stallLimit.setWidth 32, 0])) ∧
      (port ∈ (sysDie s d).episodes → exec (.stallLong d port) s = .next s) ∧
      exec (.stallEpisodeEnd d port) s = .next (setSysDie s d
        { sysDie s d with episodes := (sysDie s d).episodes.filter (fun p => decide (p ≠ port)) }))

/-- 00 R7: RC returns the current value, and the read clears the field. -/
def Obligations.CountersReadAndClear : Prop :=
  ∀ (s : State) (d : Fin 4) (d5 : Fin 5) (n : Fin 8) (q : Fin 128) (e : Ep) (m : Fin 2) (r u : Fin 4),
    regsUp s = true → (epDie (epCode e) < 4 → (cd s (epDie (epCode e))).slewed = false) →
    let out := fun (v : Word) => { s with outputs := .read v :: s.outputs }
    let tw := tower s d n
    let pl := plinth s d n
    let ln := lantern s d n
    let qu := queue s d q
    let ep := endp s (epCode e)
    let mc := mac s m
    let rx := csiRx s r
    let ua := uart s u
    let h := s.host
    let p := s.power
    ∀ c ∈ ([(.twrWaitRead d n, setTower (out tw.wait) d n { tw with wait := 0 }),
        (.plnDiscRead d n, setPlinth (out pl.disc) d n { pl with disc := 0 }),
        (.plnFoldflushRead d n, setPlinth (out pl.foldflush) d n { pl with foldflush := 0 }),
        (.lntStallRead d n, setLantern (out ln.stall) d n { ln with stall := 0 }),
        (.lntStepsRead d n, setLantern (out ln.steps) d n { ln with steps := 0 }),
        (.queHwcntRead d q, setQueue (out qu.hwcnt) d q { qu with hwcnt := 0 }),
        (.queDiscRead d q, setQueue (out qu.disc) d q { qu with disc := 0 }),
        (.sysStallCntRead d5, setSysDie (out (sysDie s d5).stallCnt) d5 { sysDie s d5 with stallCnt := 0 }),
        (.memVcorrRead d, setCd (out (cd s d).vcorr) d { cd s d with vcorr := 0 }),
        (.memBurstCountRead .rdb, { out s.mem.rdb with mem := { s.mem with rdb := 0 } }),
        (.memBurstCountRead .wrb, { out s.mem.wrb with mem := { s.mem with wrb := 0 } }),
        (.memBurstCountRead .lecc, { out s.mem.lecc with mem := { s.mem with lecc := 0 } }),
        (.nldEpCounterRead e .crc, setEndp (out ep.crc) (epCode e) { ep with crc := 0 }),
        (.nldEpCounterRead e .replay, setEndp (out ep.replay) (epCode e) { ep with replay := 0 }),
        (.nldEpCounterRead e .retrain, setEndp (out ep.retrain) (epCode e) { ep with retrain := 0 }),
        (.nldEpCounterRead e .dup, setEndp (out ep.dup) (epCode e) { ep with dup := 0 }),
        (.nldEpCounterRead e .cstall, setEndp (out ep.cstall) (epCode e) { ep with cstall := 0 }),
        (.pciCounterRead .crcerr, { out h.crcerr with host := { h with crcerr := 0 } }),
        (.pciCounterRead .dup, { out h.dup with host := { h with dup := 0 } }),
        (.pciCounterRead .busy, { out h.busy with host := { h with busy := 0 } }),
        (.ethCounterRead m .rxok, setMac (out mc.rxok) m { mc with rxok := 0 }),
        (.ethCounterRead m .other, setMac (out mc.other) m { mc with other := 0 }),
        (.ethCounterRead m .fcserr, setMac (out mc.fcserr) m { mc with fcserr := 0 }),
        (.ethCounterRead m .ovrn, setMac (out mc.ovrn) m { mc with ovrn := 0 }),
        (.ethCounterRead m .unsent, setMac (out mc.unsent) m { mc with unsent := 0 }),
        (.csiCounterRead r .unsol, setCsiRx (out rx.unsol) r { rx with unsol := 0 }),
        (.csiCounterRead r .late, setCsiRx (out rx.late) r { rx with late := 0 }),
        (.csiCounterRead r .eccerr, setCsiRx (out rx.eccerr) r { rx with eccerr := 0 }),
        (.uartCounterRead u .ovrn, setUart (out ua.ovrn) u { ua with ovrn := 0 }),
        (.uartCounterRead u .fe, setUart (out ua.fe) u { ua with fe := 0 }),
        (.uartCounterRead u .pe, setUart (out ua.pe) u { ua with pe := 0 }),
        (.uartCounterRead u .brk, setUart (out ua.brk) u { ua with brk := 0 }),
        (.uartCounterRead u .wakes, setUart (out ua.wakes) u { ua with wakes := 0 }),
        (.sysGovcntRead, { out p.govcnt with power := { p with govcnt := 0 } }),
        (.thmPeakRead, { out (p.peak.setWidth 32) with power := { p with peak := 0x800 } }),
        (.thmSlowtRead, { out p.slowt with power := { p with slowt := 0 } })] : List (Instr × State)),
      exec c.1 s = .next c.2

/-- 00 R7, R8. An address is chip x 2^45 + die x 2^41 + offset (01 R25). -/
def Obligations.RegisterWrites : Prop :=
  (∀ (s : State) (a : Requester) (d : Fin 6) (o : Nat) (v : Word),
    (match a with
      | .spire k n => s.mstate = .run ∧ (spire s k n).st = .running
      | .boot => s.mstate = .boot
      | .host => (s.mstate = .boot ∨ s.mstate = .run ∨ s.mstate = .halt) ∧ s.host.perst = false ∧ d.val = 4 ∧
          0x100000 ≤ o ∧ o < 0x110000) →
    dieAnswers s (reqAgent a) d = true → o < 0x1000000 → o % 4 = 0 →
    ¬ (d.val < 4 ∧ 0x60000 ≤ o ∧ o < 0xA0000) →
    let u : State := if d.val = 5 then { s with f := { s.f with pend := s.f.pend &&& ~~~(8 : BitVec 6) } } else s
    (regRead u (reqAgent a).req d o).isSome = true →
      exec (.registerWrite a (BitVec.ofNat 48 (s.nld.chip.toNat * 2 ^ 45 + d.val * 2 ^ 41 + 0xF00000000 + o)) v) s =
        .next (regWrite u d o v)) ∧
  (∀ (s : State) (q : Nat) (d : Fin 4) (n : Fin 8) (v : Word), (cd s d).slewed = false →
    ∀ e ∈ ([(d.val, 0x120, 0x8000FFFF), (d.val, 0x20000 + n.val * 0x100, 0x7F), (d.val, 0x30000 + n.val * 0x100, 0x7F),
        (d.val, 0x30004 + n.val * 0x100, 0xFFFFFFFF), (d.val, 0x4100C + n.val * 0x10, 0x7F),
        (d.val, 0x50000 + n.val * 0x100, 0x7F), (d.val, 0x50004 + n.val * 0x100, 0xFFFFFFFF),
        (d.val, 0xA0008 + n.val * 0x100, 0xFFFC), (d.val, 0xA000C + n.val * 0x100, 0xFF80), (4, 0x50, 0xFFF),
        (4, 0x208, 0x8000FFFF), (4, 0x220, 1), (4, 0x230, 0xC000FFFF), (4, 0xD0200 + n.val * 0x10, 0x8000067F),
        (4, 0x150014, 0xFFFFFFFF), (5, 0x10204, 0xFFFF), (5, 0x10208, 0xFFFF), (5, 0x10328, 0xFFFFFFFF)] :
        List (Nat × Nat × Word)),
      wdOver s = false →
      regRead (regWrite s e.1 e.2.1 v) q e.1 e.2.1 = some (v &&& e.2.2, regWrite s e.1 e.2.1 v) ∧
      ∀ (k : Fin 6) (o : Nat), o % 4 = 0 → (k.val, o) ≠ (e.1, e.2.1) →
        (regRead (regWrite s e.1 e.2.1 v) q k o).map Prod.fst = (regRead s q k o).map Prod.fst) ∧
  (∀ (s : State) (d : Fin 4) (n : Fin 8) (v : Word), regsUp s = true →
    exec (.seedWrite d (.plinth n) v) s = .next (setPlinth s d n { plinth s d n with seed := v, reseed := true }) ∧
    exec (.seedWrite d (.lantern n) v) s = .next (setLantern s d n { lantern s d n with seed := v, reseed := true }))

/-- 17 R398 to R401, R411. The error Bell and the fault queue are on other dies than the log, so H asks for the count and for the push
over the link to them (10 R230). That both leave by port 0x401 is log entry 34 (PRESUMED: Table 9-6 gives the log no port), that a push
answered NONAME is offered again is log entry 36, and the words that a die whose VCORE moved too fast gives a record are log entry 23
(the model's choices). -/
def Obligations.FaultLog : Prop :=
  ∀ (s : State) (r : List Word), r.length = 8 →
    let i := s.faults.tail
    let src := wordAt r 1 &&& 0x1FFF_FFFF
    let holds := s.faults.held.any (fun h => decide (wordAt h.w 1 &&& 0x1FFF_FFFF = src))
    let told := if toldFree s (field (wordAt r 1) 12 9) then { s with free := s.free + 1 } else s
    let adds := fun (u : State) (d b : Nat) => if diesJoined s 4 d = true ∧ epOpen s (12 + d) = true then
      linkAsk u (12 + d) {
        kind := 3, src := 0x401, operand := 1, addr := s.nld.chip.toNat * 2 ^ 45 + d * 2 ^ 41 + 0x500000000 + 0x100 * b } .faultQueue
      else u
    (s.mstate = .reset → raise s r = s) ∧
    (s.mstate ≠ .reset → (s.faults.tail - s.faults.head).toNat < 256 → holds = false →
      let t := raise s r
      t.faults.tail = i + 1 ∧ tabGet [] t.faults.log (i.toNat % 256) = r.set 2 i ∧
      (∀ k : Nat, k ≠ i.toNat % 256 → tabGet [] t.faults.log k = tabGet [] s.faults.log k) ∧
      (s.faults.bellEn = false →
        (∀ d : Fin 4, field (wordAt r 1) 12 9 = d.val →
          t.nld = (adds told d 255).nld) ∧
        (4 ≤ field (wordAt r 1) 12 9 → t.nld = s.nld)) ∧
      (s.faults.bellEn = true →
        let name := s.faults.bell.toNat
        let first := if field (wordAt r 1) 12 9 < 4 then adds told (field (wordAt r 1) 12 9) 255 else told
        (∀ (k : Fin 4) (b : Fin 256), name = s.nld.chip.toNat * 2 ^ 13 + k.val * 2 ^ 9 + b.val →
          t.nld = (adds first k b).nld) ∧
        (nameBad s name 8 = true ∨ targetIsolated s 4 (name / 2 ^ 13) (name / 2 ^ 9 % 16) = true → t.nld = first.nld))) ∧
    (s.mstate ≠ .reset → 256 ≤ (s.faults.tail - s.faults.head).toNat ∨ holds = true →
      raise s r = { told with faults := { s.faults with held := holdRecord s.faults.held r } }) ∧
    (∀ k : Nat, s.mstate ≠ .reset → (s.faults.tail - s.faults.head).toNat < 256 → firstOfSource s.faults.held k = true →
      ∀ h, s.faults.held[k]? = some h →
        exec (.faultRecordLog k) s = .next (logTake { s with faults := { s.faults with held := s.faults.held.eraseIdx k } } h.w)) ∧
    (let d := s.faults.qDie.toNat
     let q := s.faults.qQueue.toNat
     s.mstate ≠ .reset → s.faults.qEn = true → (s.faults.tail - s.faults.qNext).toNat ≤ (s.faults.tail - s.faults.head).toNat →
      s.faults.qNext ≠ s.faults.tail → diesJoined s 4 d = true →
      (faultAsked s = false → epOpen s (12 + d) = true → exec .faultQueueDeliver s = .next (linkAsk s (12 + d) {
        kind := 5, src := 0x401, addr := s.nld.chip.toNat * 2 ^ 45 + d * 2 ^ 41 + 0x600000000 + q * 0x200, len := 32,
        payload := ofWords (logRecord s s.faults.qNext) } .faultQueue)) ∧
      (faultAsked s = true → exec .faultQueueDeliver s = .next s)) ∧
    (∀ o : Outst, o.who = .faultQueue → txnKind o.txn = 5 → s.faults.auto = false →
      askDone s o 0 [] = { s with faults := { s.faults with qNext := wordAt o.txn.hdr 10 + 1 } } ∧ askDone s o 8 [] = s) ∧
    (∀ o : Outst, o.who = .faultQueue → txnKind o.txn = 5 → s.faults.auto = true → s.mstate ≠ .safe → s.faults.qEn = true →
      let past := wordAt o.txn.hdr 10 + 1
      let n := (s.faults.tail - s.faults.head).toNat
      n ≤ 256 → 1 ≤ (past - s.faults.head).toNat → (past - s.faults.head).toNat ≤ n →
      (hostOn s = false ∨ (s.faults.hostNext = s.faults.tail ∧ ∀ j : Word, noneWaits s j = true) →
        askDone s o 0 [] = { s with faults := { s.faults with qNext := past, head := past } }) ∧
      (hostOn s = true → s.faults.hostNext = s.faults.head ∨ noneWaits s s.faults.head = false →
        askDone s o 0 [] = { s with faults := { s.faults with qNext := past } })) ∧
    (∀ v : Word, s.mstate ≠ .reset → s.mstate ≠ .safe →
      (s.faults.auto = false → (v - s.faults.head).toNat ≤ (s.faults.tail - s.faults.head).toNat →
        exec (.flogHeadWrite v) s = .next { s with faults := { s.faults with head := v } }) ∧
      ((s.faults.tail - s.faults.head).toNat < (v - s.faults.head).toNat → exec (.flogHeadWrite v) s = .next s)) ∧
    (∀ v : Word, s.mstate = .safe ∨ (s.faults.auto = true ∧ (s.faults.qEn = true ∨ hostOn s = true)) →
      exec (.flogHeadWrite v) s = .next s) ∧
    (∀ k : Nat, s.mstate = .safe → autoFree k s = s)

/-- 17 R402 to R406, R412. That a RESET action sets RECOV alone and samples the TEST balls again, at a level that is a free value, is
log entry 50; HALTCLR without a valid sensor is log entry 28; the watchdog's unit number 12 and the port of its write are log entry 34; that a
Spire whose RUN was set in HALT starts at RESUME is log entry 57 (the model's choices). -/
def Obligations.WatchdogAndRecovery : Prop :=
  ∀ s : State,
    (∀ v : Word, regsUp s = true →
      let word := fun (u : State) => { u with
        host := { u.host with hbWord := v, hbFresh := true }, faults := { u.faults with wdFrom := u.tb } }
      let period := fun (u : State) => { u with faults := { u.faults with
        wdAct := v.extractLsb' 30 2, wdPeriod := v.extractLsb' 0 16, wdFrom := u.tb } }
      (wdOver s = false → exec (.pciHbWordWrite v) s = .next (word s) ∧ exec (.sysWdWrite v) s = .next (period s)) ∧
      (wdOver s = true → ∀ u : State, exec .machineWdogExpiry s = .next u →
        (u.mstate = .run ∨ u.mstate = .halt →
          exec (.pciHbWordWrite v) s = .next (word u) ∧ exec (.sysWdWrite v) s = .next (period u)) ∧
        (u.mstate = .reset ∨ u.mstate = .boot → exec (.pciHbWordWrite v) s = .next u ∧ exec (.sysWdWrite v) s = .next u))) ∧
    (let rec_ := fun (sev act : Nat) =>
      [BitVec.ofNat 32 (3 * 2 ^ 28 + sev * 2 ^ 26 + 0xA0),
        BitVec.ofNat 32 (act * 2 ^ 29 + 7 * 2 ^ 24 + s.nld.chip.toNat * 2 ^ 13 + 4 * 2 ^ 9 + 12), 0, s.tb.extractLsb' 0 32,
        s.tb.extractLsb' 32 32, s.faults.wdPeriod.setWidth 32, s.faults.wdAct.setWidth 32, 0]
     s.mstate = .run → s.faults.wdPeriod ≠ 0 → s.faults.wdPeriod.toNat * 1000000 ≤ (s.tb - s.faults.wdFrom).toNat →
      (s.faults.wdAct = 0 → ∃ t, exec .machineWdogExpiry s = .next t ∧
        t = { raise s (rec_ 1 0) with faults := { (raise s (rec_ 1 0)).faults with wdFrom := t.faults.wdFrom } }) ∧
      (s.faults.wdAct = 1 →
        let u := raise s (rec_ 1 2)
        let q : Ask := { kind := 2, src := 0x401, addr := devAddr s.nld.chip.toNat 5 0xF00010000, len := 4, payload := [2, 0, 0, 0] }
        let f := if epOpen u 16 then linkAsk u 16 q .boot else u
        exec .machineWdogExpiry s = .next { f with faults := { f.faults with wdFrom := f.tb } } ∧ f.f = u.f) ∧
      (s.faults.wdAct = 2 → exec .machineWdogExpiry s = .next (haltFault s 4 (rec_ 2 3))) ∧
      (s.faults.wdAct = 3 →
        let u := enterReset (raise s (rec_ 2 5)) false 8
        exec .machineWdogExpiry s = .next (leaveReset { u with
          power := { u.power with test := (Config.freeWord u.free).extractLsb' 0 4 }, free := u.free + 1 }))) ∧
    (s.mstate = .halt → (cd s 0).slewed = false → (cd s 1).slewed = false → (cd s 2).slewed = false → (cd s 3).slewed = false →
      (s.faults.hmask.getLsbD 2 = false → s.faults.hmask.getLsbD 3 = false →
        (s.faults.hmask.getLsbD 0 = true → haltClear s = true) → (s.faults.hmask.getLsbD 1 = true → tbRuns s = true) →
        (∀ (d : Fin 4) (q : Nat) (h : FeHold), (queue s d q).fe = some h → h.ended = none) →
        ∃ t, exec (.resumeAction 0xA5C30001) s = .next t ∧ t.mstate = .run ∧ t.faults.hmask = 0 ∧
        t.faults.hkind = 0 ∧ (∀ p ∈ s.boot.started, p.1 < 4 → spire t p.1 p.2 = spireStart (spire s p.1 p.2)) ∧
        ((∀ p ∈ s.boot.started, p.1 < 4) → ∀ d n, d < 4 → (d, n) ∉ s.boot.started →
          spire t d n = if (spire s d n).runBit then spireStart (spire s d n) else spire s d n)) ∧
      (s.faults.hmask.getLsbD 2 = true ∨ s.faults.hmask.getLsbD 3 = true ∨
          (s.faults.hmask.getLsbD 0 = true ∧ haltClear s = false) ∨ (s.faults.hmask.getLsbD 1 = true ∧ tbRuns s = false) →
        exec (.resumeAction 0xA5C30001) s = .next { s with faults := { s.faults with refused := true } })) ∧
    (s.mstate = .run ∨ s.mstate = .boot →
      exec (.resumeAction 0xA5C30001) s = .next { s with faults := { s.faults with refused := true } }) ∧
    (s.mstate = .run ∨ s.mstate = .halt → s.power.good = true → s.power.rstN = true →
      ∃ t, exec (.resetAction 0xA5C30002) s = .next t ∧ t.tb = 0 ∧
        t.mstate = (if (Config.freeWord (dropUpdate s).free).extractLsb' 0 4 = 0 then .boot else .reset) ∧
        t.power.rstcause = s.power.rstcause ||| 8 ∧ t.faults.tail = s.faults.tail ∧ t.faults.head = s.faults.head) ∧
    (∀ v : Word, (v.extractLsb' 16 16).toNat ≠ 0xA5C3 → exec (.resumeAction v) s = .next s ∧ exec (.resetAction v) s = .next s) ∧
    (∀ (k : Fin 6) (r : List Word), r.length = 8 →
      (s.mstate = .run → (haltFault s k r).mstate = .halt ∧
        (haltFault s k r).faults.hmask = (raiseFirst s r).faults.hmask ||| BitVec.ofNat 6 (2 ^ k.val) ∧
        (s.faults.hmask = 0 → (haltFault s k r).faults.hkind = (wordAt r 0).extractLsb' 0 16)) ∧
      (s.mstate = .halt → ∃ f : Faults, haltFault s k r = { raiseFirst s r with faults := f } ∧
        f = { (raiseFirst s r).faults with hkind := f.hkind, hmask := f.hmask } ∧
        (s.faults.hmask ≠ 0 → f.hkind = s.faults.hkind) ∧ f.hmask = (raiseFirst s r).faults.hmask ||| BitVec.ofNat 6 (2 ^ k.val)) ∧
      (s.mstate ≠ .reset → (s.faults.tail - s.faults.head).toNat < 256 →
        s.faults.held.any (fun h => decide (recSource h.w = recSource r)) = false → raiseFirst s r = logTake s r))

/-- 04 R83, R90 to R104; 03 R76, R77. That PROGRAM and VERIFY read their digests and bytes whole at their ends is log entry 62, and that
a margin read of a bank with half its account spent answers MARGIN whatever its cells show is log entry 52; that a Dome
of an isolated die gets its token, at once, is log entry 5 (the model's choices). -/
def Obligations.DomeCommands : Prop :=
  ∀ (s : State) (d : Fin 4) (n : Fin 256), (cd s d).slewed = false → (cd s d).vaultErr = [] → (cd s d).vaultClearing = false →
    let c := cd s d
    let v := dome s d n
    (∀ u : UnitCmd, v.cmd = some u → v.deferred = false → v.verifying = false →
      let opc := field (wordAt u.w 0) 31 28
      let b := bit (wordAt u.w 0) 27
      let fin := fun (w : Dome) (st : Byte) (k : Word) => { w with
        cmd := none, cmdqWas := none,
        doneQ := v.doneQ ++ [⟨BitVec.ofNat 4 opc, st, k, 0, wordAt u.w 5, u.seq, u.queue, u.die, false⟩] }
      (opc = 0 ∨ 4 < opc → ∀ i ∈ ([.pass d n, .program d n, .verify d n, .swap d n] : List Instr),
        exec i s = .next (setDome s d n (fin v 1 0))) ∧
      (opc = 1 → passOk u (passFields u) = false → exec (.pass d n) s = .next (setDome s d n (fin v 1 0))) ∧
      (opc = 1 → passOk u (passFields u) = true → v.b0.st ≠ .active → v.b1.st ≠ .active →
        exec (.pass d n) s = .next (setDome s d n (fin v 2 0))) ∧
      (opc = 1 → passOk u (passFields u) = true → ∀ bk : Bool, (domBank v bk).st = .active → (domBank v (!bk)).st ≠ .active →
        let p := passFields u
        let h := n.val / 32
        let weight := fun (r col : Nat) =>
          (memRead 0 c.domeMem (n.val * 0x20000 + (if bk then 0x10000 else 0) + r * 256 + col)).toNat
        let wscale := fun (r col : Nat) => if p.wunit then 127 else (memRead 0 c.vault (p.wscl +
          (if p.wdir then r * (256 / p.wblk) + col / p.wblk else col * (256 / p.wblk) + r / p.wblk))).toNat
        let tree := fun (i : Nat) =>
          let r := p.row0 + i / p.ncol
          let col := p.col0 + i % p.ncol
          treeSum ((upTo 64).map (fun k =>
            (⟨shortVal p.fmt (memRead 0 c.vault (p.aaddr + 64 * (i / p.ncol) + k)).toNat,
              (memRead 0 c.vault (p.ascl + (64 * (i / p.ncol) + k) / p.ablk)).toNat⟩,
             ⟨shortVal .v8 (weight (64 * r + k) col), wscale (64 * r + k) col⟩)))
        let counts := (upTo (p.nrow * p.ncol)).map (fun i => (tree i).2.2)
        let pair := fun (i : Nat) =>
          let x := tree i
          (⟨p.acc0 + i % p.ncol, p.seg + BitVec.ofNat 16 (i / p.ncol), w32 x.1, w32 x.2.1, false, n.val + 1⟩ : Pair)
        ∃ t : State, exec (.pass d n) s = .next t ∧ t = putCd s d (cd t d) ∧
          cd t d = { c with domes := (cd t d).domes, plinths := (cd t d).plinths, towers := (cd t d).towers } ∧
          (∀ j : Nat, dome t d j = if j = n.val then
            fin v 0 (counterWord (counts.map (·.sat)).sum (counts.map (·.flush)).sum) else dome s d j) ∧
          (∀ j : Nat, plinth t d j = if j = h then { plinth s d h with
            domePort := (plinth s d h).domePort ++ (upTo (p.nrow * p.ncol)).map pair } else plinth s d j) ∧
          (∀ j : Nat, j ≠ h → tower t d j = tower s d j) ∧
          tower t d h = { tower s d h with flags := (tower s d h).flags ||| counts.foldr (fun x f => x.flags ||| f) 0 }) ∧
      (opc = 2 → masksOk [0xF800_0000, 0x01FF_FFFF, 0x01FF_FFFF, 0, 0, 0xFFFF_FFFF, 0, 0] u.w = true →
        field (wordAt u.w 1) 24 0 + 65536 ≤ 0x180_0000 → field (wordAt u.w 2) 24 0 + 32 ≤ 0x180_0000 →
        let k := domBank v b
        (k.st = .active ∨ k.st = .prog ∨ k.job ≠ none → exec (.program d n) s = .next (setDome s d n (fin v 3 0))) ∧
        (k.st ≠ .active → k.st ≠ .prog → k.job = none →
          (100000 ≤ k.count → exec (.program d n) s = .next (setDome s d n (fin v 4 0))) ∧
          (k.count < 100000 → exec (.program d n) s = .next { setDome s d n (setDomBank { v with cmd := none, cmdqWas := none } b
            { k with job := some {
              cmd := u, src := field (wordAt u.w 1) 24 0, digAt := some (field (wordAt u.w 2) 24 0) } }) with
            tokenWait := s.tokenWait ++ [(d.val, n.val, b)] }))) ∧
      (opc = 3 → masksOk [0xFC00_0000, 0, 0x01FF_FFFF, 0, 0, 0xFFFF_FFFF, 0, 0] u.w = true →
        field (wordAt u.w 2) 24 0 + 32 ≤ 0x180_0000 →
        let k := domBank v b
        (k.st = .prog ∨ k.job ≠ none → exec (.verify d n) s = .next (setDome s d n { v with deferred := true })) ∧
        (k.st = .blank ∨ k.st = .fault → k.job = none → exec (.verify d n) s = .next (setDome s d n (fin v 3 0))) ∧
        (k.st = .standby ∨ k.st = .active → k.job = none →
          exec (.verify d n) s = .next (setDome s d n { v with verifying := true }))) ∧
      (opc = 4 → masksOk [0xF800_0000, 0, 0, 0, 0, 0xFFFF_FFFF, 0, 0] u.w = true →
        let busy := fun (x : Bool) => (domBank v x).st = .prog ∨ (domBank v x).job ≠ none
        let ready := fun (x : Bool) => (domBank v x).st = .standby
        (∀ x : Bool, ready x → ¬ busy x → ¬ busy (!x) → ((domBank v (!x)).st = .standby → v.sel = x) →
          exec (.swap d n) s = .next (setDome s d n (fin
            { setDomBank (setDomBank v x { domBank v x with st := .active }) (!x) { domBank v (!x) with
                st := if (domBank v (!x)).st = .active then .standby else (domBank v (!x)).st } with
              sel := if b then x else v.sel } 0 0))) ∧
        (¬ busy false → ¬ busy true →
          (¬ ready false ∧ ¬ ready true) → exec (.swap d n) s = .next (setDome s d n (fin v 3 0))) ∧
        (∀ x : Bool, busy x → (domBank v x).st ≠ .active →
          exec (.swap d n) s = .next (setDome s d n { v with deferred := true })))) ∧
    (∀ u : UnitCmd, v.cmd = some u → v.deferred = true → v.verifying = false →
      let again := setDome s d n { v with deferred := false }
      (field (wordAt u.w 0) 31 28 = 4 → masksOk [0xF800_0000, 0, 0, 0, 0, 0xFFFF_FFFF, 0, 0] u.w = true →
        exec (.domeDeferredResume d n) s = exec (.swap d n) again) ∧
      (field (wordAt u.w 0) 31 28 = 3 → masksOk [0xFC00_0000, 0, 0x01FF_FFFF, 0, 0, 0xFFFF_FFFF, 0, 0] u.w = true →
        field (wordAt u.w 2) 24 0 + 32 ≤ 0x180_0000 →
        exec (.domeDeferredResume d n) s = exec (.verify d n) again)) ∧
    (∀ (u : UnitCmd) (tight : Bool), v.cmd = some u → v.verifying = true →
      let b := bit (wordAt u.w 0) 27
      let k := domBank v b
      let same : Bool := decide (digest32 (memBytes 0 c.domeMem (n.val * 0x20000 + (if b then 0x10000 else 0)) 65536)
        = memBytes 0 c.vault (field (wordAt u.w 2) 24 0) 32)
      let r : Bank × Byte := if same then
          (if bit (wordAt u.w 0) 26 then (if tight = true ∧ 2 * k.aged < 7305 * 86400 * 8000 then ({ k with marginLow := false, aged := 0 }, 0) else ({ k with marginLow := true }, 6))
          else (k, 0))
        else ({ k with st := .fault }, 5)
      exec (.verifyEnd d n tight) s = .next (setDome s d n { setDomBank v b r.1 with
        verifying := false, cmd := none, cmdqWas := none,
        doneQ := v.doneQ ++ [⟨BitVec.ofNat 4 (field (wordAt u.w 0) 31 28), r.2, 0, 0, wordAt u.w 5, u.seq, u.queue, u.die,
          false⟩] })) ∧
    (∀ (b good : Bool) (j : PgmJob) (at_ : Nat), (domBank v b).job = some j → (domBank v b).st = .prog → j.boot = false →
      j.digAt = some at_ →
      let k := domBank v b
      let bs := memBytes 0 c.vault j.src 65536
      let dg := memBytes 0 c.vault at_ 32
      let fin := fun (st : Byte) => v.doneQ ++ [⟨BitVec.ofNat 4 (field (wordAt j.cmd.w 0) 31 28), st, 0, 0, wordAt j.cmd.w 5,
        j.cmd.seq, j.cmd.queue, j.cmd.die, false⟩]
      let held := s.tokenHeld.filter (fun t => decide (t ≠ (d.val, n.val, b)))
      exec (.programEnd d n b good) s = .next (if good = true ∧ digest32 bs = dg then
        { putCd s d { c with
          domeMem := memPut 0 c.domeMem (n.val * 0x20000 + (if b then 0x10000 else 0)) bs,
          domes := tabSet c.domes n.val { setDomBank v b
            { k with st := .standby, marginLow := false, digest := dg, aged := 0, job := none } with doneQ := fin 0 } } with
          tokenHeld := held }
        else { setDome s d n { setDomBank v b { k with st := .fault, job := none } with doneQ := fin 7 } with
          tokenHeld := held })) ∧
    (∀ (b : Bool) (rest : List (Nat × Nat × Bool)), s.tokenWait = (d.val, n.val, b) :: rest → s.tokenHeld.length < 32 →
      s.mstate = .run ∨ (s.mstate = .boot ∧ s.boot.paused = false) →
      let k := domBank v b
      let u := { setDome s d n (setDomBank v b { k with st := .prog, count := k.count + 1 }) with
        tokenWait := rest, tokenHeld := s.tokenHeld ++ [(d.val, n.val, b)] }
      let w := fun (kind : Nat) => raise u [BitVec.ofNat 32 (3 * 2 ^ 28 + 2 ^ 26 + kind),
        BitVec.ofNat 32 (2 * 2 ^ 24 + s.nld.chip.toNat * 2 ^ 13 + d.val * 2 ^ 9 + n.val), 0, s.tb.extractLsb' 0 32,
        s.tb.extractLsb' 32 32, if b then 1 else 0, BitVec.ofNat 32 (k.count + 1), 0]
      exec .programTokenGrant s = .next
        (if k.count = 94999 then w 0x20 else if k.count = 99999 then w 0x21 else u)) ∧
    (s.tokenHeld.length ≥ 32 ∨ s.mstate = .halt ∨ s.boot.paused = true ∧ s.mstate = .boot → exec .programTokenGrant s = .next s)

/-- 05 R108 to R119, R130, R134; 03 R61, R62; 04 R85; 07 R170. That two pairs of one segment for one accumulator leave its contents
unspecified as soon as the second has come is log entry 59, that a MUL which clears rows under a reader waits for it is log
entry 58, and the order in which the Domes of a port are served is log entry 64 (the model's readings and choices). -/
def Obligations.TowerAndIntake : Prop :=
  ∀ (s : State) (d : Fin 4) (n : Fin 8), (cd s d).slewed = false → (cd s d).vaultErr = [] → (cd s d).vaultClearing = false →
    let v := cd s d
    let tw := tower s d n
    let p := plinth s d n
    (∀ u : UnitCmd, tw.cmd = some u →
      let fin := fun (st : Byte) (k : Word) => { tw with
        cmd := none, cmdqWas := none,
        doneQ := tw.doneQ ++ [⟨BitVec.ofNat 4 (field (wordAt u.w 0) 31 28), st, k, 0, wordAt u.w 7, u.seq, u.queue, u.die, false⟩] }
      (mulFields u = none → exec (.towerMul d n) s = .next (setTower s d n (fin 1 0))) ∧
      (∀ c : MulCmd, mulFields u = some c →
        let modes := fun (x : Bool) => ∀ r : Nat, c.row ≤ r → r < c.row + c.m → rowIsInt p r = x
        (mulOk u c = false → exec (.towerMul d n) s = .next (setTower s d n (fin 1 0))) ∧
        (mulOk u c = true → (c.af = .i8 ∧ c.bf ≠ .i8 ∨ c.af ≠ .i8 ∧ c.bf = .i8) →
          exec (.towerMul d n) s = .next (setTower s d n (fin 8 0))) ∧
        (mulOk u c = true → (c.af = .i8 ↔ c.bf = .i8) → c.clear = false → ¬ modes (decide (c.af = .i8)) →
          exec (.towerMul d n) s = .next (setTower s d n (fin 9 0))) ∧
        (mulOk u c = true → (c.af = .i8 ↔ c.bf = .i8) → c.clear = true →
          (∃ r : Nat, c.row ≤ r ∧ r < c.row + c.m ∧ rowsRead p r = true) →
          ∃ w : Word, exec (.towerMul d n) s = .next
            { setTower s d n { tw with wait := satAdd tw.wait w.toNat } with free := s.free + 1 }) ∧
        (mulOk u c = true → (c.af = .i8 ↔ c.bf = .i8) →
          ((c.clear = true ∧ ∀ r : Nat, c.row ≤ r → r < c.row + c.m → rowsRead p r = false) ∨
            (c.clear = false ∧ modes (decide (c.af = .i8)))) →
          let byte := fun (a : Nat) => (memRead 0 v.vault a).toNat
          let a := fun (m k : Nat) => byte (c.aaddr + k / 64 * (64 * c.m) + 64 * m + k % 64)
          let b := fun (k j : Nat) => byte (c.baddr + 4096 * (k / 64) + 64 * (k % 64) + j)
          let ka := fun (m k : Nat) => if c.aunit then 127 else byte (c.ascl + (if c.adir then
            k * ((c.m + c.ablk - 1) / c.ablk) + m / c.ablk else m * (64 * c.nkb / c.ablk) + k / c.ablk))
          let kb := fun (k j : Nat) => if c.bunit then 127 else byte (c.bscl + (if c.bdir then
            k * (64 / c.bblk) + j / c.bblk else j * (64 * c.nkb / c.bblk) + k / c.bblk))
          let tree := fun (i : Nat) =>
            let blk := i / (c.m * c.n)
            let m := i / c.n % c.m
            let j := i % c.n
            treeSum ((upTo 64).map (fun k => (⟨shortVal c.af (a m (64 * blk + k)), ka m (64 * blk + k)⟩,
              ⟨shortVal c.bf (b (64 * blk + k) j), kb (64 * blk + k) j⟩)))
          let counts := (upTo (c.nkb * (c.m * c.n))).map (fun i => if c.af = .i8 then ({} : Tally) else (tree i).2.2)
          let pair := fun (i : Nat) =>
            let blk := i / (c.m * c.n)
            let m := i / c.n % c.m
            let j := i % c.n
            let idx := (c.row + m) * 64 + j
            let seg := c.seg + BitVec.ofNat 16 blk
            if c.af = .i8 then
              (⟨idx, seg, BitVec.ofInt 32 ((upTo 64).map (fun k =>
                (BitVec.ofNat 8 (a m (64 * blk + k))).toInt * (BitVec.ofNat 8 (b (64 * blk + k) j)).toInt)).sum, 0, true, 0⟩ : Pair)
            else
              let x := tree i
              ⟨idx, seg, w32 x.1, w32 x.2.1, false, 0⟩
          let p1 := if c.clear then setMode (clearAccs p c.row c.m c.n) c.row c.m (decide (c.af = .i8)) else p
          ∃ t : State, exec (.towerMul d n) s = .next t ∧ t = putCd s d (cd t d) ∧
            cd t d = { v with plinths := (cd t d).plinths, towers := (cd t d).towers } ∧
            (∀ j : Nat, plinth t d j = if j = n.val then { p1 with
              towerPort := p.towerPort ++ (upTo (c.nkb * (c.m * c.n))).map pair } else plinth s d j) ∧
            (∀ j : Nat, tower t d j = if j = n.val then
              { fin 0 (counterWord (counts.map (·.sat)).sum (counts.map (·.flush)).sum) with
                flags := tw.flags ||| counts.foldr (fun x f => x.flags ||| f) 0 } else tower s d j)))) ∧
    (∀ (last : Nat) (l : List Pair), (∀ k : Nat, (nextTurn last l).filter (fun y => decide (y.src = k)) =
        l.filter (fun y => decide (y.src = k))) ∧
      (nextTurn last l).head?.map (·.src) = if l = [] then none else some (nextInput last (l.map (·.src)))) ∧
    (∀ (tow : Bool) (x : Pair) (rest : List Pair), portPairs p tow = x :: rest →
      let q := setPort p tow (nextTurn x.src rest)
      let a := acc p x.idx
      let cnt := min (a.cnt + 1) 65537
      let waits := ∃ w : Word, exec (.plinthPairIntake d n tow) s = .next (if tow then
        { setTower s d n { tw with wait := satAdd tw.wait w.toNat } with free := s.free + 1 } else s)
      (rowsRead p (x.idx / 64) = true → waits) ∧
      (rowsRead p (x.idx / 64) = false → x.seg ≠ a.next →
        let again := (∃ y ∈ p.held, y.idx = x.idx ∧ y.seg = x.seg) ∨ x.seg.toNat < a.next.toNat
        (4096 ≤ p.held.length → waits) ∧
        (p.held.length < 4096 → ¬ again →
          exec (.plinthPairIntake d n tow) s = .next (setPlinth s d n { q with held := p.held ++ [x] })) ∧
        (p.held.length < 4096 → again →
          exec (.plinthPairIntake d n tow) s = .next { setPlinth s d n { q with
            held := p.held ++ [x],
            acc := tabSet p.acc x.idx { a with sum := Config.freeWord s.free, err := Config.freeWord (s.free + 1) } } with
            free := s.free + 2 })) ∧
      (rowsRead p (x.idx / 64) = false → x.seg = a.next → (∀ y ∈ p.held, ¬ (y.idx = x.idx ∧ y.seg = x.seg + 1)) →
        (∃ y ∈ p.held, y.idx = x.idx ∧ y.seg.toNat < (a.next + 1).toNat) →
        ∃ t : State, exec (.plinthPairIntake d n tow) s = .next t ∧
          t.free = s.free + (if x.isInt = rowIsInt p (x.idx / 64) then 2 else 4) ∧
          acc (plinth t d n) x.idx = ⟨Config.freeWord (t.free - 2), Config.freeWord (t.free - 1), a.next + 1, cnt⟩) ∧
      (rowsRead p (x.idx / 64) = false → x.seg = a.next → (∀ y ∈ p.held, ¬ (y.idx = x.idx ∧ y.seg = x.seg + 1)) →
        (∀ y ∈ p.held, y.idx = x.idx → (a.next + 1).toNat ≤ y.seg.toNat) →
        (x.isInt = true → rowIsInt p (x.idx / 64) = true →
          exec (.plinthPairIntake d n tow) s = .next (setTower (setPlinth s d n
            (setAcc q x.idx ⟨a.sum + x.hi, a.err, a.next + 1, cnt⟩)) d n tw)) ∧
        (x.isInt = false → rowIsInt p (x.idx / 64) = false →
          let r := foldWords a.sum.toNat a.err.toNat x.hi.toNat x.lo.toNat
          exec (.plinthPairIntake d n tow) s = .next (setTower (setPlinth s d n
            { setAcc q x.idx ⟨w32 r.1, w32 r.2.1, a.next + 1, cnt⟩ with foldflush := satAdd p.foldflush r.2.2.flush })
            d n { tw with flags := tw.flags ||| r.2.2.flags })) ∧
        (x.isInt ≠ rowIsInt p (x.idx / 64) → ∃ y z : Word, exec (.plinthPairIntake d n tow) s = .next
          { setTower (setPlinth s d n (setAcc q x.idx ⟨y, z, a.next + 1, cnt⟩)) d n { tw with flags := tw.flags ||| 8 } with
            free := s.free + 2 })) ∧
      (rowsRead p (x.idx / 64) = false → x.seg = a.next →
        ∃ t : State, exec (.plinthPairIntake d n tow) s = .next t ∧
          (∀ y ∈ (plinth t d n).held, y ∈ p.held ∧ ¬ (y.idx = x.idx ∧ y.seg = (acc (plinth t d n) x.idx).next)) ∧
          (∀ y ∈ p.held, y.idx ≠ x.idx → y ∈ (plinth t d n).held) ∧
          (∀ i : Nat, i ≠ x.idx → acc (plinth t d n) i = acc p i))) ∧
    (∀ ops : List (TOp × TOp), ops.length ≤ 64 →
      (∀ x ∈ ops, (∃ f ∈ [NFmt.v8, NFmt.g8], ∃ k : Nat, k < 256 ∧ x.1.v = shortVal f k) ∧ x.1.k < 256 ∧
        (∃ f ∈ [NFmt.v8, NFmt.g8], ∃ k : Nat, k < 256 ∧ x.2.v = shortVal f k) ∧ x.2.k < 256) →
      -- exact values in units of 2^-400
      let exactOf := fun (v : FVal) => (match v with
        | .fin z m e => (if z then -1 else 1) * ((m * 2 ^ (e + 400).toNat : Nat) : Int)
        | _ => 0)
      let none_ := fun (x : TOp × TOp) => valIsNaN x.1.v ∨ valIsNaN x.2.v ∨ x.1.k = 255 ∨ x.2.k = 255
      let neg := fun (x : TOp × TOp) => (match x.1.v, x.2.v with
        | .fin z1 _ _, .fin z2 _ _ => z1 != z2
        | _, _ => false)
      let product := fun (x : TOp × TOp) => (match x.1.v, x.2.v with
        | .fin z1 m1 e1, .fin z2 m2 e2 => exactOf (.fin (z1 != z2) (m1 * m2) (e1 + e2 + x.1.k + x.2.k - 254))
        | _, _ => 0)
      let q := fun (x : TOp × TOp) => if (product x).natAbs < 2 ^ 274 then 0 else product x
      let r := treeSum ops
      ((∃ x ∈ ops, none_ x) → r.1 = 0x7FC00000 ∧ r.2.1 = 0) ∧
      ((∀ x ∈ ops, ¬ none_ x) →
        ((∃ x ∈ ops, 2 ^ 528 ≤ product x) → (∃ x ∈ ops, product x ≤ -2 ^ 528) → r.1 = 0x7FC00000 ∧ r.2.1 = 0) ∧
        ((∃ x ∈ ops, 2 ^ 528 ≤ product x) → (∀ x ∈ ops, -2 ^ 528 < product x) → r.1 = 0x7F800000 ∧ r.2.1 = 0) ∧
        ((∀ x ∈ ops, product x < 2 ^ 528) → (∃ x ∈ ops, product x ≤ -2 ^ 528) → r.1 = 0xFF800000 ∧ r.2.1 = 0) ∧
        ((∀ x ∈ ops, (product x).natAbs < 2 ^ 528) →
          ((∀ x ∈ ops, q x = 0) → r.1 = (if ∀ x ∈ ops, neg x = true then 0x80000000 else 0) ∧ r.2.1 = 0) ∧
          (∀ E : Nat, (∃ x ∈ ops, 2 ^ E ≤ (q x).natAbs) → (∀ x ∈ ops, (q x).natAbs < 2 ^ (E + 1)) →
            let g : Int := 2 ^ (E - 24)
            let S := (ops.map (fun x => q x / g * g)).sum
            let near := (roundTo b32 0 (decide (S < 0)) S.natAbs (-400)).1
            let rest := S - exactOf (unpack b32 near)
            r.1 = (flush32 near).1 ∧
            (isFinite b32 near = true → exactOf (unpack b32 r.2.1) = if rest.natAbs < 2 ^ 274 then 0 else rest) ∧
            (isFinite b32 near = false → r.2.1 = 0))))) ∧
    (∀ sum err hi lo : Nat,
      let add := fun (x y : Nat) => (fAdd b32 0 x y).1
      let sub := fun (x y : Nat) => (fSub b32 0 x y).1
      let flush := fun (x : Nat) => (flush32 x).1
      let f := foldWords sum err hi lo
      let z := add sum hi
      (isFinite b32 z = true →
        let b := sub z sum
        let e := add (sub sum (sub z b)) (sub hi b)
        f.1 = flush z ∧ f.2.1 = flush (add err (flush (add e lo))) ∧
        f.2.2.flush = (flush32 (add e lo)).2.flush + (flush32 (add err (flush (add e lo)))).2.flush + (flush32 z).2.flush) ∧
      (isFinite b32 z = false →
        f.1 = (if isNaN b32 z then 0x7FC00000 else z) ∧ f.2.1 = 0 ∧
        f.2.2.flags = if isNaN b32 z then (if isNaN b32 sum || isNaN b32 hi then 0 else fINV)
          else if isFinite b32 sum && isFinite b32 hi then fOVF else 0))

/-- 05 R113, R121 to R123, R129, R131; 03 R68, R69, R72, R73, R75. The layout of PRELOAD's rows is log entry 30, one y row for all rows is
log entry 49, rule L to nearest even with the flush after it, the zero that ROWMAX takes and ROWSUM from its first v on are log entry 61,
and that DRAIN with KEEP = 0 leaves the mode of its rows, and CLEAR discards the held pairs of every column of its rows, is log entry 58
(the model's readings). -/
def Obligations.PlinthCommands : Prop :=
  ∀ (s : State) (d : Fin 4) (n : Fin 8), (cd s d).slewed = false → (cd s d).vaultErr = [] → (cd s d).vaultClearing = false →
    memWf 0 (cd s d).vault = true →
    let c := cd s d
    let p := plinth s d n
    (∀ u : UnitCmd, p.cmd = some u → p.awaiting = false →
      let opc := field (wordAt u.w 0) 31 28
      let row := field (wordAt u.w 1) 24 16
      let M := field (wordAt u.w 1) 15 8 + 1
      let N := field (wordAt u.w 1) 5 0 + 1
      let a := field (wordAt u.w 3) 24 0
      let fin := fun (q : Plinth) (st : Byte) (k r : Word) => { q with
        cmd := none, cmdqWas := none, doneQ := p.doneQ ++ [⟨BitVec.ofNat 4 opc, st, k, r, wordAt u.w 7, u.seq, u.queue, u.die, false⟩] }
      let still := ∀ x ∈ p.held, ¬ (row ≤ x.idx / 64 ∧ x.idx / 64 < row + M)
      let named := fun (i : Nat) => row ≤ i / 64 ∧ i / 64 < row + M ∧ i % 64 < N
      let long : Byte := if ∃ i ∈ (upTo (M * N)), 65536 < (acc p ((row + i / N) * 64 + i % N)).cnt then 0x0A else 0
      (p.settling = false →
        (opc < 8 ∨ 13 < opc → ∀ i ∈ ([.clear d n, .preload d n, .writet d n, .readt d n, .drain d n, .chain d n] : List Instr),
          exec i s = .next (setPlinth s d n (fin p 1 0 0))) ∧
        (let rejects := fun (x : Instr) => exec x s = .next (setPlinth s d n (fin p 1 0 0))
         (opc = 8 → plOk u 8 [0xF800_000E, 0x01FF_FF3F, 0, 0, 0, 0, 0, 0xFFFF_FFFF] = false → rejects (.clear d n)) ∧
         (opc = 9 → (∀ f : NFmt, dataFmt (field (wordAt u.w 0) 27 25) = some f →
            plOk u 9 [0xFF00_000E, 0x01FF_FF3F, 0, 0x01FF_FFFF, 0, 0, 0, 0xFFFF_FFFF] = false ∨ 0x180_0000 < a + preLen u f) →
            rejects (.preload d n)) ∧
         (opc = 10 → (∀ e : DrainCmd, drainFields u = some e → drainOk u e = false) → rejects (.drain d n)) ∧
         (opc = 11 → plOk u 11 [0xF000_000E, 0x01FF_FF3F, 0, 0x01FF_FFFF, 0, 0, 0, 0xFFFF_FFFF] = false ∨
            0x180_0000 < a + (M - 1) * 512 + N * 8 → rejects (.readt d n)) ∧
         (opc = 12 → plOk u 12 [0xF800_000E, 0x01FF_FF3F, 0, 0x01FF_FFFF, 0, 0, 0, 0xFFFF_FFFF] = false ∨
            0x180_0000 < a + (M - 1) * 512 + N * 8 → rejects (.writet d n)) ∧
         (opc = 13 → plOk u 13 [0xFC00_000E, 0x01FF_FF3F, 0xFFFF_0000, 0xFFC0, 0xFFC0, 0, 0, 0xFFFF_FFFF] = false ∨ 64 < M →
            rejects (.chain d n))) ∧
        (512 < row + M → 8 ≤ opc → opc ≤ 13 → exec (([.clear d n, .preload d n, .drain d n, .readt d n, .writet d n,
          .chain d n] : List Instr).getD (opc - 8) .pciePerst) s = .next (setPlinth s d n (fin p 1 0 0))) ∧
        (plOk u 8 [0xF800_000E, 0x01FF_FF3F, 0, 0, 0, 0, 0, 0xFFFF_FFFF] = true →
          ∃ t : State, exec (.clear d n) s = .next t ∧ t = setPlinth s d n (plinth t d n) ∧
            (∀ i : Nat, acc (plinth t d n) i = if named i then {} else acc p i) ∧
            (∀ r : Nat, r < 512 → rowIsInt (plinth t d n) r =
              if row ≤ r ∧ r < row + M then bit (wordAt u.w 0) 27 else rowIsInt p r) ∧
            (plinth t d n).held = p.held.filter (fun x => !decide (row ≤ x.idx / 64 ∧ x.idx / 64 < row + M)) ∧
            plinth t d n = { fin p 0 0 0 with
              acc := (plinth t d n).acc, intRows := (plinth t d n).intRows, held := (plinth t d n).held,
              disc := satAdd p.disc (p.held.length - (plinth t d n).held.length) }) ∧
        (∀ f : NFmt, dataFmt (field (wordAt u.w 0) 27 25) = some f → still →
          plOk u 9 [0xFF00_000E, 0x01FF_FF3F, 0, 0x01FF_FFFF, 0, 0, 0, 0xFFFF_FFFF] = true → a + preLen u f ≤ 0x180_0000 →
          let rs := if bit (wordAt u.w 0) 24 then 0 else (N * nfSize f + 63) / 64 * 64
          ∃ t : State, exec (.preload d n) s = .next t ∧
            (∀ i : Nat, acc (plinth t d n) i = if named i then
              ⟨w32 (preWord f (leNat (memBytes 0 c.vault (a + (i / 64 - row) * rs + i % 64 * nfSize f) (nfSize f)))).1, 0, 0, 1⟩
              else acc p i) ∧
            (∀ r : Nat, r < 512 → rowIsInt (plinth t d n) r = if row ≤ r ∧ r < row + M then nfIsInt f else rowIsInt p r) ∧
            t = setTower (setPlinth s d n { fin p 0 (((plinth t d n).doneQ.getLastD {}).counters) 0 with
              acc := (plinth t d n).acc, intRows := (plinth t d n).intRows }) d n (tower t d n) ∧
            tower t d n = { tower s d n with flags := (tower s d n).flags ||| (tower t d n).flags }) ∧
        (plOk u 12 [0xF800_000E, 0x01FF_FF3F, 0, 0x01FF_FFFF, 0, 0, 0, 0xFFFF_FFFF] = true →
          a + (M - 1) * 512 + N * 8 ≤ 0x180_0000 → still →
          let int := bit (wordAt u.w 0) 27
          let word := fun (i k : Nat) => leWord (memBytes 0 c.vault (a + (i / 64 - row) * 512 + i % 64 * 8 + k) 4)
          ∃ t : State, exec (.writet d n) s = .next t ∧
            (∀ i : Nat, acc (plinth t d n) i = if named i then
              (if int then ⟨word i 0, 0, 0, 1⟩
              else ⟨w32 (flush32 (word i 0).toNat).1, w32 (flush32 (word i 4).toNat).1, 0, 1⟩) else acc p i) ∧
            (∀ r : Nat, r < 512 → rowIsInt (plinth t d n) r = if row ≤ r ∧ r < row + M then int else rowIsInt p r) ∧
            t = setTower (setPlinth s d n { fin p 0 (((plinth t d n).doneQ.getLastD {}).counters) 0 with
              acc := (plinth t d n).acc, intRows := (plinth t d n).intRows }) d n (tower t d n) ∧
            tower t d n = { tower s d n with flags := (tower s d n).flags ||| (tower t d n).flags }) ∧
        (plOk u 11 [0xF000_000E, 0x01FF_FF3F, 0, 0x01FF_FFFF, 0, 0, 0, 0xFFFF_FFFF] = true →
          a + (M - 1) * 512 + N * 8 ≤ 0x180_0000 →
          (¬ still → exec (.readt d n) s = .next (setPlinth s d n { p with settling := true })) ∧
          (still → ∃ t : State, exec (.readt d n) s = .next t ∧
            tileWritten c.vault (cd t d).vault a 512 M (8 * N) (fun m i =>
              let k := (row + m) * 64 + i / 8
              let w : Word := if i % 8 < 4 then (acc p k).sum else if rowIsInt p (row + m) then 0 else (acc p k).err
              BitVec.ofNat 8 (w.toNat / 256 ^ (i % 4))) ∧
            t = putCd s d { c with
              vault := (cd t d).vault, plinths := tabSet c.plinths n.val
                (fin { p with settling := false, read := some (row, M) } long 0 0) })) ∧
        (∀ e : DrainCmd, drainFields u = some e → drainOk u e = true → p.reseed = false →
          (¬ still → exec (.drain d n) s = .next (setPlinth s d n { p with settling := true })) ∧
          (still →
            let k := nfSize e.df
            let W := if e.mode = 5 then e.k else N
            let rs := (W * k + 63) / 64 * 64
            let ylen := if e.mode = 1 ∨ e.mode = 2 then 4 * M else if e.mode = 5 then 2 * (M * e.k) else 0
            let sc := (flush32 e.t).1
            let y := fun (j : Nat) => (toB32 e.yf (leNat (memBytes 0 c.vault (e.yaddr + j * nfSize e.yf) (nfSize e.yf)))).1
            let el := fun (m j : Nat) =>
              let x := acc p ((row + m) * 64 + j)
              let z : DElem :=
                if rowIsInt p (row + m) then
                  (if nfIsInt e.df then ⟨flInt x.sum.toNat, some x.sum.toInt, some x.sum.toInt⟩
                  else ⟨(flMul (flInt x.sum.toNat) sc).1, none, some x.sum.toInt⟩)
                else ⟨(flMul (flAdd x.sum.toNat x.err.toNat).1 sc).1, none, none⟩
              if e.mode = 3 then
                (⟨match z.int with
                  | some q => (flAddInt q (y j)).1
                  | none => (flAdd z.v (y j)).1, none, z.cmp⟩ : DElem)
              else if e.mode = 4 then
                ⟨match z.int with
                  | some q => (flMulInt q (y j)).1
                  | none => (flMul z.v (y j)).1, none, z.cmp⟩
              else z
            let els := fun (m : Nat) => (upTo N).map (el m)
            let place := fun (m j : Nat) =>
              if e.mode = 5 then ((topK e.k (els m))[j]?).map (·.2) else if j < N then some (el m j) else none
            let draws := fun (m j : Nat) =>
              (place m j).any (fun x => e.nc.sr && convDraws (if x.int.isSome then .i32 else .b32) e.df)
            let gen := fun (j times : Nat) =>
              Nat.repeat lfsrNext12 times (tabGet (genInit p.genSeed (d.val * 4096 + n.val * 512 + 256 + j)) p.gens (256 + j))
            let drawn := fun (m j : Nat) => ((upTo m).filter (fun r => draws r j)).length
            let out := fun (m j : Nat) =>
              match place m j with
              | none => noNumber e.df
              | some x =>
                let rnd := if draws m j then (gen j (drawn m j + 1)).toNat % 4096 else 0
                (flushOut e.df (match x.int with
                  | some q => (convert .i32 e.df e.nc 0 rnd (intBits 32 q)).1
                  | none => (convert .b32 e.df e.nc 0 rnd x.v).1)).1
            let ybyte := fun (i : Nat) =>
              if e.mode = 5 then
                (((topK e.k (els (i / 2 / e.k)))[i / 2 % e.k]?).map (fun x => (e.pcol + x.1) % 65536)).getD 0xFFFF / 256 ^ (i % 2)
              else (if e.mode = 1 then rowMax (els (i / 4)) else (rowSum (els (i / 4))).1) / 256 ^ (i % 4)
            ylen = 0 ∨ e.daddr + (M - 1) * rs + W * k ≤ e.yaddr ∨ e.yaddr + ylen ≤ e.daddr →
            ∃ t : State, exec (.drain d n) s = .next t ∧
              (∀ m i : Nat, m < M → i < W * k →
                memRead 0 (cd t d).vault (e.daddr + m * rs + i) = BitVec.ofNat 8 (out m (i / k) / 256 ^ (i % k))) ∧
              (∀ i : Nat, i < ylen → memRead 0 (cd t d).vault (e.yaddr + i) = BitVec.ofNat 8 (ybyte i)) ∧
              (∀ x : Nat, (∀ m : Nat, m < M → ¬ (e.daddr + m * rs ≤ x ∧ x < e.daddr + m * rs + W * k)) →
                ¬ (e.yaddr ≤ x ∧ x < e.yaddr + ylen) → memRead 0 (cd t d).vault x = memRead 0 c.vault x) ∧
              (plinth t d n).runmax = w32 ((upTo (M * N)).foldl (fun x i => runMax x (el (i / N) (i % N)).v) 0) ∧
              (∀ j : Nat, tabGet (genInit p.genSeed (d.val * 4096 + n.val * 512 + 256 + j)) (plinth t d n).gens (256 + j)
                = gen j (drawn M j)) ∧
              plinth t d n = { fin { p with settling := false, read := some (row, M) } long
                ((plinth t d n).doneQ.getLastD {}).counters (plinth t d n).runmax with
                acc := (plinth t d n).acc, runmax := (plinth t d n).runmax, gens := (plinth t d n).gens } ∧
              (∀ i : Nat, acc (plinth t d n) i = if named i ∧ e.keep = false then {} else acc p i) ∧
              t = setTower (putCd s d { c with
                vault := (cd t d).vault, plinths := tabSet c.plinths n.val (plinth t d n) }) d n (tower t d n) ∧
              tower t d n = { tower s d n with flags := (tower s d n).flags ||| (tower t d n).flags })) ∧
        (∀ e : DrainCmd, drainFields u = some e → drainOk u e = true → p.reseed = true →
          exec (.drain d n) s = exec (.drain d n) (setPlinth s d n { p with
            genSeed := p.seed ^^^ BitVec.ofNat 32 (s.nld.chip.toNat * 16384), gens := [], reseed := false }))) ∧
      (p.settling = true → still →
        let again := setPlinth s d n { p with settling := false }
        (plOk u 11 [0xF000_000E, 0x01FF_FF3F, 0, 0x01FF_FFFF, 0, 0, 0, 0xFFFF_FFFF] = true →
          a + (M - 1) * 512 + N * 8 ≤ 0x180_0000 → exec (.plinthSettled d n) s = exec (.readt d n) again) ∧
        (∀ e : DrainCmd, drainFields u = some e → drainOk u e = true → p.reseed = false →
          exec (.plinthSettled d n) s = exec (.drain d n) again) ∧
        (plOk u 13 [0xFC00_000E, 0x01FF_FF3F, 0xFFFF_0000, 0xFFC0, 0xFFC0, 0, 0, 0xFFFF_FFFF] = true → M ≤ 64 →
          exec (.plinthSettled d n) s = exec (.chain d n) again)) ∧
      (¬ still → exec (.plinthSettled d n) s = .next s)) ∧
    (∀ (off : BitVec 18) (x : Word), regsUp s = true → off.toNat % 4 = 0 →
      let i := off.toNat / 8
      let b := acc p i
      let sum := off.toNat % 8 < 4
      (rowIsInt p (i / 64) = true → exec (.plinthStore d n off x) s = .next (if sum then
        setPlinth s d n { p with acc := tabSet p.acc i { b with sum := x } } else s)) ∧
      (rowIsInt p (i / 64) = false →
        let z := w32 (flush32 x.toNat).1
        exec (.plinthStore d n off x) s = .next (setTower (setPlinth s d n { p with
            acc := tabSet p.acc i (if sum then { b with sum := z } else { b with err := z }) }) d n
          { tower s d n with flags := (tower s d n).flags ||| (flush32 x.toNat).2.flags })))

/-- 05 R124 to R126; 10 R241. A tile for a Plinth of the same die is handed over; for another die or chip each row is a CHN request. The
addition of INT rows as int32 with error word 0 is log entry 58; that a count that differs is found at the first row seen, what a break
does while a tile is sent, and that an absent neighbour breaks the chain are log entry 73; that a die of another chip counts as isolated
once an answer has said so is log entry 74 (the model's choices). -/
def Obligations.PlinthChains : Prop :=
  (∀ (s : State) (d : Nat) (w : Word),
    let c := field w 15 13
    let e := field w 12 9
    chainLost s d w = true ↔ 3 < e ∨ chipPresent s c = false ∨ (c, e) ∈ s.nld.farIso ∨
      (if c = s.nld.chip.toNat then diesJoined s d e = false else s.nld.isoChips.getLsbD c = true ∨ diesJoined s d 4 = false)) ∧
  (∀ (s : State) (d : Fin 4) (n : Fin 8) (u : UnitCmd), (∀ k : Fin 4, (cd s k).slewed = false) →
    (∀ (k : Fin 4) (j : Fin 8), (plinth s k j).outRows = []) → (∀ x ∈ allAsks s, x.2.who ≠ .unit (.plinth d n)) →
    (plinth s d n).cmd = some u → (plinth s d n).settling = false → (plinth s d n).chainSent = 0 →
    plOk u 13 [0xFC00_000E, 0x01FF_FF3F, 0xFFFF_0000, 0xFFC0, 0xFFC0, 0, 0, 0xFFFF_FFFF] = true →
    field (wordAt u.w 1) 15 8 < 64 →
    let p := plinth s d n
    let row := field (wordAt u.w 1) 24 16
    let M := field (wordAt u.w 1) 15 8 + 1
    let N := field (wordAt u.w 1) 5 0 + 1
    let chid := (wordAt u.w 2).extractLsb' 16 16
    let chip := field (wordAt u.w 3) 15 13
    let e := field (wordAt u.w 3) 12 9
    let m := field (wordAt u.w 3) 8 6
    let first := bit (wordAt u.w 0) 27
    let last := bit (wordAt u.w 0) 26
    let home := chip = s.nld.chip.toNat ∧ e = d.val
    let lost := chainLost s d (wordAt u.w 3)
    let cut := (last = false ∧ lost = true) ∨ (first = false ∧ chainLost s d (wordAt u.w 4) = true)
    let ep := epToward d (if chip = s.nld.chip.toNat then e else 4)
    let ask := fun (kind len op w6 : Nat) (bs : List Byte) => ({
      kind := kind, src := 0x20 + n.val, die := d.val, addr := chip * 2 ^ 45 + e * 2 ^ 41 + 0x200000000 + m * 0x40000, len := len,
      operand := BitVec.ofNat 32 (chid.toNat * 65536 + op), word6 := BitVec.ofNat 32 w6, payload := bs } : Ask)
    let local_ := fun (r j : Nat) =>
      let i := (row + r) * 64 + j
      ((acc p i).sum, if rowIsInt p (row + r) then (0 : Word) else (acc p i).err, (acc p i).cnt)
    let long := fun (out : Nat → Nat → Word × Word × Nat) =>
      (if ∃ i ∈ upTo (M * N), 65536 < (out (i / N) (i % N)).2.2 then 0x0A else 0 : Byte)
    let done := fun (st : Byte) (k : Word) =>
      p.doneQ ++ [⟨13, st, k, 0, wordAt u.w 7, u.seq, u.queue, u.die, false⟩]
    let free := p.chainBufs.eraseP (fun x => decide (x.chid = chid))
    let full := fun (q : Plinth) => (q.chainBufs.filter (fun x => !x.broken || decide (x.rows ≠ []))).length
    let leaves := fun (x : Instr) (base : State) (q : Plinth) (out : Nat → Nat → Word × Word × Nat) =>
      (home → m ≠ n.val → chainInputs s d m = [] → (∀ x ∈ (plinth s d m).chainBufs, x.chid = chid → x.m ≤ x.rows.length) →
        full (plinth s d m) < 2 →
        exec x s = .next (setPlinth (setPlinth base d m { plinth s d m with
          chainRr := n.val,
          chainBufs := (plinth s d m).chainBufs ++ [⟨chid, M, N, (upTo M).map (fun r => (r, (upTo N).map (out r))), false⟩] }) d n { q with
          cmd := none, cmdqWas := none, settling := false, awaiting := false, outRows := [], chainSent := 0, doneQ := done q.chainStat q.chainCnt })) ∧
      (¬ home → lost = false → epOpen s ep = true →
        exec x s = .next (setPlinth
          ((upTo M).foldl (fun t r => linkAsk t ep
            (ask 8 768 ((M - 1) * 256 + r) (N - 1) (chnBytes ((upTo N).map (out r)))) (.unit (.plinth d n))) base) d n
          { q with awaiting := true, chainSent := M }))
    let breaks := fun (x : Instr) (q : Plinth) =>
      let t := setPlinth s d n { q with
        cmd := none, cmdqWas := none, settling := false, awaiting := false, outRows := [], chainSent := 0, doneQ := done 0x0B q.chainCnt,
        chainBufs := free }
      exec x s = .next (
        if last = true ∨ lost = true then t
        else if home then setPlinth t d m (chainNotice (plinth t d m) chid)
        else if epOpen s ep = true then linkAsk t ep (ask 9 0 0 0 []) .boot
        else t)
    (p.awaiting = false → settled p row M = true → first = false → ¬ cut →
      exec (.chain d n) s = .next (setPlinth s d n { p with
        settling := false, awaiting := true, read := some (row, M), chainCnt := 0 })) ∧
    (p.awaiting = false → settled p row M = true → cut → breaks (.chain d n) { p with read := some (row, M), chainCnt := 0 }) ∧
    (p.awaiting = false → settled p row M = true → first = true → last = false → lost = false →
      let q := { p with settling := false, awaiting := true, read := some (row, M), chainCnt := 0, chainStat := long local_ }
      leaves (.chain d n) (setPlinth s d n q) q local_) ∧
    (p.awaiting = true → first = false →
      (∀ b : ChainBuf, chainBuf p chid = some b →
        (b.broken = true ∨ b.m ≠ M ∨ b.n ≠ N ∨ cut → breaks (.chainCombine d n) p) ∧
        (b.broken = false → b.m = M → b.n = N → b.rows.length ≠ M → ¬ cut → exec (.chainCombine d n) s = .next s) ∧
        (b.broken = false → b.m = M → b.n = N → ¬ cut → b.rows.length = M → (∀ r : Nat, r < M → (tabGet [] b.rows r).length = N) →
          let inc := fun (r j : Nat) => (tabGet [] b.rows r).getD j (0, 0, 0)
          let mix := fun (r j : Nat) =>
            let a := inc r j
            let l := local_ r j
            let x := chainWords a.1.toNat a.2.1.toNat l.1.toNat l.2.1.toNat
            let cnt := min (a.2.2 + l.2.2) 65537
            if rowIsInt p (row + r) then (a.1 + l.1, (0 : Word), cnt) else (w32 x.1, w32 x.2.1, cnt)
          (last = true → ∃ t : State, exec (.chainCombine d n) s = .next t ∧
            (∀ i : Nat, acc (plinth t d n) i =
              if row ≤ i / 64 ∧ i / 64 < row + M ∧ i % 64 < N then
                let x := mix (i / 64 - row) (i % 64)
                { acc p i with sum := x.1, err := x.2.1, cnt := x.2.2 }
              else acc p i) ∧
            plinth t d n = { p with
              cmd := none, cmdqWas := none, awaiting := false, chainStat := long mix, chainCnt := (plinth t d n).chainCnt,
              foldflush := (plinth t d n).foldflush,
              doneQ := done (long mix) (plinth t d n).chainCnt, acc := (plinth t d n).acc, longSum := (plinth t d n).longSum,
              chainBufs := free } ∧
            t = setTower (setPlinth s d n (plinth t d n)) d n { tower s d n with flags := (tower t d n).flags }) ∧
          (last = false → ∃ (k ff : Word) (f : TFlags),
            let q := { p with chainCnt := k, foldflush := ff, chainBufs := free, chainStat := long mix }
            leaves (.chainCombine d n)
              (setTower (setPlinth s d n q) d n { tower s d n with flags := (tower s d n).flags ||| f }) q mix))) ∧
      (chainBuf p chid = none → (cut → breaks (.chainCombine d n) p) ∧ (¬ cut → exec (.chainCombine d n) s = .next s)))) ∧
  (∀ (p : Plinth) (chid : BitVec 16) (m n r : Nat) (row : List (Word × Word × Nat)),
    let full := (p.chainBufs.filter (fun x => !x.broken || decide (x.rows ≠ []))).length
    (∀ x ∈ p.chainBufs, x.chid = chid → x.m ≤ x.rows.length) →
      (full < 2 → chainRow p chid m n r row = some { p with chainBufs := p.chainBufs ++ [⟨chid, m, n, [(r, row)], false⟩] }) ∧
      (2 ≤ full → chainRow p chid m n r row = none)) ∧
  (∀ (s : State) (d : Fin 4) (n : Fin 8) (u : UnitCmd), (∀ k : Fin 4, (cd s k).slewed = false) →
    (plinth s d n).cmd = some u → (plinth s d n).outRows = [] → (plinth s d n).chainSent ≠ 0 →
    (plinth s d n).awaiting = true → bit (wordAt u.w 0) 26 = false → chainLost s d (wordAt u.w 3) = false →
    field (wordAt u.w 0) 31 28 = 13 → (s.nld.parties.map Prod.fst).Pairwise (· < ·) →
    let p := plinth s d n
    let mine := fun (x : Nat × Outst) => decide (x.2.who = .unit (.plinth d n)) && decide (txnKind x.2.txn = 8)
    let left := ∀ x ∈ allAsks s, mine x = true → x.2.sent = true ∧ askWaits s x.2 = false
    (left → chainScan s [(d, n)] = s) ∧
    (¬ left → bit (wordAt u.w 0) 27 = false → chainLost s d (wordAt u.w 4) = true →
      ∃ t : State, t = { s with nld := { s.nld with eps := t.nld.eps, parties := t.nld.parties } } ∧
        (∀ x ∈ allAsks s, mine x = true → x.2.sent = false → askWaits t x.2 = false) ∧
        (∀ x ∈ allAsks t, mine x = false) ∧
        let t1 := setPlinth t d n { p with
          cmd := none, cmdqWas := none, settling := false, awaiting := false, outRows := [], chainSent := 0,
          doneQ := p.doneQ ++ [⟨13, 0x0B, p.chainCnt, 0, wordAt u.w 7, u.seq, u.queue, u.die, false⟩] }
        let chip := field (wordAt u.w 3) 15 13
        let e := field (wordAt u.w 3) 12 9
        let ep := epToward d (if chip = s.nld.chip.toNat then e else 4)
        ¬ (chip = s.nld.chip.toNat ∧ e = d.val) →
          chainScan s [(d, n)] = if epOpen s ep = true then
            linkAsk t1 ep ({
              kind := 9, src := 0x20 + n.val, die := d.val, len := 0, payload := [],
              addr := chip * 2 ^ 45 + e * 2 ^ 41 + 0x200000000 + field (wordAt u.w 3) 8 6 * 0x40000,
              operand := BitVec.ofNat 32 (((wordAt u.w 2).extractLsb' 16 16).toNat * 65536), word6 := 0 } : Ask) .boot
            else t1)) ∧
  (∀ inSum inErr sum err : Nat,
    let add := fun (x y : Nat) => (fAdd b32 0 x y).1
    let sub := fun (x y : Nat) => (fSub b32 0 x y).1
    let flush := fun (x : Nat) => (flush32 x).1
    let x := chainWords inSum inErr sum err
    let z := add inSum sum
    (isFinite b32 z = true →
      let b := sub z inSum
      let e := add (sub inSum (sub z b)) (sub sum b)
      x.1 = flush z ∧ x.2.1 = flush (add (flush (add inErr err)) e)) ∧
    (isFinite b32 z = false → x.1 = (if isNaN b32 z then 0x7FC00000 else z) ∧ x.2.1 = 0))

/-- 05 R122, R123: TOPK by the values of FP rows and by the integers of INT rows, ROWMAX, and the running maximum. -/
def Obligations.TopKSelectsLargest : Prop :=
  (∀ (k : Nat) (es : List DElem), (∀ e ∈ es, e.v < 2 ^ 32) →
    ((∀ e ∈ es, e.cmp = none) ∨ (∀ e ∈ es, e.cmp.isSome = true)) →
    let top := topK k es
    let at_ := fun (i : Nat) => es.getD i ⟨0, none, none⟩
    let ok := (upTo es.length).filter (fun i => !isNaN b32 (at_ i).v)
    let comesBefore := fun (a b : Nat × DElem) =>
      match a.2.cmp, b.2.cmp with
      | some x, some y => y < x ∨ (x = y ∧ a.1 < b.1)
      | _, _ => fLt b32 b.2.v a.2.v = true ∨ (fLt b32 a.2.v b.2.v = false ∧ a.1 < b.1)
    top.length = min k ok.length ∧
    (∀ x ∈ top, x.1 ∈ ok ∧ x.2 = at_ x.1) ∧
    top.Pairwise comesBefore ∧
    (∀ x ∈ top, ∀ i ∈ ok, i ∉ top.map (·.1) → comesBefore x (i, at_ i))) ∧
  (∀ es : List DElem,
    ((∀ e ∈ es, isNaN b32 e.v = true) → rowMax es = 0x7FC00000) ∧
    ((∃ e ∈ es, isNaN b32 e.v = false) → (∃ e ∈ es, isNaN b32 e.v = false ∧ e.v = rowMax es) ∧
      ∀ e ∈ es, isNaN b32 e.v = false → fLt b32 (rowMax es) e.v = false)) ∧
  (∀ xs : List Nat,
    let m := xs.foldl runMax 0
    isNaN b32 m = false ∧ (m = 0 ∨ ∃ x ∈ xs, isNaN b32 x = false ∧ m = fAbs b32 x) ∧
      ∀ x ∈ xs, isNaN b32 x = false → fLt b32 m (fAbs b32 x) = false)

/-- 06 R139, R145, R151, R154, R156 to R158; 02 R39 for the order of the accesses that have waited, whose inputs'
numbers are log entry 64. LNT_LASTPC of a refused instruction, the one step that a chain counts, and LNT_LASTPC and
LNT_STEPS inside a lane program are log entry 31 (the model's readings). -/
def Obligations.LanternRuns : Prop :=
  ∀ (s : State) (d : Fin 4) (n : Fin 8), (cd s d).slewed = false →
    let v := lantern s d n
    let steps := fun (r : LnRun) => if r.inChain then v.steps else if v.steps = 0xFFFF_FFFF then v.steps else v.steps + 1
    let fin := fun (u : UnitCmd) (st : Byte) (sat flush : Nat) (last : BitVec 12) =>
      v.doneQ ++ [⟨BitVec.ofNat 4 (field (wordAt u.w 0) 31 28), st, counterWord sat flush,
        w32 (last.toNat * 65536 + v.k), wordAt u.w 7, u.seq, u.queue, u.die, false⟩]
    (∀ u : UnitCmd, v.cmd = some u → v.run = none → v.held ≠ [] → exec (.lntRun d n) s = .next s) ∧
    (∀ u : UnitCmd, v.cmd = some u → v.run = none → v.reseed = false → v.held = [] →
      (field (wordAt u.w 0) 31 28 = 1 ∧ wordAt u.w 0 &&& 0x0100_F000 = 0 ∧ field (wordAt u.w 0) 27 25 < 5 →
        exec (.lntRun d n) s = .next (setLantern s d n { v with run := some {
          pc := field (wordAt u.w 0) 11 0, rep := field (wordAt u.w 0) 23 16,
          p := [wordAt u.w 1, wordAt u.w 2, wordAt u.w 3, wordAt u.w 4, wordAt u.w 5],
          rm := (wordAt u.w 0).extractLsb' 25 3, sat := 0, flush := 0, longSum := false, inChain := false, lane := none } })) ∧
      (field (wordAt u.w 0) 31 28 ≠ 1 ∨ wordAt u.w 0 &&& 0x0100_F000 ≠ 0 ∨ 5 ≤ field (wordAt u.w 0) 27 25 →
        exec (.lntRun d n) s = .next (setLantern s d n { v with cmd := none, cmdqWas := none, doneQ := fin u 1 0 0 v.lastpc }))) ∧
    (∀ (r : LnRun) (i : LnInsn), lnIssues s d n r i →
      (i.opc = 1 → ∃ t : State, exec (.lntNop d n) s = .next t ∧ t = setLantern s d n (lantern t d n) ∧
        lnIssued v (lantern t d n) r i ∧ (lantern t d n).tile = v.tile) ∧
      (i.opc = 3 → exec (.lntSetrm d n) s = .next (setLantern s d n { v with
        lastpc := BitVec.ofNat 12 r.pc, steps := steps r,
        run := some (lnAfter { r with rm := i.imm.extractLsb' 0 3 } r i) })) ∧
      (i.opc = 4 → exec (.lntLane d n) s = .next (setLantern s d n { v with
        lastpc := BitVec.ofNat 12 r.pc, steps := steps r,
        run := some { r with lane := some (field i.imm 11 0, field i.imm 17 12 + 1) } })) ∧
      (∀ u : UnitCmd, i.opc = 2 → v.cmd = some u →
        (r.rep ≠ 0 → exec (.lntEnd d n) s = .next (setLantern s d n { v with
          lastpc := BitVec.ofNat 12 r.pc, steps := steps r,
          run := some { r with
            rep := r.rep - 1, pc := field (wordAt u.w 0) 11 0, inChain := false,
            p := (r.p.set 0 (wordAt r.p 0 + ((wordAt u.w 6).extractLsb' 16 16).signExtend 32)).set 1
              (wordAt r.p 1 + ((wordAt u.w 6).extractLsb' 0 16).signExtend 32) } })) ∧
        (r.rep = 0 → exec (.lntEnd d n) s = .next (setLantern s d n { v with
          lastpc := BitVec.ofNat 12 r.pc, steps := steps r, run := none, cmd := none, cmdqWas := none,
          doneQ := fin u (if r.longSum then 0x0A else 0) r.sat r.flush (BitVec.ofNat 12 r.pc) }))) ∧
      (∀ e ∈ lanternRows d n, i.opc ≠ e.1 → exec e.2 s = .next s)) ∧
    (∀ (r : LnRun) (u : UnitCmd), v.run = some r → v.cmd = some u → lnLegal s d n r = false →
      ∀ e ∈ lanternRows d n,
        exec e.2 s = .next (setLantern s d n { v with
          run := none, cmd := none, cmdqWas := none, doneQ := fin u 0x0C r.sat r.flush v.lastpc })) ∧
    (v.run = none → ∀ e ∈ lanternRows d n, exec e.2 s = .next s) ∧
    (v.held ≠ [] → ∃ h : HeldAccess, nextHeld d v = some h) ∧
    (∀ h : HeldAccess, nextHeld d v = some h → h ∈ v.held ∧
      (∀ x ∈ v.held, v.heldRr < heldInput d x → v.heldRr < heldInput d h ∧ heldInput d h ≤ heldInput d x) ∧
      ((∀ x ∈ v.held, heldInput d x ≤ v.heldRr) → ∀ x ∈ v.held, heldInput d h ≤ heldInput d x)) ∧
    (∀ h : HeldAccess, v.run = none → nextHeld d v = some h →
      let u := setLantern s d n { v with held := v.held.erase h, heldRr := heldInput d h }
      (∀ (j : Fin 32) (m : MeshAcc), h = { who := .spire d j } → (spire s d j).mesh = some m → m.held = true →
        m.isStore = false → m.size = 4 → ∀ o : Nat, o < 0x8000 → o % 4 = 0 →
        m.dev.toNat = s.nld.chip.toNat * 2 ^ 45 + d.val * 2 ^ 41 + 0x300000000 + n.val * 0x8000 + o →
          exec (.lanternMemAccess d n) s = .next (setSpire u d j
            { spire s d j with mesh := some { m with held := false, answer := some (0, tabGet 0 v.tile (o / 4)) } })) ∧
      (∀ (who : Origin) (a : Requester) (addr : Nat) (x : Word), h = { who := who, reg := some (a, addr, x) } →
        exec (.lanternMemAccess d n) s = .next (registerLate u a addr x)) ∧
      (∀ (who : Origin) (e : Nat) (t : Txn), h = { who := who, txn := some (e, t) } →
        exec (.lanternMemAccess d n) s = .next ((txnHere u e t).getD u))) ∧
    (∀ r : LnRun, v.run = some r → exec (.lanternMemAccess d n) s = .next s)

/-- 06 R148, R149, R152, Table 6-4. That MIN and MAX are minimumNumber and maximumNumber, that ABS and NEG touch the sign bit of a NaN
alone, and that they give the least int32 back, is log entry 31 (the model's readings). The finite results of the binary16 and binary32
operations are those of LongFormatsExact. -/
def Obligations.LanternArithmetic : Prop :=
  ∀ (s : State) (d : Fin 4) (n : Fin 8) (r : LnRun) (i : LnInsn), lnIssues s d n r i →
    let v := lantern s d n
    let rm := r.rm.toNat
    let a := fun (k : Nat) => lnWord v i.ta k
    let b := fun (k : Nat) => if i.immb then i.imm.toNat else lnWord v i.tb k
    let c := fun (k : Nat) => lnWord v (field i.imm 4 0) k
    let writes := fun (x : Instr) (f : Nat → Nat) =>
      ∃ t : State, exec x s = .next t ∧ t = setLantern s d n (lantern t d n) ∧ lnIssued v (lantern t d n) r i ∧
        (lantern t d n).gens = v.gens ∧ lnWrote v (lantern t d n) i.td f
    let form := fun (f16 f32 : Nat → Nat → Nat) (f : Word → Word → Word) (x y : Nat) =>
      if i.fmt = 2 then f16 (x % 65536) (y % 65536) else if i.fmt = 3 then f32 x y else (f (w32 x) (w32 y)).toNat
    let truth := fun (p : Bool) => if p then (0xFFFF_FFFF : Word) else 0
    let none_ := fun (_ _ : Word) => (0 : Word)
    (∀ e ∈ ([(0x20, .lntAdd d n, fun x y => (fAdd b16 rm x y).1, fun x y => (fAdd b32 rm x y).1, fun x y => x + y),
        (0x21, .lntSub d n, fun x y => (fSub b16 rm x y).1, fun x y => (fSub b32 rm x y).1, fun x y => x - y),
        (0x22, .lntMul d n, fun x y => (fMul b16 rm x y).1, fun x y => (fMul b32 rm x y).1, fun x y => x * y),
        (0x24, .lntMin d n, fun x y => (fMin b16 x y).1, fun x y => (fMin b32 x y).1, fun x y => if x.toInt ≤ y.toInt then x else y),
        (0x25, .lntMax d n, fun x y => (fMax b16 x y).1, fun x y => (fMax b32 x y).1, fun x y => if y.toInt ≤ x.toInt then x else y),
        (0x28, .lntDiv d n, fun x y => (fDiv b16 rm x y).1, fun x y => (fDiv b32 rm x y).1, none_),
        (0x2A, .lntAnd d n, fun _ _ => 0, fun _ _ => 0, fun x y => x &&& y),
        (0x2B, .lntOr d n, fun _ _ => 0, fun _ _ => 0, fun x y => x ||| y),
        (0x2C, .lntXor d n, fun _ _ => 0, fun _ _ => 0, fun x y => x ^^^ y),
        (0x2D, .lntShl d n, fun _ _ => 0, fun _ _ => 0, fun x y => x <<< (y.toNat % 32)),
        (0x2E, .lntShr d n, fun _ _ => 0, fun _ _ => 0, fun x y => x.sshiftRight (y.toNat % 32)),
        (0x30, .lntCeq d n, fun x y => (truth (fCeq b16 x y)).toNat, fun x y => (truth (fCeq b32 x y)).toNat,
          fun x y => truth (decide (x = y))),
        (0x31, .lntClt d n, fun x y => (truth (fClt b16 x y)).toNat, fun x y => (truth (fClt b32 x y)).toNat,
          fun x y => truth (decide (x.toInt < y.toInt))),
        (0x32, .lntCle d n, fun x y => (truth (fCle b16 x y)).toNat, fun x y => (truth (fCle b32 x y)).toNat,
          fun x y => truth (decide (x.toInt ≤ y.toInt))),
        (0x33, .lntCun d n, fun x y => (truth (isNaN b16 x || isNaN b16 y)).toNat,
          fun x y => (truth (isNaN b32 x || isNaN b32 y)).toNat, none_)] :
        List (Nat × Instr × (Nat → Nat → Nat) × (Nat → Nat → Nat) × (Word → Word → Word))),
      i.opc = e.1 → writes e.2.1 (fun k => form e.2.2.1 e.2.2.2.1 e.2.2.2.2 (a k) (b k))) ∧
    (∀ e ∈ ([(0x26, .lntAbs d n, fun x => fAbs b16 x, fun x => fAbs b32 x, fun x => if x.toInt < 0 then -x else x),
        (0x27, .lntNeg d n, fun x => fNeg b16 x, fun x => fNeg b32 x, fun x => -x),
        (0x29, .lntSqrt d n, fun x => (fSqrt b16 rm x).1, fun x => (fSqrt b32 rm x).1, fun x => x)] :
        List (Nat × Instr × (Nat → Nat) × (Nat → Nat) × (Word → Word))),
      i.opc = e.1 → writes e.2.1 (fun k => form (fun x _ => e.2.2.1 x) (fun x _ => e.2.2.2.1 x) (fun x _ => e.2.2.2.2 x) (a k) 0)) ∧
    (i.opc = 0x23 → writes (.lntFma d n) (fun k => if i.fmt = 2 then
      (fFma b16 rm (a k % 65536) (lnWord v i.tb k % 65536) (c k % 65536)).1 else (fFma b32 rm (a k) (lnWord v i.tb k) (c k)).1)) ∧
    (i.opc = 0x10 → writes (.lntMov d n) a) ∧
    (i.opc = 0x11 → writes (.lntTrn d n) (fun k => a (16 * (k % 16) + k / 16))) ∧
    (i.opc = 0x12 → writes (.lntBcr d n) (fun k => a (16 * field i.imm 3 0 + k % 16))) ∧
    (i.opc = 0x13 → writes (.lntBcc d n) (fun k => a (16 * (k / 16) + field i.imm 3 0))) ∧
    (i.opc = 0x14 → writes (.lntLid d n) (fun k => k)) ∧
    (i.opc = 0x15 → writes (.lntRix d n) (fun k => lnWord v (a k % 32) k)) ∧
    (i.opc = 0x16 → writes (.lntSel d n) (fun k => if c k ≠ 0 then a k else lnWord v i.tb k))

/-- 06 R146 to R150; 03 R67 to R69, R73. The error bounds and the monotonicity of R150 are stated against `approxExp` and its like, the
exact functions to far more bits than the bounds ask; the results inside them are free, a NaN operand sets no INX, and LN of a negative
number sets INX with INV: the model's choice and readings (log entry 20). -/
def Obligations.LanternReductions : Prop :=
  (∀ (s : State) (d : Fin 4) (n : Fin 8) (r : LnRun) (i : LnInsn), lnIssues s d n r i →
    let v := lantern s d n
    let rm := r.rm.toNat
    let a := fun (k : Nat) => lnWord v i.ta k
    let b := fun (k : Nat) => if i.immb then i.imm.toNat else lnWord v i.tb k
    let writes := fun (x : Instr) (w : Lantern) (f : Nat → Nat) =>
      ∃ t : State, exec x s = .next t ∧ t = setLantern s d n (lantern t d n) ∧ lnIssued w (lantern t d n) r i ∧
        (lantern t d n).gens = v.gens ∧ lnWrote v (lantern t d n) i.td f
    (i.opc = 0x50 →
      let x := fun (k j : Nat) =>
        let y := a (if bit i.imm 4 then 16 * j + k else 16 * k + j)
        if i.fmt = 2 then y % 65536 else y
      let f := if i.fmt = 2 then b16 else b32
      let op := fun (y z : Nat) =>
        if i.fmt = 6 then
          (match field i.imm 1 0 with
            | 0 => (w32 y + w32 z).toNat
            | 1 => if (w32 z).toInt ≤ (w32 y).toInt then y else z
            | _ => if (w32 y).toInt ≤ (w32 z).toInt then y else z)
        else
          (match field i.imm 1 0 with
            | 0 => (fAdd f rm y z).1
            | 1 => (fMax f y z).1
            | _ => (fMin f y z).1)
      let two := fun (k j : Nat) => op (x k (2 * j)) (x k (2 * j + 1))
      let four := fun (k j : Nat) => op (two k (2 * j)) (two k (2 * j + 1))
      let eight := fun (k j : Nat) => op (four k (2 * j)) (four k (2 * j + 1))
      let all := fun (k : Nat) => op (eight k 0) (eight k 1)
      writes (.lntRed d n) v (fun k => all (if bit i.imm 4 then k % 16 else k / 16))) ∧
    (let active := (upTo 256).filter (fun k => decide (b k ≠ 0))
     (i.opc = 0x58 → writes (.lntCprs d n) { v with k := active.length } (fun k =>
      match active[k]? with
      | some j => a j
      | none => 0)) ∧
     (i.opc = 0x59 → writes (.lntXpnd d n) v (fun k =>
      if b k = 0 then lnWord v i.td k else a ((active.filter (fun j => decide (j < k))).length)))) ∧
    (∀ src dst : NFmt, i.opc = 0x38 → dataFmt (field i.imm 2 0) = some src → dataFmt i.fmt = some dst → i.nctl / 4 % 2 = 0 →
      writes (.lntCvt d n) v (fun k => (convert src dst ⟨decide (i.nctl / 8 % 2 = 1), false, decide (i.nctl / 2 % 2 = 1)⟩ rm 0
        (a k % 2 ^ nfBits src)).1)) ∧
    (∀ src dst : NFmt, i.opc = 0x38 → dataFmt (field i.imm 2 0) = some src → dataFmt i.fmt = some dst → i.nctl / 4 % 2 = 1 →
      let was := fun (g : Tab Word) (k : Nat) => tabGet (genInit v.genSeed (d.val * 4096 + n.val * 512 + k)) g k
      let next := fun (k : Nat) => lfsrNext12 (was v.gens k)
      let draws := convDraws src dst
      ∃ t : State, exec (.lntCvt d n) s = .next t ∧ t = setLantern s d n (lantern t d n) ∧ lnIssued v (lantern t d n) r i ∧
        lnWrote v (lantern t d n) i.td (fun k => (convert src dst ⟨decide (i.nctl / 8 % 2 = 1), true, decide (i.nctl / 2 % 2 = 1)⟩ rm
          (if draws then (next k).toNat % 4096 else 0) (a k % 2 ^ nfBits src)).1) ∧
        ∀ k : Nat, k < 256 → was (lantern t d n).gens k = if draws then next k else was v.gens k) ∧
    (∀ e ∈ ([(0x40, .lntExp d n, nlExp), (0x41, .lntLn d n, nlLn), (0x42, .lntSigm d n, nlSigm), (0x43, .lntTanh d n, nlTanh),
        (0x44, .lntRcp d n, nlRcp), (0x45, .lntRsqrt d n, nlRsqrt)] : List (Nat × Instr × (FFmt → Nat → Nat × Exc))),
      i.opc = e.1 → writes e.2.1 v (fun k =>
        if i.fmt = 2 then (e.2.2 b16 (a k % 65536)).1 else (e.2.2 b32 (a k)).1))) ∧
  (nlExp b32 0 = (0x3F80_0000, excNone) ∧ (nlExp b32 0xFF80_0000).1 = 0 ∧ (nlExp b32 0x7F80_0000).1 = 0x7F80_0000 ∧
    (nlLn b32 0).1 = 0xFF80_0000 ∧ (nlLn b32 0x3F80_0000).1 = 0 ∧ nlLn b32 0xBF80_0000 = (0x7FC0_0000, { nv := true, nx := true }) ∧
    (nlSigm b32 0).1 = 0x3F00_0000 ∧ (nlSigm b32 0xFF80_0000).1 = 0 ∧ (nlSigm b32 0x7F80_0000).1 = 0x3F80_0000 ∧
    (nlTanh b32 0x8000_0000).1 = 0x8000_0000 ∧ (nlTanh b32 0xFF80_0000).1 = 0xBF80_0000 ∧
    (nlRcp b32 0x8000_0000).1 = 0xFF80_0000 ∧ (nlRcp b32 0x7F80_0000).1 = 0 ∧
    (nlRsqrt b32 0).1 = 0x7F80_0000 ∧ (nlRsqrt b32 0x7F80_0000).1 = 0 ∧ (nlRsqrt b32 0xBF80_0000).1 = 0x7FC0_0000) ∧
  (∀ g ∈ ([nlExp, nlLn, nlSigm, nlTanh, nlRcp, nlRsqrt] : List (FFmt → Nat → Nat × Exc)), ∀ x : Word,
    0x7F80_0000 < x.toNat % 2 ^ 31 →
      g b32 x.toNat = ((x ||| 0x0040_0000).toNat, if x &&& 0x0040_0000 = 0 then excNv else excNone)) ∧
  (∀ f ∈ [b16, b32], ∀ (x : Nat) (z : Bool) (m : Nat) (e : Int), x < 2 ^ (1 + f.eb + f.mb) → unpack f x = .fin z m e → m ≠ 0 →
    let a := fixOf m e
    let k := fun (n : Nat) => if f = b32 then n else 1
    (let y := approxExp (if z then -(a : Int) else a)
     z = true ∨ aboveDec m e (if f = b32 then 887228 else 11089) (if f = b32 then 10000 else 1000) = false →
      within f (nlExp f x).1 false y
        (if z = true ∧ aboveDec m e (if f = b32 then 873365 else 9704) (if f = b32 then 10000 else 1000) = true then 1 else k 2)
        (ulpExp f y) = true ∧
        (z = true → f = b32 → aboveDec m e 873365 10000 = true → ulpExp f y = -149 ∧ (nlExp f x).2 = { uf := true, nx := true })) ∧
    (let y := approxLn m e
     z = false → x ≠ fOne f → within f (nlLn f x).1 y.1 y.2 (k 2) (ulpExp f y.2) = true) ∧
    (let y := approxSigm z a
     (f = b16 ∨ z = false ∨ aboveDec m e 87 1 = false → within f (nlSigm f x).1 false y (k 3) (ulpExp f y) = true) ∧
     (f = b32 → within f (nlSigm f x).1 false y 1 (-24) = true)) ∧
    (let y := approxTanh a
     if f = b32 ∧ scaledLe 1 (-12) m e = false then (nlTanh f x).1 = x
     else within f (nlTanh f x).1 z y (k 3) (ulpExp f y) = true) ∧
    (let y := approxRcp m e
     (roundTo f 0 z y.m y.e).2.ov = false → within f (nlRcp f x).1 z y 1 (ulpExp f y) = true) ∧
    (let y := approxRsqrt m e
     z = false → within f (nlRsqrt f x).1 false y 1 (ulpExp f y) = true)) ∧
  (∀ g ∈ ([nlExp, nlLn, nlSigm, nlTanh] : List (FFmt → Nat → Nat × Exc)), ∀ f ∈ [b16, b32], ∀ x y : Nat,
    x < 2 ^ (1 + f.eb + f.mb) → y < 2 ^ (1 + f.eb + f.mb) → fLt f x y = true → fLt f (g f y).1 (g f x).1 = false)

/-- 06 R142, R146, R152, R155. -/
def Obligations.LanternMemory : Prop :=
  ∀ (s : State) (d : Fin 4) (n : Fin 8) (r : LnRun) (i : LnInsn), lnIssues s d n r i → (cd s d).vaultErr = [] → (cd s d).vaultClearing = false →
    memWf 0 (cd s d).vault = true →
    let c := cd s d
    let v := lantern s d n
    let a := fun (k : Nat) => lnWord v i.ta k
    let base : Word := if i.tb < 5 then wordAt r.p i.tb else 0
    let at_ := (base + w32 (field i.imm 24 0)).toNat
    let fails := fun (x : Instr) => ∀ u : UnitCmd, v.cmd = some u → exec x s = .next (setLantern s d n { v with
      run := none, cmd := none, cmdqWas := none, doneQ := v.doneQ ++ [⟨BitVec.ofNat 4 (field (wordAt u.w 0) 31 28), 0x0D,
        counterWord r.sat r.flush, w32 (v.lastpc.toNat * 65536 + v.k), wordAt u.w 7, u.seq, u.queue, u.die, false⟩] })
    let stores := fun (x : Instr) (q : LnRun) (stride rows len : Nat) (byte : Nat → Nat → Byte) =>
      ∃ t : State, exec x s = .next t ∧ tileWritten c.vault (cd t d).vault at_ stride rows len byte ∧
        t = setLantern (putCd s d { c with vault := (cd t d).vault }) d n (lantern t d n) ∧
        lnIssued { v with run := some q } (lantern t d n) q i ∧ (lantern t d n).tile = v.tile
    (∀ f : NFmt, dataFmt i.fmt = some f →
      let z := nfSize f
      let step := if field i.imm 31 25 = 0 then 16 * z else 64 * field i.imm 31 25
      let fits := at_ % z = 0 ∧ at_ + 15 * step + 16 * z ≤ 0x180_0000
      (i.opc = 8 → fits → ∃ t : State, exec (.lntLd d n) s = .next t ∧ t = setLantern s d n (lantern t d n) ∧
        lnIssued v (lantern t d n) r i ∧
        lnWrote v (lantern t d n) i.td (fun k => leNat (memBytes 0 c.vault (at_ + k / 16 * step + k % 16 * z) z))) ∧
      (i.opc = 8 → ¬ fits → fails (.lntLd d n)) ∧
      (i.opc = 9 → fits → stores (.lntSt d n) r step 16 (16 * z) (fun m k =>
        BitVec.ofNat 8 (a (16 * m + k / z) / 256 ^ (k % z)))) ∧
      (i.opc = 9 → ¬ fits → fails (.lntSt d n)) ∧
      (i.opc = 0x0A → v.k ≤ 256 → at_ % z = 0 → (v.k = 0 ∨ at_ + v.k * z ≤ 0x180_0000) →
        stores (.lntStn d n) (if i.tb < 5 then { r with p := r.p.set i.tb (base + w32 (v.k * z)) } else r) 0 1 (v.k * z)
          (fun _ k => BitVec.ofNat 8 (a (k / z) / 256 ^ (k % z)))) ∧
      (i.opc = 0x0A → (at_ % z ≠ 0 ∨ (v.k ≠ 0 ∧ 0x180_0000 < at_ + v.k * z)) → fails (.lntStn d n))) ∧
    (i.opc = 0x0B → at_ % 4 = 0 → at_ + 4 ≤ 0x180_0000 →
      stores (.lntStk d n) r 0 1 4 (fun _ k => BitVec.ofNat 8 (v.k / 256 ^ k))) ∧
    (i.opc = 0x0B → (at_ % 4 ≠ 0 ∨ 0x180_0000 < at_ + 4) → fails (.lntStk d n)) ∧
    (let p := plinth s d n
     let row := field i.imm 24 16
     let cell := fun (k : Nat) => (row + k / 16) * 64 + 16 * field i.imm 5 4 + k % 16
     let ready := (∀ x ∈ p.held, ¬ (row ≤ x.idx / 64 ∧ x.idx / 64 < row + 16)) ∧ (∀ k ∈ upTo 16, rowsRead p (row + k) = false) ∧
       (∀ u : UnitCmd, p.cmd = some u → (p.settling || p.awaiting) = true →
         ¬ (field (wordAt u.w 1) 24 16 < row + 16 ∧ row < field (wordAt u.w 1) 24 16 + (field (wordAt u.w 1) 15 8 + 1)))
     let q := { r with longSum := r.longSum || (upTo 256).any (fun k => decide (65536 < (acc p (cell k)).cnt)) }
     let meets := ∃ x ∈ p.towerPort ++ p.domePort, row ≤ x.idx / 64 ∧ x.idx / 64 < row + 16
     let reads := fun (t : State) =>
       (meets → ∃ w : Word, t = { setLantern s d n (lantern t d n) with free := s.free + 1 } ∧
         lnIssued { v with run := some q, stall := satAdd v.stall (w.toNat % 5) } (lantern t d n) q i) ∧
       (¬ meets → t = setLantern s d n (lantern t d n) ∧ lnIssued { v with run := some q } (lantern t d n) q i)
     (ready → i.opc = 0x0C → ∃ t : State, exec (.lntPrd d n) s = .next t ∧ reads t ∧
       lnWrote v (lantern t d n) i.td (fun k =>
         let x := acc p (cell k)
         if rowIsInt p (row + k / 16) then x.sum.toNat else (flAdd x.sum.toNat x.err.toNat).1)) ∧
     (ready → i.opc = 0x0D → ∃ t : State, exec (.lntPrdx d n) s = .next t ∧ reads t ∧
       ∀ j k : Nat, j < 32 → k < 256 → lnWord (lantern t d n) j k =
         if j = i.td then (acc p (cell k)).sum.toNat
         else if j = i.td + 1 then (if rowIsInt p (row + k / 16) then 0 else (acc p (cell k)).err.toNat)
         else lnWord v j k) ∧
     (¬ ready → i.opc = 0x0C → exec (.lntPrd d n) s = .next s) ∧ (¬ ready → i.opc = 0x0D → exec (.lntPrdx d n) s = .next s))

/-- 09 R204 to R207, R226 to R228; 10 R230. That a Bell stays poisoned while a die of another chip is known to be isolated there is
log entry 74, that RESET and SAFE discard the commands is log entry 57, that a wait which is satisfied already is answered 0 when its Bell is
poisoned is log entry 47, and that a front-end's status is kept for RESUME outside RUN is log entry 77 (the model's readings). -/
def Obligations.Bells : Prop :=
  ∀ (s : State) (d : Fin 4) (n : Fin 256), (cd s d).slewed = false →
    let b := bell s d n
    let tested := fun (c : Word) => b.waiters.map (fun w => if (c - w.target).toNat < 2 ^ 31 then { w with sat := true } else w)
    (regsUp s = true → ∀ v : Word,
      (b.poisoned = false →
        exec (.bellAdd d n v) s = .next (setBell s d n { b with count := b.count + v, waiters := tested (b.count + v) }) ∧
        exec (.bellSet d n v) s = .next (setBell s d n { b with count := v, waiters := tested v })) ∧
      (b.poisoned = true → exec (.bellAdd d n v) s = .next s ∧ exec (.bellSet d n v) s = .next s)) ∧
    (regsUp s = false → ∀ v : Word, ∀ i ∈ ([.bellAdd d n v, .bellSet d n v, .bellPoison d n, .bellUnpoison d n] : List Instr),
      exec i s = .next s) ∧
    (regsUp s = true →
      exec (.bellPoison d n) s = .next (b.waiters.foldl (fun u w => answerOp u w.who (if w.sat then 0 else 4) [])
        (setBell s d n { b with poisoned := true, waiters := [] })) ∧
      (let cut := s.nld.isoDies.getLsbD d = true ∨ b.dies &&& s.nld.isoDies ≠ 0 ∨
          (∃ c ∈ upTo 8, b.chips.getLsbD c = true ∧ c ≠ s.nld.chip.toNat ∧ s.nld.isoChips.getLsbD c = true) ∨
          ∃ p ∈ s.nld.farIso, b.chips.getLsbD p.1 = true ∧ b.dies.getLsbD p.2 = true
       (¬ cut → exec (.bellUnpoison d n) s = .next (setBell s d n { b with poisoned := false })) ∧
       (cut → exec (.bellUnpoison d n) s = .next s))) ∧
    (∀ (u : State) (k : Fin 4), (cd u k).slewed = false →
      (∀ (j : Fin 32) (x : SpWait), (spire u k j).wait = some x → x.kind = .bwait → x.abandon = 0 →
        answerOp u (.spire k j) 4 [] = setSpire u k j
          { spSet { spire u k j with wait := none, st := .running } x.rd 4 with pc := (spire u k j).pc + 4 }) ∧
      (∀ (q : Fin 128) (h : FeHold), (queue u k q).fe = some h → field (wordAt h.w 0) 31 28 = 15 →
        (u.mstate = .run →
          answerOp u (.frontEnd k q) 4 [] = feComplete (setQueue u k q { queue u k q with stopped := true }) k q 0x10 2) ∧
        (u.mstate ≠ .run →
          answerOp u (.frontEnd k q) 4 [] = setQueue u k q { queue u k q with fe := some { h with ended := some 0x10 } })) ∧
      (∀ (e ch at_ : Nat) (tid : BitVec 16) (src : Word),
        answerOp u (.remote e ch tid src at_) 4 [] = respond u e tid src at_ ch 4 [])) ∧
    (∀ (name src : Nat) (v : Word) (who : Origin),
      let far := nameEp s d name
      (nameHere s d name 8 = true → addNamed s d src name v who = addBell s d (name % 256) v) ∧
      (nameBad s name 8 = true ∨ targetIsolated s d (nameChip name) (nameDie name) = true → addNamed s d src name v who = s) ∧
      (nameFar s d name 8 = true → epOpen s far = true → addNamed s d src name v who =
        linkAsk s far {
          kind := 3, src := src, die := d.val, operand := v,
          addr := (name / 8192 % 8) * 2 ^ 45 + (name / 512 % 16) * 2 ^ 41 + 0x500000000 + name % 256 * 0x100 } who) ∧
      (nameFar s d name 8 = true → epOpen s far = false → addNamed s d src name v who = s)) ∧
    (∀ (pre post : List Waiter) (w : Waiter), b.waiters = pre ++ w :: post → (∀ x ∈ pre, x.sat = false) → w.sat = true →
      ∀ (k : Fin 4) (j : Fin 32) (x : SpWait), w.who = .spire k j → (cd s k).slewed = false → (spire s k j).wait = some x →
        x.abandon = 0 →
        exec (.bellWaitSatisfied d n) s = .next (setSpire (setBell s d n { b with waiters := pre ++ post }) k j
          { spSet { spire s k j with wait := none, st := .running } x.rd 0 with pc := (spire s k j).pc + 4 })) ∧
    ((∀ w ∈ b.waiters, w.sat = false) → exec (.bellWaitSatisfied d n) s = .next s)

/-- 09 R209 to R211, R216, Table 9-1. That a push which fills the ring at HWM = 2^LDEPTH is not counted in QUE_HWCNT is log entry 80 (the
model's choice). -/
def Obligations.QueueEntries : Prop :=
  ∀ (s : State) (d : Fin 4) (q : Fin 128), (cd s d).slewed = false → (cd s d).vaultErr = [] → (cd s d).vaultClearing = false →
    let c := cd s d
    let v := queue s d q
    let size := if v.esize then 64 else 32
    let slot := v.base.toNat * 64 + v.seq.toNat % 2 ^ v.ldepth.toNat * size
    (∀ (h0 h1 : Word) (body : List Word), body.length = 8 →
      let ws := (if v.esize then [h0, h1, v.seq, s.tb.extractLsb' 0 32, s.tb.extractLsb' 32 32, 0, 0, 0] else []) ++ body
      let rings := v.hwen = true ∧ v.hwm ≠ 0 ∧ v.hwm.toNat < 2 ^ v.ldepth.toNat ∧ v.occ + 1 = v.hwm.toNat
      let u := putCd s d { c with
        vault := memPut 0 c.vault slot (ofWords ws),
        queues := tabSet c.queues q.val { v with
          seq := v.seq + 1, occ := v.occ + 1,
          hwcnt := if rings ∧ v.hwcnt ≠ 0xFFFF_FFFF then v.hwcnt + 1 else v.hwcnt } }
      (¬ rings → enterEntry s d q h0 h1 body = u) ∧
      (rings → enterEntry s d q h0 h1 body = addBell u d v.hwbell.toNat 1) ∧
      (v.occ = 0 → popEntry u d q = .ok (ofWords ws, setQueue u d q { queue u d q with occ := 0 })) ∧
      (∀ (k : Fin 4) (j : Fin 32) (x : SpWait) (pre post : List Push), v.pushes = pre ++ ⟨.spire k j, h0, h1, body⟩ :: post →
        let turn := pushInput d (.spire k j)
        (∀ p ∈ pre, pushInput d p.who ≠ turn) → nextInput v.rr (v.pushes.map (fun p => pushInput d p.who)) = turn →
        (cd s k).slewed = false → (spire s k j).wait = some x → x.abandon = 0 → x.kind = .qpush → v.pops = [] → ¬ rings →
        v.en = true → v.occ < 2 ^ v.ldepth.toNat →
        ∃ t : State, exec (.queuePushAdmit d q) s = .next t ∧ (cd t d).vault = memPut 0 c.vault slot (ofWords ws) ∧
          queue t d q = { queue u d q with pushes := pre ++ post, rr := turn } ∧
          (∀ i : Nat, i ≠ q → queue t d i = queue s d i) ∧ (∀ i : Nat, bell t d i = bell s d i) ∧
          spire t k j = { spSet { spire s k j with wait := none, st := .running } x.rd 0 with pc := (spire s k j).pc + 4 })) ∧
    (v.pushes = [] ∨ v.en = false ∨ 2 ^ v.ldepth.toNat ≤ v.occ → exec (.queuePushAdmit d q) s = .next s) ∧
    (∀ (last : Nat) (ks : List Nat), ks ≠ [] → nextInput last ks ∈ ks ∧
      (∀ k ∈ ks, last < k → last < nextInput last ks ∧ nextInput last ks ≤ k) ∧
      ((∀ k ∈ ks, k ≤ last) → ∀ k ∈ ks, nextInput last ks ≤ k))

/-- 09 R219, R220. That RESET and SAFE discard the commands is log entry 57, that FLUSH discards a held WAIT also where its Bell has
counted is log entry 51, and that a QUE_CFG write which leaves LDEPTH 0 is ignored in full and clearing EN keeps a waiting QPOP and the entry that the front-end holds is log entry 81 (the model's readings and choices). -/
def Obligations.QueueControl : Prop :=
  ∀ (s : State) (d : Fin 4) (q : Fin 128), (cd s d).slewed = false →
    let v := queue s d q
    (regsUp s = false → ∀ (b : Bool) (x : Word),
      ∀ i ∈ ([.queStop d q, .queResume d q, .queFlush d q, .queConfigWrite d q b x] : List Instr), exec i s = .next s) ∧
    (regsUp s = true →
    exec (.queStop d q) s = .next (if v.en then setQueue s d q { v with stopped := true } else s) ∧
    (v.pops = [] → exec (.queResume d q) s = .next (setQueue s d q { v with stopped := false })) ∧
    ((cd s d).vaultErr = [] → (cd s d).vaultClearing = false → v.en = true → (∀ w ∈ v.pops, ∃ (k : Fin 4) (j : Fin 32), w = .spire k j) →
      ∃ t : State, exec (.queResume d q) s = .next t ∧ (queue t d q).stopped = false ∧ (queue t d q).seq = v.seq ∧
        (queue t d q).occ = v.occ - min v.occ v.pops.length ∧ (queue t d q).pops = v.pops.drop (min v.occ v.pops.length)) ∧
    (v.pushes = [] →
      (v.fe = none → exec (.queFlush d q) s = .next (setQueue s d q { v with occ := 0, disc := satAdd v.disc v.occ })) ∧
      (∀ h : FeHold, v.fe = some h → h.phase ≤ 1 → ∃ t : State, exec (.queFlush d q) s = .next t ∧
        (queue t d q).fe = none ∧ (queue t d q).occ = 0 ∧ (queue t d q).seq = v.seq ∧
        (queue t d q).disc = satAdd v.disc (v.occ + 1) ∧ (∀ i : Fin 256, (bell t d i).count = (bell s d i).count))) ∧
    (∀ x : Word,
      let en := x.getLsbD 31
      let esize := x.getLsbD 30
      let depth := field x 27 24
      let fixed := en = v.en ∧ esize = v.esize ∧ x.extractLsb' 24 4 = v.ldepth
      let idle := (v.en = false ∨ v.stopped = true) ∧ v.occ = 0
      let inside := v.base.toNat * 64 + 2 ^ depth * (if esize then 64 else 32) ≤ 0x180_0000
      let new := { v with
        en := en, esize := esize, ldepth := x.extractLsb' 24 4, hwm := x.extractLsb' 12 12, hwen := x.getLsbD 11,
        hwbell := x.extractLsb' 0 8 }
      (depth < 3 ∨ 12 < depth → exec (.queConfigWrite d q true x) s = .next s) ∧
      (3 ≤ depth → depth ≤ 12 →
        (fixed → exec (.queConfigWrite d q true x) s = .next (setQueue s d q new)) ∧
        (¬ fixed → idle → (en = true → inside) → exec (.queConfigWrite d q true x) s = .next (setQueue s d q
          { new with stopped := en && v.en && v.stopped })) ∧
        (¬ fixed → ¬ idle ∨ (en = true ∧ ¬ inside) → exec (.queConfigWrite d q true x) s = .next s)) ∧
      (let base := field x 24 6 * 64
       let inside := base + 2 ^ v.ldepth.toNat * (if v.esize then 64 else 32) ≤ 0x180_0000
       (idle → (v.en = true → inside) →
        exec (.queConfigWrite d q false x) s = .next (setQueue s d q { v with base := x.extractLsb' 6 19 })) ∧
       (¬ idle ∨ (v.en = true ∧ ¬ inside) → exec (.queConfigWrite d q false x) s = .next s))))

/-- 09 R212 to R215, R227; 10 R230; 04 Table 4-10 and its like for when a written queue register acts. That a WAIT or a RING is taken
while the unit is busy is log entry 51, and that a record's TIME is the moment it is handed over is log entry 78 (the model's
choices). -/
def Obligations.QueueFrontEnd : Prop :=
  ∀ (s : State) (d : Fin 4) (q : Fin 128), (cd s d).slewed = false → (cd s d).vaultErr = [] → (cd s d).vaultClearing = false →
    let c := cd s d
    let v := queue s d q
    let size := if v.esize then 64 else 32
    let head := v.seq - BitVec.ofNat 32 v.occ
    let bytes := memBytes 0 c.vault (v.base.toNat * 64 + head.toNat % 2 ^ v.ldepth.toNat * size + (size - 32)) 32
    let ws := (upTo 8).map (fun i => leWord ((bytes.drop (4 * i)).take 4))
    let opc := field (wordAt ws 0) 31 28
    let taken := { v with occ := v.occ - 1 }
    (s.mstate = .run → v.en = true → v.stopped = false → v.occ ≠ 0 → v.fe = none →
      ∀ (n : Fin 8) (m : Fin 256),
        -- the queue register that is in force: one written while a command executes acts from the command's end on
        let used := fun (cmd : Option UnitCmd) (was : Option (BitVec 7)) (now : BitVec 7) => if cmd = none then now else was.getD now
        ∀ e ∈ ([(.tower n, .tower d n, used (tower s d n).cmd (tower s d n).cmdqWas (tower s d n).cmdq),
          (.plinth n, .plinth d n, used (plinth s d n).cmd (plinth s d n).cmdqWas (plinth s d n).cmdq),
          (.lantern n, .lantern d n, used (lantern s d n).cmd (lantern s d n).cmdqWas (lantern s d n).cmdq),
          (.dome m, .dome d m, used (dome s d m).cmd (dome s d m).cmdqWas (dome s d m).cmdq)] :
          List (Consumer × UnitRef × BitVec 7)), (e.2.2.toNat = q.val →
        (14 ≤ opc → exec (.queueFrontEndTake d q e.1) s = .next (setQueue s d q { taken with fe := some ⟨ws, head, 0, none⟩ })) ∧
        (opc < 14 → unitCmd s e.2.1 = none → unitDones s e.2.1 = [] →
          exec (.queueFrontEndTake d q e.1) s = .next (setUnitCmd (setQueue s d q { taken with open_ := v.open_ ++ [head] })
            e.2.1 (some ⟨ws, head, q.val, d.val⟩))) ∧
        (opc < 14 → unitCmd s e.2.1 ≠ none ∨ unitDones s e.2.1 ≠ [] → exec (.queueFrontEndTake d q e.1) s = .next s)) ∧
        (e.2.2.toNat ≠ q.val → exec (.queueFrontEndTake d q e.1) s = .next s)) ∧
    (s.mstate ≠ .run ∨ v.en = false ∨ v.stopped = true ∨ v.occ = 0 ∨ v.fe ≠ none →
      ∀ x : Consumer, exec (.queueFrontEndTake d q x) s = .next s) ∧
    (∀ h : FeHold, v.fe = some h → s.mstate = .run → h.w.length = 8 →
      let name := field (wordAt h.w 1) 15 0
      let b := bell s d (name % 256)
      let x := wordAt h.w 2
      let ctl := wordAt h.w 7
      let what := field (wordAt h.w 0) 31 28
      let clean := field (wordAt h.w 0) 26 0 = 0 ∧ field (wordAt h.w 1) 31 16 = 0 ∧ wordAt h.w 3 = 0 ∧ wordAt h.w 4 = 0 ∧
        wordAt h.w 5 = 0 ∧ wordAt h.w 6 = 0
      let put := fun (t : State) (st phase : Nat) =>
        let t1 := setQueue t d q { queue t d q with fe := some { h with phase := phase } }
        let comp := field ctl 22 16
        setQueue t1 d comp { queue t1 d comp with pushes := (queue t1 d comp).pushes ++ [⟨.frontEnd d q, 0x20000000,
          w32 (6 * 2 ^ 16 + s.nld.chip.toNat * 2 ^ 13 + d.val * 2 ^ 9 + q.val),
          [w32 (2 * 2 ^ 28 + 6 * 2 ^ 24 + q.val * 2 ^ 16 + s.nld.chip.toNat * 2 ^ 13 + d.val * 2 ^ 9 + st),
            w32 (what * 2 ^ 16 + field ctl 15 0), 0, 0, s.tb.extractLsb' 0 32, s.tb.extractLsb' 32 32, h.seq, 0]⟩] }
      let ring := fun (t : State) => if ctl.getLsbD 23 then addBell t d (field ctl 31 24) 1 else t
      let counted_ := (b.count - x).toNat < 2 ^ 31
      let far := nameEp s d name
      let ask := fun (kind : Nat) => ({
        kind := kind, src := 0x100 + q.val, die := d.val, operand := x,
        addr := (name / 8192 % 8) * 2 ^ 45 + (name / 512 % 16) * 2 ^ 41 + 0x500000000 + name % 256 * 0x100 } : Ask)
      let cut := targetIsolated s d (nameChip name) (nameDie name) = true ∨ (nameFar s d name 8 = true ∧ epOpen s far = false)
      (what = 15 → h.phase = 0 →
        (¬ clean ∨ nameBad s name 8 = true → exec (.waitEntry d q) s = .next (put s 0x12 3)) ∧
        (clean → nameHere s d name 8 = true → b.poisoned = true →
          exec (.waitEntry d q) s = .next (put (setQueue s d q { v with stopped := true }) 0x10 2)) ∧
        (clean → nameHere s d name 8 = true → b.poisoned = false → counted_ → (wordAt h.w 0).getLsbD 27 = false →
          exec (.waitEntry d q) s = .next (ring (setQueue s d q { v with fe := none }))) ∧
        (clean → nameHere s d name 8 = true → b.poisoned = false → counted_ → (wordAt h.w 0).getLsbD 27 = true →
          exec (.waitEntry d q) s = .next (put s 0 2)) ∧
        (clean → nameHere s d name 8 = true → b.poisoned = false → ¬ counted_ →
          exec (.waitEntry d q) s = .next (setBell (setQueue s d q { v with fe := some { h with phase := 1 } }) d (name % 256)
            { b with waiters := b.waiters ++ [⟨.frontEnd d q, x, false⟩] })) ∧
        (clean → nameFar s d name 8 = true → epOpen s far = true →
          exec (.waitEntry d q) s = .next
            (linkAsk (setQueue s d q { v with fe := some { h with phase := 1 } }) far (ask 4) (.frontEnd d q))) ∧
        (clean → nameBad s name 8 = false → cut →
          exec (.waitEntry d q) s = .next (put (setQueue s d q { v with stopped := true }) 0x11 2))) ∧
      (what = 14 → h.phase = 0 →
        (¬ clean ∨ nameBad s name 8 = true → exec (.ringEntry d q) s = .next (put s 0x12 3)) ∧
        (clean → nameBad s name 8 = false →
          exec (.ringEntry d q) s = .next (setQueue s d q { v with fe := some { h with phase := 1 } }))) ∧
      (what = 14 → h.phase = 1 →
        (v.open_ ≠ [] → exec (.ringAdd d q) s = .next s) ∧
        (v.open_ = [] → nameHere s d name 8 = true → b.poisoned = false →
          exec (.ringAdd d q) s = .next (if (wordAt h.w 0).getLsbD 27 = false then
              ring (addBell (setQueue s d q { v with fe := none }) d (name % 256) x)
            else put (addBell s d (name % 256) x) 0 2)) ∧
        (v.open_ = [] → nameHere s d name 8 = true → b.poisoned = true → exec (.ringAdd d q) s = .next (put s 0x10 2)) ∧
        (v.open_ = [] → nameFar s d name 8 = true → epOpen s far = true →
          exec (.ringAdd d q) s = .next
            (linkAsk (setQueue s d q { v with fe := some { h with phase := 4 } }) far (ask 3) (.frontEnd d q))) ∧
        (v.open_ = [] → nameBad s name 8 = false → cut → exec (.ringAdd d q) s = .next (put s 0x11 2)))) ∧
    (∀ (u : UnitRef) (e : Done) (rest : List Done), unitDones s u = e :: rest → e.posted = false → e.die = d.val →
      (∀ n : Fin 8, u ≠ .tower d n ∨ (plinth s d n).towerPort = []) →
      (∀ n : Fin 256, u ≠ .dome d n ∨ (plinth s d (n.val / 32)).domePort = []) →
      (∀ m : Fin 8, u ≠ .mover m) → (uNum u).1 = d.val → q.val = field e.ctl 22 16 → v.pushes = [] →
      let r := [w32 (2 * 2 ^ 28 + unitKind u * 2 ^ 24 + (uNum u).2 * 2 ^ 16 + s.nld.chip.toNat * 2 ^ 13 + d.val * 2 ^ 9 +
          e.status.toNat), w32 (e.opc.toNat * 2 ^ 16 + field e.ctl 15 0), e.counters, e.result, s.tb.extractLsb' 0 32,
        s.tb.extractLsb' 32 32, e.seq, 0]
      let p : Push := ⟨.unit u, 0x20000000, w32 (unitKind u * 2 ^ 16 + s.nld.chip.toNat * 2 ^ 13 + d.val * 2 ^ 9 + (uNum u).2), r⟩
      (v.en = false ∨ 2 ^ v.ldepth.toNat ≤ v.occ →
        exec (.commandComplete u) s = .next (setQueue (setUnitDones s u ({ e with posted := true } :: rest)) d q
          { v with pushes := [p] })) ∧
      (v.en = true → v.occ < 2 ^ v.ldepth.toNat → v.pops = [] →
        exec (.commandComplete u) s = .next
          (let t := setUnitDones (enterEntry (setQueue s d q { v with rr := pushInput d (.unit u) }) d q p.hdr0 p.hdr1 r) u rest
           let t1 := setQueue t d e.queue { queue t d e.queue with
             open_ := (queue t d e.queue).open_.filter (fun x => decide (x ≠ e.seq)) }
           let t2 := match u with
             | .plinth k n => setPlinth t1 k n { plinth t1 k n with read := none }
             | _ => t1
           if e.ctl.getLsbD 23 then addBell t2 d (field e.ctl 31 24) 1 else t2)))

/-- 02 R39; 10 R232 to R237, and R244 for a request sent again, which keeps its TID. That a flit discarded by its SEQ still acknowledges and
returns credits, that the first half of a pair waits for the credits of both and when PTAG advances are log entry 54, that FK 5 to 7 are
ignored and that a request called off leaves with a CANCEL behind it is log entry 36, which inputs a link has is log entry 64, and
the KIND 0xC of H's reports to F is log entry 82 (the model's readings and choices). -/
def Obligations.LinkFlits : Prop :=
  (∀ (v : Endp) (fk vc : Nat) (seq : Byte) (nak : Bool) (tag : BitVec 5) (body : List Word), fk < 8 → vc < 4 →
    body.length = 16 →
    let f := mkFlit v fk vc seq nak tag body
    flitGood f = true ∧ f.body = body ∧ flFK f = fk ∧ flVC f = vc ∧ flSEQ f = seq ∧ flNAK f = nak ∧ flPTAG f = tag ∧
      flACK f = (if v.pair1 = none then v.erx - 1 else v.erx - 2)) ∧
  (∀ (s : State) (e : Ep), (endp s (epCode e)).st = .up → epSlewed s (epCode e) = false →
    let k := epCode e
    let v := endp s k
    let ext := 17 ≤ k ∧ k < 21
    let s0 := if k = 21 then fTakes s else s
    let ctrl := fun (t : State) (w : Endp) (nak : Bool) => { setEndp t k (afterFlit w) with
      outputs := .flit e (mkFlit w 1 0 0 nak 0 []) :: t.outputs }
    (∀ f : Flit, flitGood f = false → (ext ∨ midPair v = false) →
      exec (.flitReceive e f) s = .next (ctrl s { v with crc := satAdd v.crc 1, err := v.err ||| 1 } true)) ∧
    (∀ f : Flit, flitGood f = true →
      let n := (flACK f + 1 - (v.sseq - BitVec.ofNat 8 v.sent.length)).toNat
      let c := v.credits.getD (flCRVC f) 0 + flCRN f
      n ≤ v.sent.length → n < 192 → c ≤ (epBuffers k).getD (flCRVC f) 0 →
      let u := { v with
        sent := v.sent.drop n, sameReplays := if n = 0 then v.sameReplays else 0, credits := v.credits.set (flCRVC f) c }
      let q := { u with
        erx := v.erx + 1, sinceAck := v.sinceAck + 1, used := v.used.set (flVC f) (v.used.getD (flVC f) 0 + 1) }
      let body := padTo 16 f.body
      (flNAK f = false → flFK f < 2 ∨ 4 < flFK f ∨ flSEQ f ≠ v.erx → exec (.flitReceive e f) s = .next (setEndp s0 k u)) ∧
      (flNAK f = false → flSEQ f = v.erx → v.sinceAck < 31 →
        (flFK f = 2 → v.pair1 = none →
          kindListed (field (wordAt body 0) 31 28) = true ∨ (k = 21 ∧ flVC f = 3 ∧ field (wordAt body 0) 31 28 = 12) →
          (∀ p ∈ v.partials, p.missing ≠ 0) →
          let pairs := txnPairs (field (wordAt body 0) 31 28) (field (wordAt body 4) 12 0)
          exec (.flitReceive e f) s = .next (setEndp s0 k (if pairs = 0 then { q with rx := v.rx ++ [⟨body, []⟩] }
            else { q with partials := v.partials ++ [⟨flVC f, body, [], pairs⟩] }))) ∧
        (flFK f = 3 → v.pair1 = none →
          exec (.flitReceive e f) s = .next (setEndp s0 k { q with pair1 := some ⟨3, flVC f, flPTAG f, body, 0⟩ })) ∧
        (∀ (h : TxFlit) (p : Partial), v.pair1 = some h → v.partials = [p] → p.vc = flVC f → p.missing ≠ 0 →
          flFK f = 4 → h.vc = flVC f → h.ptag = flPTAG f →
          let data := p.data ++ (h.body ++ body)
          exec (.flitReceive e f) s = .next (setEndp s0 k (if p.missing = 1 then
              { q with pair1 := none, partials := [], rx := v.rx ++ [⟨p.hdr, data⟩] }
            else { q with pair1 := none, partials := [{ p with data := data, missing := p.missing - 1 }] })))) ∧
      (flSEQ f = v.erx →
        (∀ h : TxFlit, v.pair1 = some h → 2 ≤ flFK f → flFK f ≤ 4 →
          ¬ (flFK f = 4 ∧ h.vc = flVC f ∧ h.ptag = flPTAG f) → ext →
          exec (.flitReceive e f) s = .next (setEndp s0 k { u with
            pair1 := none, erx := v.erx - 1, used := v.used.set h.vc (v.used.getD h.vc 0 - 1), st := .training,
            locked := false, ctrl := 0, err := v.err ||| 8, retrain := satAdd v.retrain 1 })))) ∧
    -- which flit leaves: the halves of a pair together, a transaction whole, and else the next channel and the next input in turn,
    -- those of the receivers on H that cannot be held off first
    (∀ n : Nat, reservedInput k (1000 + n) = true ↔ 12 ≤ k ∧ k < 21 ∧ n ∈ [0x404, 0x405, 0x408, 0x409, 0x40A, 0x40B]) ∧
    (∀ (f : TxFlit) (rest : List TxFlit), pickFlit s k v = some (f, rest) → v.ctrl = 0 →
      let again := fun (g : TxFlit) => g.ask ≠ 0 ∧ ∃ p : Nat, partyOf s k = some p ∧ sentBefore (party s p) g = true
      let last := v.rr.getD f.vc 0
      let prior := fun (g : TxFlit) => reservedInput k (flitInput s k v g)
      (∃ t : State, exec (.flitSend e) s = .next t ∧ (endp t k).rrVc = f.vc ∧
        (endp t k).rr = if f.fk = 2 then v.rr.set f.vc (txInput s k f) else v.rr) ∧
      f ∈ v.txq ∧ f.vc < 4 ∧ (midPair v = true → f.fk = 4) ∧
      (midPair v = false → ∀ (c : Nat) (g : TxFlit) (l : List TxFlit), c < 4 → chanNext s k v c = some (g, l) →
        (prior g = true → prior f = true) ∧ (prior g = prior f → v.rrVc < c → v.rrVc < f.vc ∧ f.vc ≤ c)) ∧
      (∀ g : TxFlit, v.txq.find? (fun x => decide (x.vc = f.vc)) = some g → g.fk ≠ 2 → f = g) ∧
      (f.fk = 2 → ∀ g ∈ v.txq, g.fk = 2 → g.vc = f.vc →
        (again g → again f) ∧
        (¬ again f → withinLimit s k g = true → (prior g = true → prior f = true) ∧ (prior g = prior f →
          last < txInput s k g → last < txInput s k f ∧ txInput s k f ≤ txInput s k g)))) ∧
    (∀ (f : TxFlit) (rest : List TxFlit), v.txq = f :: rest → (∀ g ∈ rest, g.vc = f.vc) → f.vc < 4 → v.ctrl = 0 → f.fk ≠ 2 →
      (f.fk = 4 ↔ midPair v = true) → (∀ p : Nat, partyOf s k = some p → f.ask ∉ (party s p).calledOff) →
      (f.fk = 4 → f.vc = 2 → chnSending s k = none ∨ restFollows 2 rest = true) →
      (let n := if f.fk = 3 ∧ ¬ ext then 2 else 1
       n ≤ v.credits.getD f.vc 0 ∧ v.sent.length + n ≤ 64) →
      let tag := v.ptag.getD f.vc 0
      exec (.flitSend e) s = .next { setEndp s k { afterFlit v with
          txq := rest, sent := v.sent ++ [(v.sseq, { f with ptag := tag })], sseq := v.sseq + 1,
          ptag := if f.fk = 4 then v.ptag.set f.vc (tag + 1) else v.ptag, rrVc := f.vc,
          credits := v.credits.set f.vc (v.credits.getD f.vc 0 - 1) } with
        outputs := .flit e (mkFlit v f.fk f.vc v.sseq false tag f.body) :: s.outputs }) ∧
    (∀ (f : TxFlit) (rest : List TxFlit) (p : Nat), v.txq = f :: rest → (∀ g ∈ rest, g.vc = f.vc ∧ g.fk ≠ 2) → f.vc < 4 →
      v.ctrl = 0 → f.fk = 2 → f.body.length = 16 → midPair v = false →
      withinLimit s k f = true → 1 ≤ v.credits.getD f.vc 0 → v.sent.length < 64 → partyOf s k = some p →
      field (wordAt f.body 0) 31 28 ≠ 0xA →
      let pa := party s p
      let leaves := fun (x : TxFlit) => { setEndp s k { afterFlit v with
          txq := rest, sent := v.sent ++ [(v.sseq, x)], sseq := v.sseq + 1,
          rr := v.rr.set f.vc (txInput s k f), rrVc := f.vc,
          credits := v.credits.set f.vc (v.credits.getD f.vc 0 - 1) } with
        outputs := .flit e (mkFlit v 2 f.vc v.sseq false f.ptag x.body) :: s.outputs }
      (f.ask = 0 → 0 ∉ pa.calledOff → exec (.flitSend e) s = .next (leaves f)) ∧
      -- a request that has been called off leaves with a CANCEL behind it
      (∀ (pre post : List Outst) (o : Outst), f.ask ≠ 0 → f.ask ∈ pa.calledOff → sentBefore pa f = false →
        pa.outst = pre ++ o :: post → o.ask = f.ask → o.ep = k → (∀ y ∈ pre ++ post, y.ask ≠ f.ask) →
        ∃ (t : State) (c : TxFlit), exec (.flitSend e) s = .next t ∧ (endp t k).txq = rest ++ [c] ∧ c.fk = 2 ∧ c.vc = 3 ∧
          field (wordAt c.body 0) 31 28 = 7 ∧ (wordAt c.body 0).extractLsb' 0 16 = pa.nextTid.getD f.vc 0 ∧
          wordAt c.body 1 = wordAt f.body 1 ∧ wordAt c.body 2 = wordAt f.body 2 ∧
          (party t p).calledOff = pa.calledOff.filter (fun i => decide (i ≠ f.ask))) ∧
      (f.ask ≠ 0 → f.ask ∉ pa.calledOff → sentBefore pa f = false →
        let tid := pa.nextTid.getD f.vc 0
        let x := { f with body := f.body.set 0 ((wordAt f.body 0 &&& 0xFFFF_0000) ||| tid.setWidth 32) }
        exec (.flitSend e) s = .next (setParty (leaves x) p { pa with
          nextTid := pa.nextTid.set f.vc (tid + 1),
          outst := pa.outst.filter (·.sent) ++
            (pa.outst.filter (fun o => !o.sent && decide (o.ask = f.ask))).map (fun o =>
              { o with sent := true, tid := tid, txn := { o.txn with hdr := x.body } }) ++
            pa.outst.filter (fun o => !o.sent && decide (o.ask ≠ f.ask)) })) ∧
      (f.ask ≠ 0 → f.ask ∉ pa.calledOff → sentBefore pa f = true → ∃ t : State, exec (.flitSend e) s = .next t ∧ endp t k = endp (leaves f) k ∧
        t.outputs = (leaves f).outputs ∧ (party t p).nextTid = pa.nextTid)) ∧
    (∀ f : TxFlit, v.txq = [f] → f.fk = 2 → withinLimit s k f = false →
      (ext → exec (.flitSend e) s = .next { setEndp s k (afterFlit v) with
        outputs := .flit e (mkFlit v 0 0 0 false 0 []) :: s.outputs }) ∧
      (¬ ext → exec (.flitSend e) s = .next s)) ∧
    ((∀ f ∈ v.txq, v.credits.getD f.vc 0 = 0) ∨ 64 ≤ v.sent.length →
      (ext → exec (.flitSend e) s = .next { setEndp s k (afterFlit v) with
        outputs := .flit e (mkFlit v 0 0 0 false 0 []) :: s.outputs }) ∧
      (¬ ext → exec (.flitSend e) s = .next s)) ∧
    (v.sinceAck ≠ 0 ∨ (∃ n ∈ v.owe, n ≠ 0) → (ext ∨ midPair v = false) → exec (.ackDue e) s = .next (ctrl s v false)) ∧
    (v.sinceAck = 0 → (∀ n ∈ v.owe, n = 0) → exec (.ackDue e) s = .next s) ∧
    (∀ a : BitVec 8,
      let n := (a + 1 - (v.sseq - BitVec.ofNat 8 v.sent.length)).toNat
      let left := v.sent.drop n
      n ≤ v.sent.length → n < 192 →
      (left = [] → exec (.nakReceive e a) s = .next (setEndp s k { v with
        sent := left, sameReplays := if n = 0 then v.sameReplays else 0 })) ∧
      (left ≠ [] → (if n = 0 then v.sameReplays else 0) + 1 < 8 → ∃ t : State, exec (.nakReceive e a) s = .next t ∧
        (endp t k).sent = left ∧ (endp t k).st = .up ∧ (endp t k).replay = satAdd v.replay left.length ∧
        t.outputs.drop left.length = s.outputs ∧ t.outputs.length = s.outputs.length + left.length ∧
        ∀ i : Nat, i < left.length → ∃ f : Flit, t.outputs[left.length - 1 - i]? = some (.flit e f) ∧
          flSEQ f = (left.getD i (0, ⟨0, 0, 0, [], 0⟩)).1 ∧ f.body = padTo 16 (left.getD i (0, ⟨0, 0, 0, [], 0⟩)).2.body)) ∧
    (e = .h 4 → s.mstate ≠ .reset → midPair v = false → exec .hfKeepalive s = .next (fTakes (ctrl s v false)))) ∧
  (∀ (s : State) (e : Ep) (f : Flit) (a : BitVec 8), (endp s (epCode e)).st ≠ .up →
    exec (.flitReceive e f) s = .next s ∧ exec (.flitSend e) s = .next s ∧ exec (.ackDue e) s = .next s ∧
      exec (.nakReceive e a) s = .next s)

/-- 10 R235, R236, R242 to R252; 17 R409. The layout of a TSYNC, which master is heeded and that the final leg is answered too are log
entry 63; that transactions taken
whole outlast a port that goes DOWN is log entry 47 (the model's choices). -/
def Obligations.LinkTraining : Prop :=
  ∀ s : State,
    (∀ p : Fin 4,
      let k := 17 + p.val
      let v := endp s k
      let down := fun (t : State) => (endp t k).st = .down ∧ (endp t k).sent = [] ∧
        (∀ c : Nat, c < 8 → c ≠ s.nld.chip.toNat → s.nld.route.toNat / 2 ^ (4 * c) % 16 = 2 ^ p.val →
          t.nld.isoChips.getLsbD c = true) ∧
        (groupUp s p = true → (∀ c ∈ upTo 8, c ≠ s.nld.chip.toNat → p.val ∈ maskPorts (routeMask s c) →
            ∃ q ∈ maskPorts (routeMask s c), q ≠ p.val ∧ portUp s q = true) →
          (endp t k).rx = v.rx ∧ t.nld.isoChips = s.nld.isoChips ∧
          (s.mstate ≠ .reset → (s.faults.tail - s.faults.head).toNat < 256 → s.faults.held = [] →
            let w := tabGet [] t.faults.log (s.faults.tail.toNat % 256)
            t.faults.tail = s.faults.tail + 1 ∧ wordAt w 0 &&& 0xFFFF = 0x0040 ∧ wordAt w 5 = BitVec.ofNat 32 p.val))
      let half := { v with
        pair1 := none,
        erx := if v.pair1.isSome then v.erx - 1 else v.erx,
        used := (match v.pair1 with
          | some h => v.used.set h.vc (v.used.getD h.vc 0 - 1)
          | none => v.used),
        st := .training, locked := false, ctrl := 0, retrain := satAdd v.retrain 1 }
      (v.st = .up →
        exec (.laneLockLoss p) s = .next (setEndp s k { half with err := v.err ||| 2 }) ∧
        (regsUp s = true → exec (.nldRetrainWrite (.ext p)) s = .next (setEndp s k half))) ∧
      (v.st ≠ .up ∨ regsUp s = false → exec (.nldRetrainWrite (.ext p)) s = .next s) ∧
      (v.st = .training → v.wasUp = true → v.fails < 2 →
        exec (.laneLockLoss p) s = .next (setEndp s k { v with
          fails := v.fails + 1, locked := false, retrain := satAdd v.retrain 1, err := v.err ||| 2 }) ∧
        exec (.retrainLimitExpiry (.ext p)) s = .next (setEndp s k { v with fails := v.fails + 1, locked := false })) ∧
      (v.st = .training → v.wasUp = true → v.fails = 2 →
        (∃ t : State, exec (.laneLockLoss p) s = .next t ∧ down t) ∧
        (∃ t : State, exec (.retrainLimitExpiry (.ext p)) s = .next t ∧ down t)) ∧
      (v.st = .training → v.wasUp = false → ∃ t : State, exec (.extPortTrainTimeout p) s = .next t ∧ down t) ∧
      (v.st ≠ .training ∨ v.wasUp = true → exec (.extPortTrainTimeout p) s = .next s)) ∧
    (∀ d : Fin 4,
      let v := endp s (12 + d.val)
      let w := endp s (3 * d.val)
      (v.st = .up → (cd s d).slewed = false → v.sent ≠ [] → v.pair1 = none → w.st = .up → w.pair1 = none →
        exec (.laneNoProgress (.h (d.castLE (by decide)))) s = .next (setEndp (setEndp s (12 + d.val)
          { v with st := .training, locked := false, ctrl := 0, retrain := satAdd v.retrain 1, err := v.err ||| 4 }) (3 * d.val)
          { w with st := .training, locked := false, ctrl := 0 })) ∧
      (v.sent = [] → exec (.laneNoProgress (.h (d.castLE (by decide)))) s = .next s) ∧
      (v.st = .training → v.wasUp = true → v.fails = 2 → (cd s d).slewed = false → s.nld.isoDies.getLsbD d = false →
        ∃ t : State, exec (.retrainLimitExpiry (.h (d.castLE (by decide)))) s = .next t ∧ t.nld.isoDies.getLsbD d = true ∧
          ∀ b : Fin 256, (bell t d b).poisoned = true)) ∧
    (∀ e : Ep, epSlewed s (epCode e) = false →
      let k := epCode e
      let v := endp s k
      (v.st = .training → v.locked = false →
        exec (.blockLockAcquired e) s = .next { setEndp s k { v with locked := true, owe := [0, 0, 0, 0] } with
          outputs := .resume e v.erx ((upTo 4).map (fun c => (epBuffers k).getD c 0 - v.used.getD c 0)) s.nld.chip :: s.outputs }) ∧
      (v.st ≠ .training ∨ v.locked = true → exec (.blockLockAcquired e) s = .next s) ∧
      (∀ m : ResumeMsg, v.st = .training → v.locked = true →
        let n := (m.erx - (v.sseq - BitVec.ofNat 8 v.sent.length)).toNat
        let other := 17 ≤ k ∧ k < 21 ∧ ∃ c : BitVec 3, v.neighbour = some c ∧ c ≠ m.chip
        (m.crcGood = true → n ≤ v.sent.length → ¬ other → ∃ t : State, exec (.nldResumeFlit e m) s = .next t ∧
          (endp t k).st = .up ∧ (endp t k).fails = 0 ∧ (endp t k).wasUp = true ∧ (endp t k).sent = v.sent.drop n ∧
          (17 ≤ k → k < 21 → (endp t k).neighbour = some m.chip) ∧
          t.outputs.length = s.outputs.length + (v.sent.length - n) ∧
          (∀ j : Nat, j ≠ k → endp t j = endp s j)) ∧
        (m.crcGood = false → v.fails < 2 → exec (.nldResumeFlit e m) s = .next (setEndp s k { v with
          crc := satAdd v.crc 1, err := v.err ||| 1, fails := v.fails + 1, locked := false })) ∧
        (m.crcGood = true → v.sent.length < n ∨ other → v.fails < 2 →
          exec (.nldResumeFlit e m) s = .next (setEndp s k { v with
            fails := v.fails + 1, locked := false,
            neighbour := if 17 ≤ k ∧ k < 21 ∧ v.neighbour = none then some m.chip else v.neighbour })))) ∧
    (let ps := (upTo 4).filter (fun p => decide ((endp s (17 + p)).st = .up) && (upTo p).all (fun q =>
        !(decide ((endp s (17 + q)).st = .up) && decide ((endp s (17 + q)).neighbour = (endp s (17 + p)).neighbour))))
     s.nld.tmaster = true → s.mstate ≠ .reset →
      ∃ t : State, exec .tsyncPeriod s = .next t ∧ t.outputs = s.outputs ∧
        ∀ p ∈ ps, ∀ nb : BitVec 3, (endp s (17 + p)).neighbour = some nb →
          let pa := party s nb.toNat
          ∃ h : List Word, (endp t (17 + p)).txq = (endp s (17 + p)).txq ++ [⟨2, 3, 0, h, pa.asked + 1⟩] ∧ h.length = 16 ∧
            party t nb.toNat = { pa with
              asked := pa.asked + 1, outst := pa.outst ++ [⟨3, 0, .boot, ⟨h, []⟩, false, 17 + p, pa.asked + 1⟩] } ∧
            wordAt h 0 = 0xA0000000 ∧ field (wordAt h 1) 15 13 = s.nld.chip.toNat ∧
            field (wordAt h 3) 15 13 = nb.toNat ∧ field (wordAt h 4) 12 0 = 32 ∧
            tsyncMsg ⟨h, []⟩ = some ⟨.first, 0, 0, 0, 0, s.nld.chip, 0⟩) ∧
    (s.nld.tmaster = false → exec .tsyncPeriod s = .next s) ∧
    (∀ (p : Fin 4) (m : TsyncMsg), nextTxn (endp s (17 + p.val)) 10 = none → exec (.nldTsync p m) s = .next s) ∧
    -- T1 and T3 are the moments at which the legs leave
    (∀ (p : Fin 4) (f : TxFlit) (rest : List TxFlit) (nb : BitVec 3) (m : TsyncMsg),
      let k := 17 + p.val
      let v := endp s k
      v.st = .up → v.txq = f :: rest → (∀ g ∈ rest, g.vc = f.vc ∧ g.fk ≠ 2) → f.vc < 4 → v.ctrl = 0 → f.fk = 2 → f.body.length = 16 →
      midPair v = false → withinLimit s k f = true →
      1 ≤ v.credits.getD f.vc 0 → v.sent.length < 64 → v.neighbour = some nb →
      field (wordAt f.body 0) 31 28 = 10 → tsyncMsg ⟨f.body, []⟩ = some m →
      ∃ (t : State) (x : TxFlit), exec (.flitSend (.ext p)) s = .next t ∧ (endp t k).sent = v.sent ++ [(v.sseq, x)] ∧
        tsyncMsg ⟨x.body, []⟩ = some (match m.leg with
          | .first => { m with t1 := if m.master = s.nld.chip then s.tb else s.tb + s.nld.tofs }
          | .reply => { m with t3 := s.tb }
          | .final => m) ∧
        (∀ (q : Nat) (t2 t3 : Time), m.leg = .reply → s.nld.tsOpen = some (q, m.t1, t2, t3) →
          t.nld.tsOpen = some (q, m.t1, t2, s.tb))) ∧
    (∀ (p : Fin 4) (m : TsyncMsg) (x : Txn) (rest : List Txn) (nb : BitVec 3),
      (endp s (17 + p.val)).rx = x :: rest → field (wordAt x.hdr 0) 31 28 = 10 → tsyncMsg x = some m →
      (endp s (17 + p.val)).neighbour = some nb → replyEp s (17 + p.val) = some (17 + p.val) →
      let k := 17 + p.val
      let v := endp s k
      let n := 1 + 2 * txnPairs 10 (field (wordAt x.hdr 4) 12 0)
      let s1 := setEndp s k { v with
        rx := rest, used := v.used.set 3 (v.used.getD 3 0 - n), owe := v.owe.set 3 (v.owe.getD 3 0 + n) }
      let pa := party s nb.toNat
      let answer := fun (u : State) (w : TsyncMsg) => sendTxn u k (mkTxn s (tsyncAsk nb { w with leg := .reply }) (txnTid x) 1)
      let heeded := m.master ≠ s.nld.chip ∧ s.nld.isoChips.getLsbD m.master.toNat = false ∧ m.hops.toNat < 7 ∧
        (s.nld.tmaster = true → m.master.toNat ≤ s.nld.chip.toNat) ∧
        (s.nld.tvalid = true → 2000000 ≤ (s.tb - s.nld.tsAt).toNat ∨ m.master.toNat < s.nld.master.toNat ∨
          m.master = s.nld.master ∧ m.hops.toNat + 1 ≤ s.nld.hops.toNat)
      (m.leg = .first → exec (.nldTsync p m) s = .next (answer
        (if heeded then { s1 with nld := { s1.nld with tsOpen := some (p.val, m.t1, s.tb, s.tb) } } else s1)
        { m with t2 := s.tb, t3 := s.tb })) ∧
      (let mine := fun (o : Outst) => o.sent = true ∧ o.tid = txnTid x ∧ txnKind o.txn = 10
       (m.leg = .reply → (∀ o ∈ pa.outst, ¬ mine o) → exec (.nldTsync p m) s = .next s1) ∧
       (∀ (pre post : List Outst) (o : Outst), m.leg = .reply → pa.outst = pre ++ o :: post → (∀ y ∈ pre, ¬ mine y) → mine o →
        let s2 := dropAsk s1 nb.toNat o
        exec (.nldTsync p m) s = .next (if (txnOperand o.txn).toNat / 64 = 0 then
          sendAs s2 k nb.toNat .boot (mkTxn s (tsyncAsk nb { m with
            leg := .final, t4 := if m.master = s.nld.chip then s.tb else s.tb + s.nld.tofs }) 0 1)
          else s2))) ∧
      (m.leg = .final → ¬ heeded → exec (.nldTsync p m) s = .next (answer s1 m)) ∧
      (m.leg = .final → heeded → ∀ t2 t3 : Time, s.nld.tsOpen = some (p.val, m.t1, t2, t3) →
        (∀ q : Nat, q < 4 → q ≠ p.val → (endp s (17 + q)).st ≠ .up) →
        let u := answer s1 m
        exec (.nldTsync p m) s = .next { u with nld := { u.nld with
          tofs := ((m.t1 - t2) + (m.t4 - t3)).sshiftRight 1, tvalid := true, hops := m.hops + 1, master := m.master,
          tsOpen := none, tsAt := s.tb } })) ∧
    (regsUp s = true → ∀ x : Word,
      exec (.nldLockWrite x) s = .next { s with nld := { s.nld with lock := s.nld.lock || x.getLsbD 0 } })

/-- 10 R230, R231, R236 to R241, R245; 09 R226; 08 R201. The way a request, a response and an identifier take over several hops is log
entry 26, ISO by a route through the sender, CANCEL by channel and a satisfied wait that counts as performed are log entry 47, the
discarded later request of an isolated chip is log entry 65, what an ISOLATED answer tells is log entry 74, and a request that HALT has
stopped on its way is log entry 77 (the model's readings). -/
def Obligations.LinkTransactions : Prop :=
  (∀ (s : State) (e : Ep) (t : Txn) (rest : List Txn) (p : Nat), (endp s (epCode e)).st = .up → epSlewed s (epCode e) = false →
    (endp s (epCode e)).rx = t :: rest → partyOf s (epCode e) = some p →
    let k := epCode e
    let v := endp s k
    let kind := field (wordAt t.hdr 0) 31 28
    let tid := (wordAt t.hdr 0).extractLsb' 0 16
    let a := txnAddr t
    let d := a / 2 ^ 41 % 16
    let off := a % 2 ^ 41
    let len := field (wordAt t.hdr 4) 12 0
    let x := wordAt t.hdr 5
    let ch := kindVc kind
    let n := 1 + 2 * txnPairs kind len
    let s1 := setEndp s k { v with
      rx := rest, used := v.used.set ch (v.used.getD ch 0 - n), owe := v.owe.set ch (v.owe.getD ch 0 + n) }
    let ext := 17 ≤ k ∧ k < 21
    let pa := party s p
    let fresh := ∀ w ∈ pa.window, ¬ (w.ch = ch ∧ w.tid = tid)
    let rsp := fun (st : Nat) (bs : List Byte) => mkRsp tid (wordAt t.hdr 1) a st bs
    let from_ := field (wordAt t.hdr 1) 15 13
    let die := field (wordAt t.hdr 1) 12 9
    let lost := if from_ = s.nld.chip.toNat then diesJoined s (epDie k) die = false
      else s.nld.isoChips.getLsbD from_ = true ∨ (from_, die) ∈ s.nld.farIso
    let known := ¬ lost ∧ (ch, tid) ∉ pa.void
    let reply := fun (u : State) (st : Nat) (bs : List Byte) =>
      sendTxn (setParty u p { party u p with
        window := (winAdd pa.window ch tid).map (fun w =>
          if w.ch = ch ∧ w.tid = tid then { w with resp := some (rsp st bs) } else w) }) k (rsp st bs)
    let answer := fun (st : Nat) (bs : List Byte) => sendTxn (setParty s1 p pa) k (rsp st bs)
    let seen := fun (u : State) => setParty u p { pa with window := winAdd pa.window ch tid }
    let own := a / 2 ^ 45 % 8 = s.nld.chip.toNat ∧ d < 4 ∧ d = epDie k ∧ (cd s d).slewed = false
    let try_ := (wordAt t.hdr 0).getLsbD 27 = true
    let dl := joinTime (wordAt t.hdr 6) (wordAt t.hdr 7)
    let holds := fun (u : State) => if (wordAt t.hdr 0).getLsbD 26 then
        { u with nld := { u.nld with holds := [(.remote k ch tid (wordAt t.hdr 1) a, dl)] } } else u
    (own → known → fresh →
      (kind = 1 → (cd s d).vaultErr = [] → (cd s d).vaultClearing = false → off + len ≤ 0x180_0000 → off < 0x180_0000 →
        exec (.nldRd e) s = .next (answer 0 (memBytes 0 (cd s d).vault off len))) ∧
      (kind = 2 → (cd s d).vaultErr = [] → (cd s d).vaultClearing = false → off + (txnBytes t).length ≤ 0x180_0000 →
        off < 0x180_0000 →
        exec (.nldWr e) s = .next (reply (putCd s1 d { cd s d with vault := memPut 0 (cd s d).vault off (txnBytes t) }) 0 [])) ∧
      (∀ b : Fin 256, off = 0x500000000 + b.val * 0x100 →
        (kind = 3 → (bell s d b).poisoned = false → exec (.nldBadd e) s = .next (reply (addBell s1 d b x) 0 [])) ∧
        (kind = 3 → (bell s d b).poisoned = true → exec (.nldBadd e) s = .next (reply s1 4 [])) ∧
        (kind = 4 → s.nld.holds = [] →
          let met := ((bell s d b).count - x).toNat < 2 ^ 31
          ((bell s d b).poisoned = true → exec (.nldBwait e) s = .next (answer 4 [])) ∧
          ((bell s d b).poisoned = false → met → exec (.nldBwait e) s = .next (answer 0 [])) ∧
          ((bell s d b).poisoned = false → ¬ met → try_ → exec (.nldBwait e) s = .next (answer 6 [])) ∧
          ((bell s d b).poisoned = false → ¬ met → ¬ try_ →
            exec (.nldBwait e) s = .next (holds (setBell s1 d b { bell s d b with
              waiters := (bell s d b).waiters ++ [⟨.remote k 3 tid (wordAt t.hdr 1) a, x, false⟩] }))))) ∧
      (∀ q : Fin 128, off = 0x600000000 + q.val * 0x200 → s.nld.holds = [] → (cd s d).vaultErr = [] → (cd s d).vaultClearing = false →
        let full := 2 ^ (queue s d q).ldepth.toNat ≤ (queue s d q).occ
        let y : Push := ⟨.remote k 0 tid (wordAt t.hdr 1) a, txnHeader t, txnSource t, toWords 8 (ofWords (t.hdr.drop 8))⟩
        ((queue s d q).en = false →
          (kind = 5 → exec (.nldQpush e) s = .next (reply s1 8 [])) ∧ (kind = 6 → exec (.nldQpop e) s = .next (reply s1 8 []))) ∧
        ((queue s d q).en = true → kind = 5 →
          ((queue s d q).pushes = [] → (queue s d q).pops = [] → ¬ full →
            exec (.nldQpush e) s = .next (reply (enterEntry (seen s1) d q (txnHeader t) (txnSource t) y.body) 0 [])) ∧
          (full → try_ → exec (.nldQpush e) s = .next (reply s1 5 [])) ∧
          (full → ¬ try_ → exec (.nldQpush e) s = .next (holds (setQueue (seen s1) d q { queue s d q with
            pushes := (queue s d q).pushes ++ [y] })))) ∧
        ((queue s d q).en = true → kind = 6 →
          ((queue s d q).stopped = false → (queue s d q).occ ≠ 0 → (queue s d q).pops = [] →
            exec (.nldQpop e) s = .next (reply (setQueue s1 d q { queue s d q with occ := (queue s d q).occ - 1 }) 0
              (memBytes 0 (cd s d).vault (queSlot (queue s d q) (queHead (queue s d q))) (queEntry (queue s d q))))) ∧
          ((queue s d q).stopped = true ∨ (queue s d q).occ = 0 →
            (try_ → exec (.nldQpop e) s = .next (reply s1 6 [])) ∧
            (¬ try_ → exec (.nldQpop e) s = .next (holds (setQueue (seen s1) d q { queue s d q with
              pops := (queue s d q).pops ++ [.remote k 0 tid (wordAt t.hdr 1) a] })))))) ∧
      (∀ m : Fin 8, off = 0x200000000 + m.val * 0x40000 →
        let chid := x.extractLsb' 16 16
        let cols := field (wordAt t.hdr 6) 5 0 + 1
        let row := (field x 5 0, chnRow cols (txnBytes t))
        let turn := nextInput (plinth s d m).chainRr (chainInputs s d m) = 8 + k
        let opens := chainOpens (plinth s d m) chid row.1 = true
        let full := ((plinth s d m).chainBufs.filter (fun b => !b.broken || decide (b.rows ≠ []))).length
        (kind = 8 → opens → full < 2 → turn →
          (∀ j : Fin 8, chainWants s d m j = false) →
          exec (.nldChn e) s = .next (reply (setPlinth s1 d m { plinth s d m with
            chainRr := 8 + k,
            chainBufs := (plinth s d m).chainBufs ++ [⟨chid, field x 13 8 + 1, cols, [row], false⟩] }) 0 [])) ∧
        (kind = 8 → opens → ¬ turn → exec (.nldChn e) s = .next s) ∧
        (kind = 8 → opens → 2 ≤ full → exec (.nldChn e) s = .next s) ∧
        (kind = 8 → (∀ j : Fin 8, (plinth s d j).outRows = []) →
          ∀ (pre post : List ChainBuf) (b : ChainBuf), (plinth s d m).chainBufs = pre ++ b :: post →
          (∀ y ∈ pre, bufLacks chid row.1 y = false) → bufLacks chid row.1 b = true →
          exec (.nldChn e) s = .next (reply (setPlinth s1 d m { plinth s d m with
            chainBufs := pre ++ { b with
              rows := tabSet b.rows row.1 row.2,
              broken := b.broken || decide (b.m ≠ field x 13 8 + 1 ∨ b.n ≠ cols) } :: post }) 0 [])) ∧
        (kind = 9 → ∀ b : ChainBuf, (plinth s d m).chainBufs = [b] → b.chid = chid →
          exec (.nldChbrk e) s = .next (reply (setPlinth s1 d m { plinth s d m with
            chainBufs := if b.rows.length < b.m ∧ b.broken = false then [{ b with broken := true }]
              else [b, ⟨chid, 0, 0, [], true⟩] }) 0 [])))) ∧
    (∀ i ∈ ([(1, .nldRd e), (2, .nldWr e), (3, .nldBadd e), (4, .nldBwait e), (5, .nldQpush e), (6, .nldQpop e), (8, .nldChn e),
        (9, .nldChbrk e)] : List (Nat × Instr)), kind = i.1 → s.nld.holds = [] →
      let far := a / 2 ^ 45 % 8 ≠ s.nld.chip.toNat ∨ (d ≠ epDie k ∧ d ≤ 5)
      let u := if txnRecorded t then seen s1 else s1
      (known → fresh → far → ∀ (o q : Nat), relayStop s t = none → nextEp s (epDie k) (field (wordAt t.hdr 1) 31 16) a = some o →
        partyOf s o = some q →
        exec i.2 s = .next (sendAs u o q (.remote k ch tid (wordAt t.hdr 1) a) (relayTxn t o))) ∧
      (known → fresh → far → ¬ ext → txnRecorded t = true →
        (∀ st : Nat, relayStop s t = some st → exec i.2 s = .next (reply s1 st [])) ∧
        (relayStop s t = none → nextEp s (epDie k) (field (wordAt t.hdr 1) 31 16) a = none → exec i.2 s = .next (reply s1 3 []))) ∧
      (¬ lost → ¬ ext → (ch, tid) ∈ pa.void →
        exec i.2 s = .next (sendTxn (setParty s1 p { pa with void := pa.void.filter (fun y => decide (y ≠ (ch, tid))) }) k
          (rsp 9 []))) ∧
      (known → ¬ ext → txnRecorded t = true → ∀ (w : WinEntry),
        pa.window.find? (fun y => decide (y.ch = ch) && decide (y.tid = tid)) = some w →
        let s2 := setEndp s1 k { endp s1 k with dup := satAdd v.dup 1 }
        (∀ r : Txn, w.resp = some r → exec i.2 s = .next (sendTxn s2 k r)) ∧
        (w.resp = none → exec i.2 s = .next (setParty s2 p { pa with
          window := pa.window.map (fun y => if y.ch = w.ch ∧ y.tid = w.tid then { y with dups := y.dups + 1 } else y) }))) ∧
      (lost → exec i.2 s = .next s1)) ∧
    (kindVc kind ≠ 3 → ∀ (r c at_ : Nat) (tid2 : BitVec 16) (src : Word) (y : Time), (∀ z ∈ rest, kindVc (txnKind z) ≠ 3) →
      let who : Origin := .remote r c tid2 src at_
      s.nld.holds = [(who, y)] → (∀ j : Fin 4, ∀ q ∈ (cd s j).queues, ∀ z ∈ q.2.pushes, z.who ≠ who) →
      (s.tb.toNat < y.toNat → heldBy s who = true → exec (.nldBwait e) s = .next s) ∧
      (y.toNat ≤ s.tb.toNat → heldBy s who = true →
        let u := respond (withdraw s who) r tid2 src at_ c (if heldMet s who then 0 else 7) []
        exec (.nldBwait e) s = .next { u with nld := { u.nld with holds := [] } })) ∧
    (kind = 7 →
      (∀ b : Fin 256, ∀ c : Fin 4, ¬ ext → off = 0x500000000 + b.val * 0x100 → d = c.val →
        s.nld.parties = [] → (∀ j : Fin 4, (cd s j).slewed = false) → (∀ i : Nat, 17 ≤ i → i < 21 → (endp s i).neighbour = none) →
        ∀ (src : Word) (at_ : Nat), (bell s c b).waiters = [⟨.remote k 3 tid src at_, x, false⟩] →
        heldMet s (.remote k 3 tid src at_) = false →
        (∀ j : Fin 4, ∀ o ∈ heldOrigins (cd s j), cancelNames s1 k t o = true → o = .remote k 3 tid src at_) →
        ∃ u : State, exec (.nldCancel e) s = .next u ∧ (bell u c b).waiters = [] ∧ (bell u c b).count = (bell s c b).count ∧
          (endp u k).txq = (endp s k).txq ++ [⟨2, 1, 0, (mkRsp tid src at_ 9 []).hdr, 0⟩]) ∧
      (∀ (who : Origin) (q : Nat) (o : Outst), (everyOrigin s1).find? (cancelNames s1 k t) = some who → heldBy s1 who = false →
        findAsk s1 who = some (q, o) →
        exec (.nldCancel e) s = .next (if o.sent then sendTxn s1 o.ep (cancelTxn s1 o)
          else askDone (dropAsk s1 q o) o 9 [])) ∧
      ((everyOrigin s1).find? (cancelNames s1 k t) = none → exec (.nldCancel e) s = .next s1)) ∧
    (kind = 15 →
      ((∀ o ∈ pa.outst, ¬ (o.tid = tid ∧ o.sent = true ∧ wordAt o.txn.hdr 1 = wordAt t.hdr 1 ∧ txnAddr o.txn = a)) →
        exec (.nldRsp e) s = .next s1) ∧
      (∀ (o : Outst) (os : List Outst) (j : Fin 4) (i : Fin 32) (w : SpWait), pa.outst = o :: os → o.tid = tid → o.sent = true →
        wordAt o.txn.hdr 1 = wordAt t.hdr 1 → txnAddr o.txn = a → (∀ y ∈ os, sameAsk o y = false) → o.who = .spire j i → txnKind o.txn = 3 →
        (spire s j i).wait = some w → w.kind = .badd → w.abandon = 0 → (cd s j).slewed = false →
        let done := fun (y : Word) => setSpire (dropAsk s1 p o) j i
          { spSet { spire s j i with wait := none, st := .running } w.rd y with pc := (spire s j i).pc + 4 }
        (∀ g : Nat, g ≠ o.ep → endp (dropAsk s1 p o) g = endp s1 g) ∧ (party (dropAsk s1 p o) p).outst = os ∧
        (field x 7 0 = 0 → exec (.nldRsp e) s = .next (done 0)) ∧
        (field x 7 0 = 4 → exec (.nldRsp e) s = .next (done 4)) ∧
        (field x 7 0 = 3 → a / 2 ^ 45 % 8 = s.nld.chip.toNat → exec (.nldRsp e) s = .next (done 5)) ∧
        (field x 7 0 = 3 → a / 2 ^ 45 % 8 ≠ s.nld.chip.toNat → s.nld.isoChips.getLsbD (a / 2 ^ 45 % 8) = false →
          ∃ u : State, exec (.nldRsp e) s = .next u ∧ (a / 2 ^ 45 % 8, d) ∈ u.nld.farIso ∧
            ((a / 2 ^ 45 % 8, d) ∉ s.nld.farIso → ∀ (g : Fin 4) (b : Fin 256), (cd s g).slewed = false →
              (bell s g b).chips.getLsbD (a / 2 ^ 45 % 8) = true → (bell s g b).dies.getLsbD d = true →
              (bell u g b).poisoned = true)))) ∧
    (kind = 11 → a / 2 ^ 45 % 8 = s.nld.chip.toNat →
      let c := x.toNat % 8
      let through := ∃ q ∈ maskPorts (routeMask s c), ∃ y : BitVec 3, (endp s (17 + q)).neighbour = some y ∧ y.toNat = from_
      (through →
        exec (.nldIso e) s = .next (isolateChip s1 k c) ∧
        (c ≠ s.nld.chip.toNat → (isolateChip s1 k c).nld.isoChips.getLsbD c = true)) ∧
      (¬ through → exec (.nldIso e) s = .next s1))) ∧
  (∀ (s : State) (q : Ask) (who : Origin), addrChip q.addr ≠ s.nld.chip.toNat →
    (q.die = 4 → ∀ (g : Nat) (nb : BitVec 3), flowPort s q.src q.addr (addrChip q.addr) = some g →
      (endp s (17 + g)).neighbour = some nb → g < 4 →
      sendAsk s q who = some (sendAs s (17 + g) nb.toNat who (mkTxn s q 0 1))) ∧
    (q.die = 4 → flowPort s q.src q.addr (addrChip q.addr) = none → sendAsk s q who = none) ∧
    (q.die < 4 → sendAsk s q who = if epOpen s (3 * q.die) then some (linkAsk s (3 * q.die) q who) else none)) ∧
  (∀ (s : State) (q : Ask) (who : Origin), addrChip q.addr = s.nld.chip.toNat → q.die = 4 → addrDie q.addr < 4 →
    sendAsk s q who = if epOpen s (12 + addrDie q.addr) then some (linkAsk s (12 + addrDie q.addr) q who) else none)

/-- 10 R230, R231; 11 R262 to R273; 12 R295. MEM_CFG.SIZE gives the size of a package's LPDDR (11 R258); link errors in the order of the
bursts are log entry 38, the commands of the update engine that are refused at once are log entry 39, what a mover and the links do
in the step of a command is log entry 5, the movers' and the update engine's ports are log entry 22, and that TIME is the moment a record
is handed over is log entry 78 (the model's choices). -/
def Obligations.MemoryAndEngines : Prop :=
  ∀ s : State,
    (∀ d : Fin 4, (cd s d).slewed = false →
      (s.mstate ≠ .reset → (cd s d).vaultClearing = true → (∀ e ∈ (cd s d).queues, e.2.pushes = [] ∧ e.2.pops = []) →
        exec (.vaultClearDone d) s = .next (putCd s d { cd s d with vault := [], vaultErr := [], vaultClearing := false })) ∧
      ((cd s d).vaultClearing = false → exec (.vaultClearDone d) s = .next s)) ∧
    (∀ x : Word,
      (s.mem.st = .off → regsUp s = true →
        exec (.memCfgWrite x) s = .next { s with mem := { s.mem with cfg := x &&& 0xCF73_0000 } }) ∧
      (s.mem.st ≠ .off ∨ regsUp s = false → exec (.memCfgWrite x) s = .next s)) ∧
    (∀ fails : BitVec 16,
      (s.mem.st = .training → s.refclk = true → fails = 0 → exec (.lpddrTrainingEnd fails) s = .next { s with mem := { s.mem with
        st := .ready, psize := s.mem.cfg.extractLsb' 24 4 } }) ∧
      (s.mem.st = .training → s.refclk = true → fails ≠ 0 → ∃ t : State, exec (.lpddrTrainingEnd fails) s = .next t ∧
        t.mem = { s.mem with st := .failed, tfail := fails } ∧ t.mstate = s.mstate) ∧
      (s.mem.st ≠ .training ∨ s.refclk = false → exec (.lpddrTrainingEnd fails) s = .next s)) ∧
    (∀ r : BitVec 2,
      (s.mem.st = .ready → s.refclk = true → r ≠ 3 → exec (.mr4Poll r) s = .next { s with mem := { s.mem with refm := r } }) ∧
      (s.mem.st ≠ .ready → exec (.mr4Poll r) s = .next s)) ∧
    (s.refclk = false → s.mstate ≠ .reset → exec .lpddrRefreshLost s = .next { s with mem := { s.mem with
      reflost := true, lpddr := [], epoch := s.mem.epoch + 1 } }) ∧
    (s.refclk = true → exec .lpddrRefreshLost s = .next s) ∧
    (∀ a b : Nat, a < lpSize s.mem → b < lpSize s.mem → s.mem.psize.toNat < 5 → lpChannel a = lpChannel b →
      lpRank s.mem a = lpRank s.mem b → lpRow s.mem a = lpRow s.mem b → lpBank s.mem a = lpBank s.mem b →
      lpBurst a = lpBurst b → lpByte a = lpByte b → a = b) ∧
    (s.mem.cfg.getLsbD 16 = true → lpBallPin s .cke0 = .low ∧ lpBallPin s .cke1 = .low) ∧
    (s.mem.cfg.getLsbD 16 = false → lpBallPin s .wck0 = .low ∧ lpBallPin s .wck1 = .low ∧ lpBallPin s .ca6 = .low) ∧
    (s.mem.cfg.getLsbD 17 = false → lpBallPin s .cs1 = .low) ∧
    (∀ a : Nat, lpChannel a < 16 ∧ lpLocal a = a / 4096 % 2 ^ 23 * 256 + a % 256) ∧
    (∀ (g : Agent) (a n : Nat), diesJoined s g.die 4 = true → s.refclk = true → 0 < n → a + n ≤ lpSize s.mem →
      a + n ≤ 0x800000000 →
      let k := (a + n - 1) / 64 - a / 64 + 1
      let es := s.mem.linkErrs.take k
      let ecc := s.mem.cfg.getLsbD 31 = true ∧ s.mem.cfg.getLsbD 16 = true
      let good := fun (e : LinkErr) => e = .clean ∨ e = .single ∨ ∃ j : Nat, j < 4 ∧ e = .failing j
      let fixed := fun (l : List LinkErr) => (l.filter (fun e => decide (e = .single))).length
      let past := fun (x : Nat) => ({ s with mem := { s.mem with
        linkErrs := s.mem.linkErrs.drop k, rdb := satAdd s.mem.rdb k, lecc := satAdd s.mem.lecc x } } : State)
      let sent := fun (x : Nat) (bs : List Byte) => ({ s with mem := { s.mem with
        linkErrs := s.mem.linkErrs.drop k, wrb := satAdd s.mem.wrb k, lecc := satAdd s.mem.lecc x,
        lpddr := lpPut s.mem.lpddr a bs } } : State)
      (ecc → (∀ e ∈ es, good e) → dieRead s g 4 a n = (.ok (lpBytes s.mem a n), past (fixed es))) ∧
      (ecc → ∀ (l r : List LinkErr) (j : Nat), es = l ++ .failing j :: r → 4 ≤ j → (∀ e ∈ l, good e) →
        let u := past (fixed l)
        let p := max a ((a / 64 + l.length) * 64)
        dieRead s g 4 a n = (.never, haltFault u 3 (mkRec u sevFatal 3 (srcWord u skEngine 4 euMemory) 0x51
          (w32 p) (w32 (p / 2 ^ 32)) (w32 (lpChannel p))))) ∧
      (¬ ecc → (∀ e ∈ es, e = .clean) → dieRead s g 4 a n = (.ok (lpBytes s.mem a n), past 0)) ∧
      (¬ ecc → (∃ e ∈ es, e ≠ .clean) → dieRead s g 4 a n = (.ok (freeBytes s.free n), { past 0 with free := s.free + n })) ∧
      (∀ bs : List Byte, bs.length = n →
        (ecc → (∀ e ∈ es, e = .clean ∨ e = .single) → dieWrite s g 4 a bs = (.ok [], sent (fixed es) bs)) ∧
        (¬ ecc → (∀ e ∈ es, e = .clean) → dieWrite s g 4 a bs = (.ok [], sent 0 bs)) ∧
        (¬ ecc → (∃ e ∈ es, e ≠ .clean) →
          dieWrite s g 4 a bs = (.ok [], { sent 0 (freeBytes s.free n) with free := s.free + n })))) ∧
    (∀ m : Fin 8,
      ((mover s m).cmd = none → exec (.moverCopy m) s = .next s) ∧
      (s.mstate ≠ .run → exec (.moverCopy m) s = .next s) ∧
      (∀ (d : Fin 4) (u : UnitCmd) (t : Txn) (rest : List Txn) (o : Outst) (os : List Outst) (r : CopyRun),
        (endp s (12 + d.val)).rx = t :: rest → field (wordAt t.hdr 0) 31 28 = 15 → (party s (20 + d.val)).outst = o :: os →
        o ∉ os → answersTo t o = true → o.who = .unit (.mover m) → txnKind o.txn = 1 ∨ txnKind o.txn = 2 →
        txnAddr t / 2 ^ 45 % 8 = s.nld.chip.toNat →
        (mover s m).cmd = some u → (mover s m).run = some r → s.mstate = .run →
        let st := field (txnOperand t) 7 0
        let s1 := takeTxn s (12 + d.val) t
        exec (.nldRsp (.h (d.castLE (by decide)))) s = exec (.moverCopy m)
          (setMover (dropAsk s1 (20 + d.val) o) m { mover s m with
            run := some (if st ≠ 0 then { r with bad := st }
              else if r.phase = 1 then { r with phase := 0, buf := some (txnBytes t) }
              else { row := r.row + 1, phase := 0, buf := none }) })) ∧
      (∀ u : UnitCmd, (mover s m).cmd = some u → s.mstate = .run →
        let ends := fun (t : State) (st : Byte) => setMover t m { mover s m with
          cmd := none, run := none, was := none, doneQ := (mover s m).doneQ ++
            [⟨(wordAt u.w 0).extractLsb' 28 4, st, 0, 0, wordAt u.w 7, u.seq, u.queue, u.die, false⟩] }
        ((mover s m).run = none →
          field (wordAt u.w 0) 31 28 ≠ 1 ∨ (wordAt u.w 0).extractLsb' 0 28 ≠ 0 ∨ field (wordAt u.w 2) 31 16 ≠ 0 →
          exec (.moverCopy m) s = .next (ends s 1)) ∧
        (∀ (w1 w2 w3 w4 w5 w6 w7 : Word), u.w = [0x1000_0000, w1, w2, w3, w4, w5, w6, w7] →
          let src := w2.toNat * 2 ^ 32 + w1.toNat
          let dst := w4.toNat * 2 ^ 32 + w3.toNat
          let n := w5.toNat + 1
          let d1 := src / 2 ^ 41 % 16
          let d2 := dst / 2 ^ 41 % 16
          let o1 := src % 2 ^ 41
          let o2 := dst % 2 ^ 41
          src < 2 ^ 48 → dst < 2 ^ 48 → n ≤ 4096 → src / 2 ^ 45 = s.nld.chip.toNat → dst / 2 ^ 45 = s.nld.chip.toNat →
          d1 < 4 → d2 < 4 → o1 + n ≤ 0x180_0000 → diesJoined s 4 d1 = true →
          let at_ := fun (r : CopyRun) => setMover s m { mover s m with run := some r }
          let asks := fun (kind addr : Nat) (bs : List Byte) => ({
            kind := kind, src := moverSrcPort m, addr := addr, len := n, payload := bs } : Ask)
          (diesJoined s 4 d2 = true → o2 + n ≤ 0x180_0000 →
            ((mover s m).run = none → epOpen s (12 + d1) = true → exec (.moverCopy m) s = .next
              (linkAsk (at_ { row := 0, phase := 1, buf := none }) (12 + d1) (asks 1 src []) (.unit (.mover m)))) ∧
            ((mover s m).run = none → epOpen s (12 + d1) = false → ∃ t : State, exec (.moverCopy m) s = .next t ∧
              (mover t m).cmd = none ∧ ∃ x : Done, (mover t m).doneQ = (mover s m).doneQ ++ [x] ∧ x.status = 0x15) ∧
            (∀ bs : List Byte, bs.length = n → (mover s m).run = some { row := 0, phase := 0, buf := some bs } →
              epOpen s (12 + d2) = true →
              (src + n ≤ dst ∨ dst + n ≤ src → exec (.moverCopy m) s = .next
                (linkAsk (at_ { row := 0, phase := 2, buf := some bs }) (12 + d2) (asks 2 dst bs) (.unit (.mover m)))) ∧
              (src < dst + n → dst < src + n → exec (.moverCopy m) s = .next
                { linkAsk (at_ { row := 0, phase := 2, buf := some bs }) (12 + d2) (asks 2 dst (freeBytes s.free n))
                    (.unit (.mover m)) with free := s.free + n })) ∧
            ((mover s m).run = some { row := 1, phase := 0, buf := none } → exec (.moverCopy m) s = .next (ends s 0)) ∧
            (∀ r : CopyRun, (mover s m).run = some r → r.bad = 0 → r.phase ≠ 0 → exec (.moverCopy m) s = .next s)) ∧
          ((mover s m).run = none → diesJoined s 4 d2 = true → 0x100000000 ≤ o2 → o2 + n ≤ 0x102000000 → (∀ d : Fin 4, (cd s d).slewed = false) →
            ∃ t : State, exec (.moverCopy m) s = .next t ∧
            (mover t m).cmd = none ∧ (∃ x : Done, (mover t m).doneQ = (mover s m).doneQ ++ [x] ∧ x.status = 0x14) ∧
            ∀ d : Fin 4, (cd t d).vault = (cd s d).vault ∧ (cd t d).domeMem = (cd s d).domeMem) ∧
          ((mover s m).run = none → diesJoined s 4 d2 = false → o2 + n ≤ 0x180_0000 →
            exec (.moverCopy m) s = .next (ends s 0x15))) ∧
        (∀ (w1 w2 w3 w4 w5 w6 w7 : Word), u.w = [0x1000_0000, w1, w2, w3, w4, w5, w6, w7] → (mover s m).run = none →
          let src := w2.toNat * 2 ^ 32 + w1.toNat
          let dst := w4.toNat * 2 ^ 32 + w3.toNat
          let n := w5.toNat + 1
          let o1 := src % 2 ^ 41
          let o2 := dst % 2 ^ 41
          src < 2 ^ 48 → dst < 2 ^ 48 → n ≤ 4096 → src / 2 ^ 45 = s.nld.chip.toNat → dst / 2 ^ 45 = s.nld.chip.toNat →
          src / 2 ^ 41 % 16 = 4 → dst / 2 ^ 41 % 16 = 4 → o1 + n ≤ 0x800000000 → o2 + n ≤ 0x800000000 →
          o1 + n ≤ lpSize s.mem → o2 + n ≤ lpSize s.mem → src + n ≤ dst ∨ dst + n ≤ src → s.refclk = true →
          s.mem.linkErrs = [] →
          exec (.moverCopy m) s = .next (ends { s with mem := { s.mem with
            rdb := satAdd s.mem.rdb ((o1 + n - 1) / 64 - o1 / 64 + 1), wrb := satAdd s.mem.wrb ((o2 + n - 1) / 64 - o2 / 64 + 1),
            lpddr := lpPut s.mem.lpddr o2 (lpBytes s.mem o1 n) } } 0)))) ∧
    (∀ (m : Fin 8) (e : Done) (rest : List Done), (mover s m).doneQ = e :: rest → e.die < 4 →
      let chip := s.nld.chip.toNat
      let at_ := chip * 2 ^ 45 + e.die * 2 ^ 41
      let r := [w32 (2 * 2 ^ 28 + 7 * 2 ^ 24 + m.val * 2 ^ 16 + chip * 2 ^ 13 + 4 * 2 ^ 9 + e.status.toNat),
        w32 (e.opc.toNat * 2 ^ 16 + field e.ctl 15 0), e.counters, e.result, s.tb.extractLsb' 0 32, s.tb.extractLsb' 32 32, e.seq, 0]
      let over_ :=
        let t := setMover s m { mover s m with doneQ := rest }
        let t1 := setQueue t e.die e.queue { queue t e.die e.queue with
          open_ := (queue t e.die e.queue).open_.filter (fun x => decide (x ≠ e.seq)) }
        setMover t1 m { mover t1 m with last := e.status }
      (e.posted = false →
        exec (.commandComplete (.mover m)) s = .next (if epOpen s (12 + e.die) = true then
          linkAsk (setMover s m { mover s m with doneQ := { e with posted := true } :: rest }) (12 + e.die) {
            kind := 5, src := moverSrcPort m, addr := at_ + 0x600000000 + field e.ctl 22 16 * 0x200, len := 32,
            payload := ofWords r } (.unit (.mover m)) else over_)) ∧
      (e.posted = true → exec (.commandComplete (.mover m)) s = .next s) ∧
      (∀ (o : Outst) (bs : List Byte), o.who = .unit (.mover m) →
        (txnKind o.txn = 5 →
          askDone s o 8 bs = setMover s m { mover s m with doneQ := { e with posted := false } :: rest } ∧
          (e.ctl.getLsbD 23 = false → askDone s o 0 bs = over_) ∧
          (e.ctl.getLsbD 23 = true → epOpen s (12 + e.die) = true → askDone s o 0 bs = linkAsk s (12 + e.die) {
            kind := 3, src := moverSrcPort m, addr := at_ + 0x500000000 + field e.ctl 31 24 * 0x100, operand := 1 }
              (.unit (.mover m)))) ∧
        (txnKind o.txn = 3 → askDone s o 0 bs = over_))) ∧
    (∀ b : Bool,
      let good := fun (x : Bool) => if x then s.boot.goodB else s.boot.goodA
      let taken := fun (op : Nat) (spoilt : Bool) => ({ s with boot := { s.boot with
        goodA := s.boot.goodA && !(spoilt && !b), goodB := s.boot.goodB && !(spoilt && b), updBusy := some (op, b), updBuf := [],
        updAsk := false, updBad := false, updGood := good b } } : State)
      let whole := decide (s.boot.updOfs.toNat % 256 = 0 ∧ s.boot.updLen.toNat % 256 = 0)
      (s.boot.updBusy = none → s.mstate = .run →
        exec (.updErase b) s = .next (if good (!b) then taken 1 true else taken 5 false) ∧
        exec (.updWrite b) s = .next (if good (!b) && whole then taken 2 true else taken 6 false) ∧
        exec (.updCheck b) s = .next (taken 3 false)) ∧
      (s.boot.updBusy ≠ none ∨ s.mstate ≠ .run →
        exec (.updErase b) s = .next s ∧ exec (.updWrite b) s = .next s ∧ exec (.updCheck b) s = .next s) ∧
      (s.mstate ≠ .run → exec .updCommandEnd s = .next s) ∧
      (s.mstate = .run → s.boot.updBellEn = false →
        let ends := fun (t : State) (r : Byte) => ({ t with boot := { t.boot with
          updBusy := none, updBuf := [], updAsk := false, updBad := false, updResult := r } } : State)
        (∀ op : Nat, 4 ≤ op → s.boot.updBusy = some (op, b) → exec .updCommandEnd s = .next (ends s 0x10)) ∧
        (s.boot.updBusy = some (1, b) → memWf 0xFF s.flash = true → ∃ t : State, exec .updCommandEnd s = .next t ∧
          t = { ends s 0 with flash := t.flash } ∧ ∀ a : Nat, memRead 0xFF t.flash a =
            (if slotBase s b ≤ a ∧ a < slotBase s b + slotSize s then 0xFF else memRead 0xFF s.flash a)) ∧
        (s.boot.updBusy = some (2, b) → s.boot.updOfs.toNat + s.boot.updLen.toNat ≤ slotSize s →
          let a := s.boot.updSrc.toNat
          let d := a / 2 ^ 41 % 16
          let n := s.boot.updLen.toNat
          let k := s.boot.updBuf.length
          (s.boot.updAsk = true → exec .updCommandEnd s = .next s) ∧
          (s.boot.updAsk = false → s.boot.updBad = false → k < n → a / 2 ^ 45 = s.nld.chip.toNat → d < 4 →
            a % 2 ^ 41 + n ≤ 0x180_0000 → diesJoined s 4 d = true → epOpen s (12 + d) = true →
            exec .updCommandEnd s = .next { linkAsk s (12 + d) {
                kind := 1, src := Config.updPort.toNat % 65536, addr := a + k, len := min 4096 (n - k) } .update with
              boot := { s.boot with updAsk := true } }) ∧
          (s.boot.updAsk = false → s.boot.updBad = false → n ≤ k → (∀ x ∈ slotBytes s b s.boot.updOfs.toNat k, x = 0xFF) →
            exec .updCommandEnd s = .next { ends s 0 with
              flash := memPut 0xFF s.flash (slotBase s b + s.boot.updOfs.toNat) s.boot.updBuf }) ∧
          (s.boot.updAsk = false → s.boot.updBad = true → ∃ t : State, exec .updCommandEnd s = .next t ∧ t.flash = s.flash ∧
            t.boot.updBusy = none ∧ t.boot.updResult = 0x11) ∧
          (∀ (o : Outst) (bs : List Byte), o.who = .update →
            askDone s o 0 bs = { s with boot := { s.boot with updBuf := s.boot.updBuf ++ bs, updAsk := false } })) ∧
        (s.boot.updBusy = some (2, b) → slotSize s < s.boot.updOfs.toNat + s.boot.updLen.toNat →
          ∃ t : State, exec .updCommandEnd s = .next t ∧ t.flash = s.flash ∧ t.boot.updBusy = none ∧ t.boot.updResult = 0x11 ∧
            (if b then t.boot.goodB else t.boot.goodA) = s.boot.updGood) ∧
        (s.boot.updBusy = some (3, b) → ∃ t : State, exec .updCommandEnd s = .next t ∧ t.flash = s.flash ∧
          t.boot.updBusy = none ∧ (headerCheck s b ≠ 0 → t.boot.updResult = BitVec.ofNat 8 (headerCheck s b)) ∧
          (t.boot.updResult = 0 → (if b then t.boot.goodB else t.boot.goodA) = true) ∧
          (t.boot.updResult ≠ 0 → t.boot.goodA = s.boot.goodA ∧ t.boot.goodB = s.boot.goodB)))) ∧
    (s.boot.updBusy = none → exec .updCommandEnd s = .next s)

/-- 10 R251; 11 R257, R271; 12 R276 to R293. Times that only the outside can tell are the commands'. The causes that a read, a clock or a
section fails with, CAUSE and GOOD at release and LSKIP are log entry 46; where a block is staged, that the rings of streams are
checked, how long START and AUTH wait and that the release waits for the clearing are log entry 67; that a
Spire whose RUN is written in BOOT starts as RUN is entered is log entry 57 (the model's choices). The commands
of a phase that writes registers or memory go on from write to write; a write to another die is a request (10 R230). -/
def Obligations.Boot : Prop :=
  ∀ s : State, (∀ d : Fin 4, (cd s d).slewed = false) →
    let going := s.mstate = .boot ∧ s.refclk = true
    let b := s.boot.slot
    let retried := fun (t : State) (cause : Byte) => t.mstate = .boot ∧ t.boot.slot = true ∧ t.boot.phase = 2 ∧
      t.boot.causeA = cause ∧ t.boot.causeB = s.boot.causeB ∧ t.boot.attemptAt = s.tb ∧ t.mem.st = .off ∧
      ∀ d : Fin 4, (cd t d).vaultClearing = true ∧ (cd t d).bells = [] ∧ (cd t d).queues = [] ∧ (cd t d).spires = [] ∧
        (cd t d).domeMem = (cd s d).domeMem
    let safe := fun (t : State) => t.mstate = .safe ∧ t.boot.phase = 8 ∧ t.mem.st = .off ∧
      ∀ d : Fin 4, (cd t d).spires = [] ∧ (cd t d).domeMem = (cd s d).domeMem ∧
        ∀ (n : Nat) (x : Bool), (bankAt t d n x).st ≠ .active ∧ (bankAt t d n x).st ≠ .prog
    let fails := fun (c : Instr) (cause : Byte) => ∃ t : State, exec c s = .next t ∧
      (b = false → retried t cause) ∧ (b = true → safe t ∧ t.boot.causeA = s.boot.causeA ∧ t.boot.causeB = cause)
    let both := fun (c : Instr) (cause : Byte) => ∃ t : State, exec c s = .next t ∧ safe t ∧ t.boot.causeB = cause ∧
      (b = false → t.boot.causeA = cause) ∧ t.boot.slot = b
    (going → s.boot.phase.toNat ≤ 1 → s.tbStarted = true → (∀ d : Fin 4, (cd s d).vaultClearing = false) →
      ((∀ k : Nat, k < 17 ∨ k = 21 → (endp s k).st ≠ .training) ∨ 1000000 ≤ s.tb.toNat) →
      let v := s.flashDev
      let octal := v.profile1 = true ∧ v.octalSeq = true ∧ ∃ r ∈ [200, 166, 133, 100], r ∈ v.rates
      let size := v.present = true ∧ v.densPow2 = true ∧ 24 ≤ v.dens ∧ v.dens ≤ 29
      let found := fun (m : BitVec 2) (mhz : Nat) => exec .flashDiscovery s = .next { s with boot := { s.boot with
        phase := 2, flashMode := m, flashMHz := BitVec.ofNat 8 mhz, flashDens := BitVec.ofNat 5 v.dens } }
      bootPhase s = 1 ∧
      (size → v.profile1 = true → v.octalSeq = true → ∀ m ∈ [200, 166, 133, 100], m ∈ v.rates →
        (∀ x ∈ [200, 166, 133, 100], x ∈ v.rates → x ≤ m) → found 2 m) ∧
      (size → ¬ octal → v.quad = true → found 1 50) ∧
      (¬ size ∨ ¬ octal ∧ v.quad = false → both .flashDiscovery 1)) ∧
    (s.mstate = .boot → s.boot.phase = 0 → (∃ k : Nat, (k < 17 ∨ k = 21) ∧ (endp s k).st = .training ∧ (endp s k).wasUp = false) →
      s.tb.toNat < 1000000 → bootPhase s = 0 ∧ exec .flashDiscovery s = .next s ∧ exec .flashReadTimeout s = .next s) ∧
    (s.mstate = .boot → 1 ≤ (bootPhase s).toNat → s.boot.phase.toNat ≤ 6 → fails .flashReadTimeout 8) ∧
    (s.mstate = .boot → s.boot.phase.toNat < 8 →
      (10000000000 ≤ (s.tb - s.boot.attemptAt).toNat → fails .bootSlotTimeout 9) ∧
      ((s.tb - s.boot.attemptAt).toNat < 10000000000 → exec .bootSlotTimeout s = .next s) ∧
      (s.refclk = false → both .bootRefclkAbsent 0x0A) ∧
      (s.refclk = true → exec .bootRefclkAbsent s = .next s)) ∧
    (s.mstate ≠ .boot → exec .flashReadTimeout s = .next s ∧ exec .bootSlotTimeout s = .next s ∧
      exec .bootRefclkAbsent s = .next s ∧ exec .flashDiscovery s = .next s ∧ exec .imageAuth s = .next s ∧
      exec .imageConfig s = .next s ∧ exec .bootDomeEntry s = .next s ∧ exec .sectionLoad s = .next s ∧
      exec .bootSettleEnd s = .next s ∧ exec .bootRelease s = .next s) ∧
    (let key := s.otp.kvalid = true → digest32 (slotBytes s b 0x20 32) = s.otp.keyhash
     let signed := edVerify (slotBytes s b 0x20 32)
       (sha512 (slotBytes s b 0 0x80 ++ slotBytes s b 0x100 (64 * slotNum s b 0x14))) (slotBytes s b 0x80 64) = true
     (slotWord s b 0 ≠ 0x47534E31 ∨ slotNum s b 4 ≠ 1 ∨ slotSize s < slotNum s b 0x10 ∨
       slotNum s b 0x10 < 0x100 + 64 * slotNum s b 0x14 → headerCheck s b = 2) ∧
     (headerOk s b = true → ¬ key ∨ ¬ signed → headerCheck s b = 3) ∧
     (headerOk s b = true → key → signed → slotNum s b 8 < rbValue s.otp.rbcnt → headerCheck s b = 4) ∧
     (headerCheck s b = 0 → headerOk s b = true ∧ key ∧ signed ∧ rbValue s.otp.rbcnt ≤ slotNum s b 8)) ∧
    (going → s.boot.phase = 2 →
      (s.boot.flashMode = 0 → exec .imageAuth s = .next s) ∧
      (s.boot.flashMode ≠ 0 → headerCheck s b = 0 → exec .imageAuth s = .next { s with boot := { s.boot with
        isOpen := !s.otp.kvalid, otpRead := true, phase := 3, svn := BitVec.ofNat 7 (slotNum s b 8), seed := slotWord s b 0x18,
        provision := (slotWord s b 0x0C).getLsbD 0, pubkey := slotBytes s b 0x20 32,
        sections := (upTo (slotNum s b 0x14)).map (imgSection s b),
        todo := ((upTo (slotNum s b 0x14)).map (imgSection s b)).filter (fun x => decide (x.kind = 1)) ++
          ((upTo (slotNum s b 0x14)).map (imgSection s b)).filter (fun x => decide (x.kind = 2)) } }) ∧
      (s.boot.flashMode ≠ 0 → headerCheck s b ≠ 0 → fails .imageAuth (BitVec.ofNat 8 (headerCheck s b)))) ∧
    (∀ p ∈ ([(.imageConfig, 3, 6), (.bootDomeEntry, 4, 7), (.sectionLoad, 5, 6)] : List (Instr × BitVec 4 × Byte)), going →
      s.boot.phase = p.2.1 → (s.boot.wrBad ≠ none → fails p.1 p.2.2) ∧
        (∀ (w : BootWrite) (ws : List BootWrite), s.boot.writes = w :: ws → s.boot.wrAsk = false → s.boot.wrBad = none →
          w.good = false → fails p.1 p.2.2)) ∧
    (∀ p ∈ ([(.imageConfig, 3), (.bootDomeEntry, 4), (.sectionLoad, 5), (.bootRelease, 7)] : List (Instr × BitVec 4)), going →
      s.boot.phase = p.2 → s.boot.wrBad = none →
      (s.boot.wrAsk = true → exec p.1 s = .next s) ∧
      (∀ (w : BootWrite) (ws : List BootWrite) (d : Fin 4), s.boot.writes = w :: ws → s.boot.wrAsk = false → w.good = true →
        w.addr / 2 ^ 41 % 16 = d.val → diesJoined s 4 d = true → epOpen s (12 + d.val) = true →
        exec p.1 s = .next
          (let lost := if w.addr % 2 ^ 41 = 0xF00000108 then [(d.val, 0x108, w32 (if (cd s d).sys.refclkLost then 2 else 0))]
             else if w.addr % 2 ^ 41 ∈ [0xF000C1008, 0xF000C1108, 0xF000C1208] then
               [(d.val, w.addr % 2 ^ 41 - 0xF00000000, w32 (endp s (3 * d + (w.addr % 2 ^ 41 - 0xF000C1008) / 0x100)).err.toNat)]
             else []
           let t := linkAsk { s with boot := { s.boot with writes := ws, undo := lost ++ s.boot.undo } } (12 + d.val) {
            kind := 2, src := 0x400, addr := s.nld.chip.toNat * 2 ^ 45 + d.val * 2 ^ 41 + w.addr % 2 ^ 41, len := w.data.length,
            payload := w.data } .bootWrite
           { t with boot := { t.boot with wrAsk := true } }))) ∧
    (∀ (o : Outst) (st : Nat) (bs : List Byte), o.who = .bootWrite → askDone s o st bs = { s with boot := { s.boot with
      wrAsk := false, wrBad := if st = 0 then s.boot.wrBad else some (txnAddr o.txn, st) } }) ∧
    (∀ (x : Section) (i : Nat), 16 * (i + 1) ≤ x.len →
      let at_ := fun (j : Nat) => slotWord s b (x.ofs + 16 * i + 4 * j)
      let a := (at_ 0).toNat + 2 ^ 32 * field (at_ 1) 15 0
      (sectionWrites s b x)[i]? = some {
        addr := a, data := wordLe (at_ 2),
        good := decide (field (at_ 1) 31 16 = 0) && decide (at_ 3 = 0) && regAllowed (decide (x.kind = 1)) a }) ∧
    (∀ (a i : Nat) (bs : List Byte), 4096 * i < bs.length →
      (bootBytes a bs)[i]? = some { addr := a + 4096 * i, data := (bs.drop (4096 * i)).take 4096 }) ∧
    (going → s.boot.phase = 3 → s.boot.wrAsk = false → s.boot.wrBad = none → s.boot.writes = [] →
      (∀ (x : Section) (xs : List Section), s.boot.todo = x :: xs →
        (digest32 (slotBytes s b x.ofs x.len) ≠ x.digest → fails .imageConfig 5) ∧
        (digest32 (slotBytes s b x.ofs x.len) = x.digest → exec .imageConfig s = .next (bootGo { s with boot := { s.boot with
          todo := xs, now := some x, writes := sectionWrites s b x,
          fieldApplied := s.boot.fieldApplied || s.boot.now.any (fun y => decide (y.kind = 1)) } }))) ∧
      (s.boot.todo = [] → (∀ x ∈ s.boot.sections, 3 ≤ x.kind) →
        ((∃ c ∈ enabledStreams s, scSlots c < 2 ∨ 64 < scSlots c ∨ 0x180_0000 < scBase c + scSlots c * scSlot c) →
          fails .imageConfig 0x0B) ∧
        (∀ x ∈ (enabledStreams s).map streamRing, ∀ y ∈ queueRings s ++ uartRings s, x.die = y.die →
          x.lo < y.lo + y.size → y.lo < x.lo + x.size → fails .imageConfig 0x0B)) ∧
      (s.boot.todo = [] → (∀ x ∈ s.boot.sections, 3 ≤ x.kind) → field s.mem.cfg 27 24 = 0 → (∀ k : Nat, 17 ≤ k → k < 21 → (endp s k).en = false) →
        (∀ u : Fin 4, (uart s u).cfg = 0) → s.host.csi = [] →
        ∃ t : State, exec .imageConfig s = .next t ∧ t = { s with boot := t.boot } ∧ t.boot.phase = 4 ∧ t.boot.domeAt = 0 ∧
          t.boot.todo = s.boot.sections.filter (fun x => decide (x.kind = 5)) ++
            s.boot.sections.filter (fun x => decide (x.kind = 6)) ++
            s.boot.sections.filter (fun x => decide (x.kind = 7) && decide (x.dest / 2 ^ 41 % 16 < 4)) ∧
          t.boot.later = s.boot.sections.filter (fun x => decide (x.kind = 7) && decide (x.dest / 2 ^ 41 % 16 = 4)))) ∧
    (going → s.boot.phase = 4 → s.boot.wrAsk = false → s.boot.wrBad = none → s.boot.writes = [] →
      (s.boot.staged ≠ [] → exec .bootDomeEntry s = .next { s with
        tokenWait := s.tokenWait ++ s.boot.staged, boot := { s.boot with staged := [] } }) ∧
      (∀ (d n : Nat) (x : Bool) (k : Bank) (j : PgmJob), s.boot.staged = [] → bootJobs s = [((d, n, x), k, j)] → k.st ≠ .prog →
        (d, n, x) ∉ s.tokenWait →
        (2 ≤ j.tries ∨ 100000 ≤ k.count → fails .bootDomeEntry 7) ∧
        (j.tries < 2 → k.count < 100000 → exec .bootDomeEntry s = .next (bootGo { s with boot := { s.boot with
          writes := bootBytes (d * 2 ^ 41 + j.src) (memBytes 0xFF s.flash j.block 65536), staged := [(d, n, x)] } })))) ∧
    (going → s.boot.phase = 4 → s.boot.wrAsk = false → s.boot.wrBad = none → s.boot.writes = [] → s.boot.staged = [] →
      bootJobs s = [] →
      (nextDome s.boot.sections s.boot.domeAt = none →
        let due := fun (d : Fin 4) => s.boot.wiped ≤ d.val ∧ diesJoined s 4 d = true
        ((∀ d : Fin 4, ¬ due d) → exec .bootDomeEntry s = .next { s with boot := { s.boot with
          wiped := 0, phase := if s.boot.todo = [] then 6 else 5 } }) ∧
        (∀ d : Fin 4, due d → (∀ k : Fin 4, k < d → ¬ due k) →
          exec .bootDomeEntry s = .next (bootGo { s with boot := { s.boot with
            wiped := d.val + 1, now := none,
            writes := (upTo 1024).map (fun i => { addr := d.val * 2 ^ 41 + (0x140_0000 + 4096 * i), data := List.replicate 4096 0 }) } }))) ∧
      (∀ (d : Fin 4) (n : Nat) (x : Section), nextDome s.boot.sections s.boot.domeAt = some (d.val, n, x) →
        digest32 (slotBytes s b x.ofs x.len) = x.digest →
        let e := domeEntry s b x n
        let t := decide (e.sel = 1)
        let k := bankAt s d n t
        (e.sel = 3 → exec .bootDomeEntry s = .next { s with boot := { s.boot with domeAt := d.val * 256 + n + 1 } }) ∧
        (e.sel < 2 → e.oth = false → diesJoined s 4 d = true →
          let rest := { s.boot with domeAt := d.val * 256 + n + 1, recorded := s.boot.recorded ++ [(d.val, n, t)] }
          (k.st = .standby → digest32 (bankBytes s d n t) = entryDig e t →
            exec .bootDomeEntry s = .next { s with boot := { rest with verifs := s.boot.verifs + 1 } }) ∧
          (k.st = .blank → entryWb e t ≠ 0xFFFF_FFFF → k.count < 100000 →
            let block := slotBase s b + ((findSection s.boot.sections 4 0).map (·.ofs)).getD 0 + 65536 * entryWb e t
            let job : PgmJob := { src := 0x140_0000, digest := entryDig e t, boot := true, block := block }
            exec .bootDomeEntry s = .next (bootGo { putBank s d n t { k with job := some job } with boot := { rest with
              writes := bootBytes (d.val * 2 ^ 41 + 0x140_0000) (memBytes 0xFF s.flash block 65536),
              staged := [(d.val, n, t)] } })) ∧
          (k.st = .prog ∨ k.st = .active ∨ k.st ≠ .standby ∧ entryWb e t = 0xFFFF_FFFF → fails .bootDomeEntry 7)))) ∧
    (going → s.boot.phase = 5 → s.boot.wrAsk = false → s.boot.wrBad = none → s.boot.writes = [] →
      (s.boot.now = none → s.boot.todo = [] → exec .sectionLoad s = .next { s with boot := { s.boot with phase := 6 } }) ∧
      (∀ (x : Section) (xs : List Section), s.boot.now = none → s.boot.todo = x :: xs →
        exec .sectionLoad s = .next (bootGo { s with boot := { s.boot with
          todo := xs, now := some x, writes := bootBytes x.dest (slotBytes s b x.ofs x.len) } })) ∧
      (∀ x : Section, s.boot.now = some x →
        (digest32 (slotBytes s b x.ofs x.len) ≠ x.digest → fails .sectionLoad 5) ∧
        (digest32 (slotBytes s b x.ofs x.len) = x.digest → exec .sectionLoad s = .next { s with boot := { s.boot with
          now := none, phase := if s.boot.todo = [] then 6 else 5 } }))) ∧
    (going → s.boot.phase = 6 →
      (s.mem.st = .training ∨ (∃ k : Nat, 17 ≤ k ∧ k < 21 ∧ (endp s k).st = .training) → exec .bootSettleEnd s = .next s) ∧
      ((∀ k : Nat, k < 22 → (endp s k).st = .up) → s.mem.st = .off ∨ s.mem.st = .failed →
        let next := { s.boot with phase := 7, lskip := decide (s.mem.st = .failed ∨ s.boot.later ≠ []), later := [] }
        (s.nld.isoDies = 0 → s.nld.isoChips = 0 → s.nld.farIso = [] → exec .bootSettleEnd s = .next { s with boot := next }) ∧
        ∃ t : State, exec .bootSettleEnd s = .next t ∧ t.boot = next ∧ ∀ (d : Fin 4) (n : Fin 256),
          let c := bell s d n
          (bell t d n).poisoned = (c.poisoned || decide (s.nld.isoDies.getLsbD d = true ∨ c.dies &&& s.nld.isoDies ≠ 0 ∨
            (∃ k ∈ upTo 8, c.chips.getLsbD k = true ∧ k ≠ s.nld.chip.toNat ∧ s.nld.isoChips.getLsbD k = true) ∨
            ∃ p ∈ s.nld.farIso, c.chips.getLsbD p.1 = true ∧ c.dies.getLsbD p.2 = true)))) ∧
    (going → s.boot.phase = 7 → s.boot.wrAsk = false → s.boot.wrBad = none → s.boot.writes = [] →
      (s.boot.rel = 0 → (∃ d : Fin 4, (cd s d).vaultClearing = true) → exec .bootRelease s = .next s) ∧
      (s.boot.rel = 0 → (∀ d : Fin 4, (cd s d).vaultClearing = false) → (∀ r ∈ s.boot.recorded, r.1 < 4) →
        (s.boot.recorded.map (fun r => (r.1, r.2.1))).Nodup →
        ∃ t : State, exec .bootRelease s = .next (bootGo t) ∧
          t = { s with c0 := t.c0, c1 := t.c1, c2 := t.c2, c3 := t.c3, boot := { s.boot with
            rel := 1, now := none, writes := t.boot.writes } } ∧
          (∀ (d : Fin 4) (n : Nat) (x : Bool), (d.val, n, x) ∈ s.boot.recorded → (bankAt t d n x).st = .active ∧
            (bankAt t d n (!x)).st ≠ .active) ∧
          ∀ w : BootWrite, w ∈ t.boot.writes ↔ ∃ (d : Fin 4) (m : Fin 8) (o : Nat), (o = 0xF00030004 ∨ o = 0xF00050004) ∧
            w = { addr := d.val * 2 ^ 41 + o + m.val * 0x100, data := wordLe s.boot.seed }) ∧
      (s.boot.rel = 1 →
        ∃ t : State, exec .bootRelease s = .next (bootGo t) ∧ t.mstate = .boot ∧ t.nld.lock = true ∧ t.boot.rel = 2 ∧
          t.boot.time = w32 (s.tb.toNat / 1000) ∧ t.boot.goodA = !b ∧ t.boot.goodB = b ∧
          t.boot.causeA = (if b then s.boot.causeA else 0) ∧ t.boot.causeB = (if b then 0 else s.boot.causeB) ∧
          t.boot.writes = s.boot.starts.map (fun p => { addr := p.1 * 2 ^ 41 + (0xF000A0000 + p.2 * 0x100), data := wordLe 1 }) ∧
          (s.boot.provision = false ∨ s.otp.kvalid = true → t.otp = s.otp) ∧
          (s.boot.provision = true → s.otp.kvalid = false → (∀ x ∈ s.otp.keyhash, x = 0) →
            t.otp.kvalid = true ∧ t.otp.rbcnt = s.otp.rbcnt)) ∧
      (2 ≤ s.boot.rel → ∃ t : State, exec .bootRelease s = .next t ∧ t.mstate = .run ∧ t.boot.rel = 0 ∧
        ∀ d n : Nat, d < 4 → (cd s d).slewed = false →
          spire t d n = if (spire s d n).runBit then spireStart (spire s d n) else spire s d n)) ∧
    (going → s.boot.phase = 7 → s.boot.wrAsk = false → s.boot.writes = [] →
      exec .bootRelease s = exec .bootRelease { s with boot := { s.boot with wrBad := none } }) ∧
    (undoOf s 5 0x10324 = [(5, 0x10324, w32 s.f.edge.toNat)] ∧
      (∀ r ∈ [0x200, 0x204], undoOf s 4 r = [(4, 0x210, s.faults.head), (4, 0x204, s.faults.qNext)]) ∧
      undoOf s 4 0x150018 = [(4, 0x109000, s.host.pba.extractLsb' 0 32), (4, 0x109004, s.host.pba.extractLsb' 32 32)] ∧
      (∀ (i : Fin 4) (x : Word), undoOf s 4 (0xC1808 + i.val * 0x100) = [(4, 0xC1808 + i.val * 0x100, w32 (endp s (17 + i)).err.toNat)] ∧
        putBack s (4, 0xC1808 + i.val * 0x100, x) = setEndp s (17 + i) { endp s (17 + i) with
          err := (endp s (17 + i)).err ||| x.extractLsb' 0 5 }) ∧
      ∀ x : Word, (putBack s (5, 0x10324, x)).f.edge = s.f.edge ||| x.extractLsb' 0 16 ∧
        (putBack s (4, 0x204, x)).faults.qNext = x ∧
        ((s.faults.tail - x).toNat ≤ 256 → (putBack s (4, 0x210, x)).faults.head = x) ∧
        (putBack s (4, 0x109000, x)).host.pba = s.host.pba &&& (0xFFFF_FFFF#32 ++ x) ∧
        (putBack s (4, 0x109004, x)).host.pba = s.host.pba &&& (x ++ 0xFFFF_FFFF#32)) ∧
    (∀ (w : BootWrite) (t : State) (field : Bool), s.mstate = .boot → s.boot.undo = [] → w.data.length = 4 → bootMake s w = some t →
      let u := restoreImage t field
      u.boot.undo = [] ∧ u.faults.refused = s.faults.refused ∧ u.host.baddb = s.host.baddb ∧
        u.power.rstcause = s.power.rstcause ∧ (∀ k : Nat, msixWord u k = msixWord s k) ∧
        ∀ n : Fin 16, let v := session s n
          let x := session u n
          x.cqBase = v.cqBase ∧ x.cqImod = v.cqImod ∧ x.cqLsize = v.cqLsize ∧ x.cqWb = v.cqWb ∧ x.cqHead = v.cqHead ∧
            x.sqTail = v.sqTail ∧ x.sqHead = v.sqHead) ∧
    (s.mstate = .reset ∨ s.mstate = .safe → flashPin s = .highZ ∧ flashSelect s = .pulledUp) ∧
    (s.mstate = .boot → flashPin s = .sending ∧ flashSelect s = .sending) ∧
    (s.mstate = .run ∨ s.mstate = .halt → s.boot.updBusy = none → flashPin s = .low ∧ flashSelect s = .high) ∧
    (let n := s.boot.svn.toNat
     (s.mstate = .run → rbValue s.otp.rbcnt < n → exec .svnCommit s = .next { s with otp := { s.otp with
        rbcnt := s.otp.rbcnt ||| BitVec.ofNat 64 (2 ^ n - 1) } }) ∧
     (s.mstate ≠ .run ∨ n ≤ rbValue s.otp.rbcnt → exec .svnCommit s = .next s) ∧
     ∀ t : State, exec .svnCommit s = .next t → rbValue s.otp.rbcnt ≤ rbValue t.otp.rbcnt)

/-- 13 R309 to R319; 10 R230, R245; 02 R39. The first part is about a request that is the only one the engine has to take, over PCI
Express or Ethernet: its answer, its session and its own effect, which on another die or chip is a request sent over the links. Then come
the answer of a request in progress, HOST_DEADLINE, and WUPD's own effect. What an engine does with a request while its session closes
or has one on its way to a target, which status comes first, what an endpoint's frame must hold, and how the engine reads a bundle are
log entry 36, and so is a hand-over on a die that answers nothing (the model's choices). -/
def Obligations.HostRequests : Prop :=
  (∀ (s : State) (ep : HostEp) (f : Frame) (came : Time), s.host.inbox = [⟨ep, f, came⟩] →
    (∀ m : Fin 2, (mac s m).txq = [] ∧ (mac s m).pauseSent = false) →
    let kind := field (wordAt f.h 0) 23 16
    let n := field (wordAt f.h 0) 27 24
    let id := wordAt f.h 1
    let a := (wordAt f.h 2).toNat + 2 ^ 32 * field (wordAt f.h 3) 15 0
    let len := field (wordAt f.h 0) 12 0
    let x := wordAt f.h 4
    let v := session s n
    let takes := v.closing = none
    let chip := a / 2 ^ 45
    let own := chip = s.nld.chip.toNat
    let d := a / 2 ^ 41 % 16
    let off := a % 2 ^ 41
    let recorded := 0x11 ≤ kind ∧ kind ≠ 0x13 ∨ kind = 0x10 ∧ d ≤ 5 ∧ 0xF00000000 ≤ off ∧ off < 0xF01000000
    let past := (wordAt f.h 0).getLsbD 14 = true ∧ field (wordAt f.h 3) 31 16 * 1000 ≤ (s.tb - came).toNat
    let s0 := { s with host := { s.host with inbox := [] } }
    let ended := fun (st : Nat) (bs : List Byte) =>
      let l := v.cache ++ [({ f with data := [] }, BitVec.ofNat 8 st, bs)]
      reply (setSession s0 n (if recorded then { v with cache := if 257 ≤ l.length then l.drop 1 else l } else v)) ep f st bs
    let refused := fun (c : Instr) (st : Nat) => exec c s = .next (reply s0 ep f st [])
    let counted := fun (u : State) => ({ u with host := { u.host with dup := satAdd u.host.dup 1 } } : State)
    let other := [(0x10, Instr.hostRd), (0x11, .hostWr), (0x12, .hostBadd), (0x13, .hostBwait), (0x14, .hostQpush),
      (0x15, .hostQpop)] ++ if s.host.wupds = [] then [(0x20, .wupd)] else []
    let sends := fun (m : Fin 2) => (mac s m).liveCfg.getLsbD 31 = true ∧ (mac s m).link = true ∧ (mac s m).txHeld = false ∧
      s.mstate ≠ .reset ∧ s.mstate ≠ .safe
    let delivered := fun (t : State) (g : Frame) =>
      (ep = .pcie → (session t n).toSend[v.toSend.length]? = some ⟨g, none⟩) ∧
      ∀ (m : Fin 2) (dst : BitVec 48) (tag : Option (BitVec 12)), ep = .eth m dst tag →
        (sends m → .macFrame m dst (mac s m).liveMac tag (mac s m).liveEtype (sealFrame s g) ∈ t.outputs) ∧
        (¬ sends m → ((dst, tag), ⟨g, none⟩) ∈ (mac t m).txq)
    (∀ (st : Nat) (bs : List Byte), st < 64 → bs.length ≤ 4096 → v.outst.length ≤ 64 → let g := completion s0 f st bs
      g.data = bs ∧ field (wordAt g.h 0) 31 28 = 2 ∧ field (wordAt g.h 0) 27 24 = n ∧ field (wordAt g.h 0) 23 16 = kind ∧
        field (wordAt g.h 0) 12 0 = bs.length ∧ wordAt g.h 1 = id ∧ wordAt g.h 2 = wordAt f.h 2 ∧
        field (wordAt g.h 3) 15 0 = field (wordAt f.h 3) 15 0 ∧ field (wordAt g.h 5) 31 24 = st ∧
        field (wordAt g.h 5) 6 0 = 64 - v.outst.length) ∧
    (∀ (st : Nat) (bs : List Byte), bs.length ≤ 4096 → let o : OutFrame := ⟨completion s0 f st bs, none⟩
      (ep = .pcie → reply s0 ep f st bs = setSession s0 n { v with toSend := v.toSend ++ [o] }) ∧
      ∀ (m : Fin 2) (dst : BitVec 48) (tag : Option (BitVec 12)), ep = .eth m dst tag →
        (sends m → reply s0 ep f st bs = { setMac s0 m (mac s m) with
          outputs := .macFrame m dst (mac s m).liveMac tag (mac s m).liveEtype (sealFrame s o.f) :: s.outputs }) ∧
        (¬ sends m → reply s0 ep f st bs = setMac s0 m { mac s m with txq := [((dst, tag), o)] })) ∧
    (kind = 3 → s.mstate = .boot ∨ s.mstate = .run ∨ s.mstate = .halt → refused .ping 0) ∧
    (s.mstate = .boot → takes → (kind = 1 → refused .openSession 0x23) ∧ (kind = 2 → refused .closeSession 0x23) ∧
      ∀ k ∈ other, kind = k.1 → refused k.2 0x23) ∧
    (s.mstate = .halt → takes → ∀ k ∈ other, 0x12 ≤ k.1 → kind = k.1 → refused k.2 0x23) ∧
    (engineOn s = true → kind ≠ 3 → v.closing ≠ none →
      exec .openSession s = .next s ∧ exec .closeSession s = .next s ∧ ∀ k ∈ other, exec k.2 s = .next s) ∧
    -- the target of the previous request of the session has not taken that yet
    (farPending s n = true ↔ ∃ p ∈ s.nld.parties, ∃ o ∈ p.2.outst, ∃ r : Word, o.who = .host n r ∧
      let b := (wordAt o.txn.hdr 2).toNat + 2 ^ 32 * field (wordAt o.txn.hdr 3) 15 0
      let there := b / 2 ^ 41 % 16
      ¬ (o.sent = true ∧ if b / 2 ^ 45 % 8 = s.nld.chip.toNat then
          there < 4 ∧ Origin.remote (3 * there) o.ch o.tid (wordAt o.txn.hdr 1) b ∈ heldOrigins (cd s there)
        else field (wordAt o.txn.hdr 0) 31 28 = 4 ∨ field (wordAt o.txn.hdr 0) 31 28 = 5 ∨ field (wordAt o.txn.hdr 0) 31 28 = 6)) ∧
    (s.mstate = .run ∨ s.mstate = .halt ∧ (kind = 0x10 ∨ kind = 0x11) → farPending s n = true → v.owner = some ep →
      (∀ o ∈ v.outst, o.reqid ≠ id) → (∀ c ∈ v.cache, wordAt c.1.h 1 ≠ id) → v.outst.length < 64 → ¬ past →
      ∀ k ∈ other, kind = k.1 → exec k.2 s = .next s) ∧
    (s.mstate = .reset ∨ s.mstate = .safe → exec .ping s = .next s ∧ exec .openSession s = .next s ∧
      exec .closeSession s = .next s ∧ ∀ k ∈ other, exec k.2 s = .next s) ∧
    (s.mstate = .run ∨ s.mstate = .halt → takes → past → (kind = 1 → refused .openSession 7) ∧ (kind = 2 → refused .closeSession 7)) ∧
    (s.mstate = .run ∨ s.mstate = .halt → takes → ¬ past →
      (kind = 1 →
        let enabled := s.host.sessEn.getLsbD (if ep = .pcie then n else 16 + n)
        (v.owner ≠ none → v.owner ≠ some ep → refused .openSession 0x24) ∧
        (v.owner = some ep → v.outst ≠ [] → refused .openSession 0x20) ∧
        (v.owner = none → v.outst = [] → enabled = false → refused .openSession 0x21) ∧
        (v.owner = none ∨ v.owner = some ep → v.outst = [] → enabled = true →
          ∃ t : State, exec .openSession s = .next t ∧ (session t n).owner = some ep ∧ (session t n).sub = x.getLsbD 0 ∧
            (session t n).cache = [] ∧ (session t n).hbseq = 0 ∧ (session t n).liveBase = v.cqBase ∧
            delivered t (completion s0 f 0 []) ∧ t.host.inbox = [])) ∧
      (kind = 2 →
        (v.owner = none → refused .closeSession 0x21) ∧
        (v.owner ≠ none → v.owner ≠ some ep → refused .closeSession 0x24) ∧
        (v.owner = some ep → v.outst = [] → ∃ t : State, exec .closeSession s = .next t ∧ (session t n).owner = none ∧
          (session t n).sub = false ∧ (session t n).cache = [] ∧ (session t n).closing = none ∧
          delivered t (completion s0 f 0 [])) ∧
        (∀ o : HostReq, v.owner = some ep → v.outst = [o] →
          let was := setSession s0 n { v with closeAt := came }
          let now_ := fun (l : List HostReq) => setSession was n { v with closeAt := came, closing := some (some f), outst := l }
          let kind_ := field (wordAt o.f.h 0) 23 16
          (kind_ ≠ 0x13 → kind_ ≠ 0x14 → kind_ ≠ 0x15 → kind_ ≠ 0x20 →
            exec .closeSession s = .next (settleHost (now_ [o]))) ∧
          (∀ (p : Nat) (q : Outst), kind_ = 0x13 ∨ kind_ = 0x14 ∨ kind_ = 0x15 → o.cancel = 0 →
            heldBy s (.host n o.reqid) = false → findAsk s (.host n o.reqid) = some (p, q) → q.sent = true →
            let u := now_ [{ o with cancel := 2 }]
            exec .closeSession s = .next (settleHost (sendTxn u q.ep (cancelTxn u q)))) ∧
          (∀ (p : Nat) (q : Outst), kind_ = 0x13 ∨ kind_ = 0x14 ∨ kind_ = 0x15 → o.cancel = 0 →
            heldBy s (.host n o.reqid) = false → findAsk s (.host n o.reqid) = some (p, q) → q.sent = false →
            exec .closeSession s = .next (settleHost (setParty (now_ [{ o with cancel := 2 }]) p { party s p with
              calledOff := (party s p).calledOff ++ [q.ask] })))))) ∧
    (s.mstate = .run ∨ s.mstate = .halt ∧ (kind = 0x10 ∨ kind = 0x11) → takes →
      (∀ k ∈ other, kind = k.1 → (v.owner = none → refused k.2 0x21) ∧
        (v.owner ≠ none → v.owner ≠ some ep → refused k.2 0x24) ∧
        (v.owner = some ep → (∃ o ∈ v.outst, o.reqid = id) → exec k.2 s = .next (counted (setSession s0 n { v with
            outst := v.outst.map (fun o => if o.reqid = id then { o with dups := o.dups + 1 } else o) }))) ∧
        (∀ c : Frame × Byte × List Byte, v.owner = some ep → (∀ o ∈ v.outst, o.reqid ≠ id) →
          v.cache.find? (fun e => decide (wordAt e.1.h 1 = id)) = some c →
          exec k.2 s = .next (macFlush (sendTo (counted s0) ep n (completion s0 c.1 c.2.1.toNat c.2.2) none))) ∧
        (v.owner = some ep → (∀ o ∈ v.outst, o.reqid ≠ id) → (∀ c ∈ v.cache, wordAt c.1.h 1 ≠ id) → 64 ≤ v.outst.length →
          exec k.2 s = .next (reply { s0 with host := { s0.host with busy := satAdd s.host.busy 1 } } ep f 0x20 [])) ∧
        (v.owner = some ep → (∀ o ∈ v.outst, o.reqid ≠ id) → (∀ c ∈ v.cache, wordAt c.1.h 1 ≠ id) → v.outst.length < 64 → past →
          exec k.2 s = .next (ended 7 []))) ∧
      (farPending s n = false → v.owner = some ep → (∀ o ∈ v.outst, o.reqid ≠ id) → (∀ c ∈ v.cache, wordAt c.1.h 1 ≠ id) → v.outst.length < 64 → ¬ past →
        let taken := fun (stalled : Bool) => setSession s0 n { v with outst := v.outst ++ [⟨id, f, came, 0, 0, stalled⟩] }
        let ask : Ask := { kind := 0, src := 0x401, addr := a }
        let try_ := (wordAt f.h 0).getLsbD 15
        let asks := fun (u : State) (c : Instr) (q : Ask) (who : Origin) =>
          (∀ t : State, sendAsk u q who = some t → exec c s = .next t) ∧
          (sendAsk u q who = none → exec c s = .next (ended 3 []))
        (∀ i ∈ ([(0x10, .hostRd, 1), (0x11, .hostWr, 2)] : List (Nat × Instr × Nat)), kind = i.1 →
          let far := own ∧ d ≤ 5 ∧ d ≠ 4 ∧ dieAnswers s hostAgent d = true ∨
            ¬ own ∧ d ≤ 5 ∧ chipPresent s chip = true ∧ targetIsolated s 4 chip d = false
          (own ∧ 5 < d ∨ ¬ own ∧ chipPresent s chip = false ∨
            ¬ own ∧ 5 < d ∧ chipPresent s chip = true ∧ targetIsolated s 4 chip d = false → exec i.2.1 s = .next (ended 1 [])) ∧
          (own ∧ d ≤ 5 ∧ dieAnswers s hostAgent d = false ∨
            ¬ own ∧ chipPresent s chip = true ∧ targetIsolated s 4 chip d = true → exec i.2.1 s = .next (ended 3 [])) ∧
          (far → asks (taken false) i.2.1 { ask with
            kind := i.2.2, len := len, payload := if kind = 0x11 then f.data else [] } (.host n id))) ∧
        (own → d = 4 →
          (kind = 0x10 → off + len ≤ lpSize s.mem → s.mem.linkErrs = [] → s.refclk = true → off < 0x800000000 →
            off + len ≤ 0x800000000 →
            exec .hostRd s = .next { ended 0 (lpBytes s.mem off len) with
              mem := { s.mem with rdb := satAdd s.mem.rdb (bursts off len) } }) ∧
          (kind = 0x11 → off + f.data.length ≤ lpSize s.mem → s.mem.linkErrs = [] → s.refclk = true → off < 0x800000000 →
            off + f.data.length ≤ 0x800000000 →
            exec .hostWr s = .next { ended 0 [] with mem := { s.mem with
              wrb := satAdd s.mem.wrb (bursts off f.data.length), lpddr := lpPut s.mem.lpddr off f.data } }) ∧
          (let waits := { taken true with host := { (taken true).host with
             stallQ := s.host.stallQ.filter (fun x => decide (x ≠ (n, id))) ++ [(n, id)] } }
           s.refclk = false → off < 0x800000000 →
            (kind = 0x10 → off + len ≤ lpSize s.mem → off + len ≤ 0x800000000 → exec .hostRd s = .next waits) ∧
            (kind = 0x11 → off + f.data.length ≤ lpSize s.mem → off + f.data.length ≤ 0x800000000 →
              exec .hostWr s = .next waits)) ∧
          (kind = 0x10 → ∀ (bs : List Byte) (t : State), dieRead (taken false) hostAgent 4 off len = (.ok bs, t) →
            exec .hostRd s = .next (hostComplete t n id 0 bs)) ∧
          (kind = 0x11 → ∀ (bs : List Byte) (t : State), dieWrite (taken false) hostAgent 4 off f.data = (.ok bs, t) →
            exec .hostWr s = .next (hostComplete t n id 0 bs))) ∧
        (∀ i ∈ ([(0x12, .hostBadd, 0x500000000, 0x100, 256, { ask with kind := 3, operand := x }),
            (0x13, .hostBwait, 0x500000000, 0x100, 256, { ask with kind := 4, tryB := try_, operand := x }),
            (0x14, .hostQpush, 0x600000000, 0x200, 128, { ask with kind := 5, tryB := try_, len := 32, payload := f.data }),
            (0x15, .hostQpop, 0x600000000, 0x200, 128, { ask with kind := 6, tryB := try_ })] :
            List (Nat × Instr × Nat × Nat × Nat × Ask)), kind = i.1 →
          let named := chipPresent s chip = true ∧ d < 4 ∧ ∃ b : Nat, b < i.2.2.2.2.1 ∧ off = i.2.2.1 + b * i.2.2.2.1
          (¬ named → exec i.2.1 s = .next (ended 1 [])) ∧
          (named → targetIsolated s 4 chip d = true → exec i.2.1 s = .next (ended 3 [])) ∧
          (named → targetIsolated s 4 chip d = false → asks (taken false) i.2.1 i.2.2.2.2.2 (.host n id))) ∧
        (kind = 0x20 → s.host.wupds = [] → s.host.wupdBuf = [] → s.host.wupdAsk = false → s.host.wupdBad = none →
          s.host.wupdPush = false →
          let room := (regionRest d off).getD 0
          let running := { taken false with host := { (taken false).host with wupds := [(n, id)] } }
          (room < 0x80 → exec .wupd s = .next (ended 0x22 [])) ∧
          (own → d = 4 → off + 0x80 ≤ lpSize s.mem → off + 0x80 ≤ 0x800000000 → s.mem.linkErrs = [] → s.refclk = true →
            leWord ((lpBytes s.mem off 0x80).take 4) ≠ 0x47575031 → exec .wupd s = .next { ended 0x22 [] with
              mem := { s.mem with rdb := satAdd s.mem.rdb (bursts off 0x80) } }) ∧
          (0x80 ≤ room → d < 4 → own ∧ diesJoined s 4 d = true ∨
              ¬ own ∧ chipPresent s chip = true ∧ targetIsolated s 4 chip d = false →
            (∀ t : State, sendAsk running { ask with kind := 1, len := 0x80 } (.wupd n id) = some t →
              exec .wupd s = .next { t with host := { t.host with wupdAsk := true } }) ∧
            (sendAsk running { ask with kind := 1, len := 0x80 } (.wupd n id) = none →
              exec .wupd s = .next (ended 3 []))))))) ∧
  -- an access that has waited for REFCLK_IN, tried again
  (∀ (s : State) (k : Fin 16) (o : HostReq), (session s k).outst = [o] → o.stalled = true → s.refclk = true → s.mem.linkErrs = [] →
    let a := (wordAt o.f.h 2).toNat + 2 ^ 32 * field (wordAt o.f.h 3) 15 0
    let off := a % 2 ^ 41
    let kind := field (wordAt o.f.h 0) 23 16
    let len := if kind = 0x11 then o.f.data.length else field (wordAt o.f.h 0) 12 0
    let u := setSession { s with host := { s.host with stallQ := s.host.stallQ.filter (fun x => decide (x ≠ (k.val, o.reqid))) } } k
      { session s k with outst := [{ o with stalled := false }] }
    a / 2 ^ 45 = s.nld.chip.toNat → a / 2 ^ 41 % 16 = 4 → off + len ≤ lpSize s.mem → off < 0x800000000 → off + len ≤ 0x800000000 →
      wordAt o.f.h 1 = o.reqid → field (wordAt o.f.h 0) 27 24 = k →
      (kind = 0x10 → hostRetry s k o.reqid = hostComplete { u with mem := { s.mem with rdb := satAdd s.mem.rdb (bursts off len) } } k
        o.reqid 0 (lpBytes s.mem off len)) ∧
      (kind = 0x11 → hostRetry s k o.reqid = hostComplete { u with mem := { s.mem with
        wrb := satAdd s.mem.wrb (bursts off len), lpddr := lpPut s.mem.lpddr off o.f.data } } k o.reqid 0 [])) ∧
  (∀ (s : State) (k : Fin 16) (o : HostReq) (ep : HostEp) (st : Nat) (bs : List Byte), (session s k).outst = [o] →
    (session s k).owner = some ep → (session s k).closing = none → o.dups = 0 →
    let st1 := if st = 9 ∧ o.cancel = 1 then 7 else st
    let l := (session s k).cache ++ [({ o.f with data := [] }, BitVec.ofNat 8 st1, bs)]
    (∀ r : Outst, r.who = .host k o.reqid → askDone s r st bs = hostComplete s k o.reqid st bs) ∧
    hostComplete s k o.reqid st bs = reply (setSession s k { session s k with
      outst := [], cache := if frRecorded o.f then (if 257 ≤ l.length then l.drop 1 else l) else (session s k).cache }) ep o.f st1 bs) ∧
  (∀ (s : State) (k : Fin 16) (r : Word), (∀ m : Fin 2, (mac s m).pauseSent = false) →
    let past := fun (f : Frame) (at_ : Time) => (wordAt f.h 0).getLsbD 14 = true ∧
      field (wordAt f.h 3) 31 16 * 1000 ≤ (s.tb - at_).toNat
    let names := fun (e : InFrame) => field (wordAt e.f.h 0) 27 24 = k.val ∧ wordAt e.f.h 1 = r ∧ past e.f e.at_
    let fresh := ∀ o ∈ (session s k).outst, o.reqid ≠ r
    (fresh → (session s k).closing = none → (∀ e ∈ s.host.inbox, ¬ names e) → exec (.hostDeadline k r) s = .next s) ∧
    (fresh → (session s k).closing = none → ∀ e : InFrame, s.host.inbox = [e] → names e →
      let v := session s k
      let u := { s with host := { s.host with inbox := [] } }
      let kind := field (wordAt e.f.h 0) 23 16
      let runs := (s.mstate ≠ .boot ∧ (s.mstate = .halt → kind = 0x10 ∨ kind = 0x11)) ∧ v.owner = some e.ep ∧ (kind = 0 ∨ 3 < kind) ∧
        (∀ c ∈ v.cache, wordAt c.1.h 1 ≠ r) ∧ v.outst.length < 64
      let l := v.cache ++ [({ e.f with data := [] }, (7 : Byte), ([] : List Byte))]
      (¬ runs → exec (.hostDeadline k r) s = .next (reply u e.ep e.f 7 [])) ∧
      (runs → exec (.hostDeadline k r) s = .next (reply (setSession u k { v with
        cache := if frRecorded e.f then (if 257 ≤ l.length then l.drop 1 else l) else v.cache }) e.ep e.f 7 []))) ∧
    (∀ (g : Frame) (ep : HostEp), fresh → (session s k).closing = some (some g) → (session s k).owner = some ep →
      (∀ e ∈ s.host.inbox, ¬ names e) → wordAt g.h 1 = r →
      (¬ past g (session s k).closeAt → exec (.hostDeadline k r) s = .next s) ∧
      (past g (session s k).closeAt → exec (.hostDeadline k r) s = .next (settleHost (reply (setSession s k { session s k with
        closing := none }) ep g 7 [])))) ∧
    (∀ o : HostReq, (session s k).outst = [o] → o.reqid = r →
      let s1 := setSession s k { session s k with outst := [{ o with cancel := 1 }] }
      let kind := field (wordAt o.f.h 0) 23 16
      (¬ past o.f o.arrived ∨ o.cancel ≠ 0 → exec (.hostDeadline k r) s = .next s) ∧
      (past o.f o.arrived → o.cancel = 0 → kind ≠ 0x20 → o.stalled = true →
        exec (.hostDeadline k r) s = .next (hostComplete s1 k r 9 [])) ∧
      (past o.f o.arrived → o.cancel = 0 → kind ≠ 0x20 → o.stalled = false → heldBy s (.host k r) = false →
        ∀ (p : Nat) (q : Outst), findAsk s (.host k r) = some (p, q) →
        (q.sent = true → exec (.hostDeadline k r) s = .next (sendTxn s1 q.ep (cancelTxn s1 q))) ∧
        (q.sent = false → exec (.hostDeadline k r) s = .next (hostComplete (dropAsk s1 p q) k r 9 []))) ∧
      (past o.f o.arrived → o.cancel = 0 → kind = 0x20 → (k.val, r) ∈ s.host.wupds.drop 1 → exec (.hostDeadline k r) s =
        .next (hostComplete { s1 with host := { s1.host with
          wupds := s.host.wupds.filter (fun w => decide (w ≠ (k.val, r))) } } k r 7 [])) ∧
      (past o.f o.arrived → o.cancel = 0 → kind = 0x20 → (k.val, r) ∉ s.host.wupds.drop 1 → o.stalled = false →
        (s.host.wupdPush = false ∨ s.host.wupds.head? ≠ some (k.val, r) → exec (.hostDeadline k r) s = .next s1) ∧
        (s.host.wupdPush = true → s.host.wupds.head? = some (k.val, r) →
          (s.host.wupdAsk = false → exec (.hostDeadline k r) s = .next (hostComplete { s1 with host := { s1.host with
            wupds := s.host.wupds.drop 1, wupdBuf := [], wupdAsk := false, wupdBad := none, wupdPush := false } } k r 9 [])) ∧
          (∀ (p : Nat) (q : Outst), s.host.wupdAsk = true → heldBy s (.wupd k r) = false →
            findAsk s (.wupd k r) = some (p, q) → exec (.hostDeadline k r) s = .next (if q.sent then
              sendTxn s1 q.ep (cancelTxn s1 q) else askDone (dropAsk s1 p q) q 9 [])))) ∧
      (past o.f o.arrived → o.cancel = 0 → (session s k).owner = some .pcie → (session s k).closing = none → kind = 0x13 →
        o.stalled = false → (∀ d : Fin 4, (cd s d).slewed = false) →
        ∀ (d : Fin 4) (b : Fin 256), (∃ w ∈ (bell s d b).waiters, w.who = .host k r) → heldMet s (.host k r) = false →
          ∃ t : State, exec (.hostDeadline k r) s = .next t ∧ (session t k).outst = [] ∧
            (∀ w ∈ (bell t d b).waiters, w.who ≠ .host k r) ∧ (bell t d b).count = (bell s d b).count ∧
            ∃ g : Frame, (session t k).toSend.getLast? = some ⟨g, none⟩ ∧ field (wordAt g.h 5) 31 24 = 7))) ∧
  (∀ (s : State) (k : Fin 16) (o : HostReq), (∀ e ∈ s.host.inbox, field (wordAt e.f.h 0) 23 16 ≠ 0x20) →
    s.host.wupds = [(k.val, o.reqid)] → (session s k).outst = [o] →
    let a := (wordAt o.f.h 2).toNat + 2 ^ 32 * field (wordAt o.f.h 3) 15 0
    let chip := a / 2 ^ 45
    let d := a / 2 ^ 41 % 16
    let off := a % 2 ^ 41
    let buf := s.host.wupdBuf
    let at_ := fun (i n : Nat) => (buf.drop i).take n
    let seqno := leWord (at_ 4 4)
    let n := (leWord (at_ 8 4)).toNat
    let head := 0x80 + 64 * n
    let total := head + 65536 * n
    let zero := fun (bs : List Byte) => ∀ b ∈ bs, b = 0
    let header := leWord (at_ 0 4) = 0x47575031 ∧ 1 ≤ n ∧ n ≤ 1024 ∧ zero (at_ 0x0C 52) ∧ total ≤ (regionRest d off).getD 0
    let entries := ∀ i : Nat, i < n → zero (at_ (0x80 + 64 * i + 4) 28)
    let signed := edVerify s.boot.pubkey (sha512 (at_ 0 0x40 ++ at_ 0x80 (64 * n))) (at_ 0x40 64) = true
    let digests := ∀ i : Nat, i < n → digest32 (at_ (head + 65536 * i) 65536) = at_ (0x80 + 64 * i + 32) 32
    let ends := fun (u : State) (st : Nat) => exec .wupd s = .next (hostComplete { u with host := { u.host with
      wupds := [], wupdBuf := [], wupdAsk := false, wupdBad := none, wupdPush := false } } k o.reqid st [])
    let reads := fun (need : Nat) =>
      (chip = s.nld.chip.toNat ∧ d ≠ 4 ∧ d ≤ 3 ∧ diesJoined s 4 d = true ∨
        chip ≠ s.nld.chip.toNat ∧ d ≤ 3 ∧ chipPresent s chip = true ∧ targetIsolated s 4 chip d = false) →
      off + buf.length < 2 ^ 41 →
      let q : Ask := { kind := 1, src := 0x401, addr := a + buf.length, len := min 4096 (need - buf.length) }
      (∀ t : State, sendAsk s q (.wupd k o.reqid) = some t →
        exec .wupd s = .next { t with host := { t.host with wupdAsk := true } }) ∧
      (sendAsk s q (.wupd k o.reqid) = none → ends s 3)
    (s.mstate ≠ .run ∨ s.host.wupdAsk = true → exec .wupd s = .next s) ∧
    (s.mstate = .run → s.host.wupdAsk = false →
      (o.cancel = 1 → ends s 9) ∧
      (∀ st : Byte, o.cancel ≠ 1 → s.host.wupdBad = some st → ends s st.toNat) ∧
      (o.cancel ≠ 1 → s.host.wupdBad = none →
        (0x80 ≤ buf.length → ¬ header → ends s 0x22) ∧
        (buf.length < 0x80 → (regionRest d off).getD 0 < 0x80 → ends s 0x22) ∧
        (buf.length < 0x80 → 0x80 ≤ (regionRest d off).getD 0 → reads 0x80) ∧
        (0x80 ≤ buf.length → header → buf.length < head → reads head) ∧
        (buf.length = head → header →
          (¬ entries → ends s 0x22) ∧
          (entries → ¬ signed → ends s 0x25) ∧
          (entries → signed → seqno.toNat ≤ s.host.wupdLast.toNat → ends s 0x26) ∧
          (entries → signed → s.host.wupdLast.toNat < seqno.toNat → reads total)) ∧
        (head < buf.length → buf.length < total → header → reads total) ∧
        (total ≤ buf.length → header → ¬ digests → ends s 0x27) ∧
        (total ≤ buf.length → header → digests →
          let s1 := { s with host := { s.host with wupdLast := seqno } }
          let w := s.host.wupdQ
          let g := field w 10 9
          let i := field w 6 0
          let body : List Word := [w32 (0x30000000 + n), wordAt o.f.h 2, w32 (field (wordAt o.f.h 3) 15 0), seqno, o.reqid, w32 k,
            0, 0]
          let q : Ask := {
            kind := 5, src := 0x401, addr := s.nld.chip.toNat * 2 ^ 45 + g * 2 ^ 41 + 0x600000000 + i * 0x200, len := 32,
            payload := ofWords body }
          (w.getLsbD 31 = false → ends s1 8) ∧
          (w.getLsbD 31 = true → diesJoined s 4 g = false → ends s1 3) ∧
          (w.getLsbD 31 = true → diesJoined s 4 g = true →
            (∀ t : State, sendAsk s1 q (.wupd k o.reqid) = some t →
              exec .wupd s = .next { t with host := { t.host with wupdAsk := true, wupdPush := true } }) ∧
            (sendAsk s1 q (.wupd k o.reqid) = none → ends s1 3))))) ∧
    (∀ (q : Outst) (st : Nat) (bs : List Byte), q.who = .wupd k o.reqid → txnKind q.txn = 5 →
      (st = 8 → o.cancel = 0 → askDone s q st bs = { s with host := { s.host with wupdAsk := false } }) ∧
      (st ≠ 8 → askDone s q st bs = hostComplete { s with host := { s.host with
        wupds := [], wupdBuf := [], wupdAsk := false, wupdBad := none, wupdPush := false } } k o.reqid st [])))

/-- 13 R310 to R327. The masking and the pending bits of MSI-X are log entry 35, and the one unit that a completion ring keeps free and
what becomes of a vector whose session has gone to Ethernet are log entry 36; the list of pulse widths is log entry 11 (the model's
choices). -/
def Obligations.PciExpress : Prop :=
  ∀ s : State,
    let rings := (s.mstate = .boot ∨ s.mstate = .run ∨ s.mstate = .halt) ∧ s.host.perst = false
    let quiet := (hostOn s = false ∨ s.faults.hostNext = s.faults.tail) ∧ ∀ m : Fin 2, (mac s m).txq = []
    let signal := fun (u : State) (k : Nat) => if s.host.perst then u
      else if (msixWord s (4 * k + 3)).getLsbD 0 then
        { u with host := { u.host with pba := u.host.pba ||| BitVec.ofNat 64 (2 ^ k) } }
      else { u with outputs := .msix k :: u.outputs }
    (∀ f : Frame, let g := sealFrame s f
      g.data = f.data ∧ wordAt g.h 6 = s.tb.extractLsb' 0 32 ∧ (∀ i : Nat, i < 6 → i < f.h.length → wordAt g.h i = wordAt f.h i) ∧
        wordAt g.h 7 = crc32c (ofWords (g.h.take 7) ++ f.data)) ∧
    (∀ n : Fin 16,
      let v := session s n
      (¬ rings → ∀ x : Word, exec (.pciSqTailWrite n x []) s = .next s ∧ exec (.pciCqHeadWrite n x) s = .next s ∧
        exec (.cqFrameWrite n) s = .next s) ∧
      (s.mstate ≠ .reset → s.mstate ≠ .safe → ∀ x : Word,
        let at_ := 0x101000 + n.val * 0x40
        regWrite s 4 (at_ + 0x14) x = setSession s n { v with cqHead := x.extractLsb' 6 18 } ∧
        (v.owner ≠ none →
          regWrite s 4 (at_ + 0x08) x = setSession s n { v with
            cqBase := v.cqBase.extractLsb' 32 32 ++ (x &&& 0xFFFF_F000) } ∧
          regWrite s 4 (at_ + 0x0C) x = setSession s n { v with cqBase := x ++ v.cqBase.extractLsb' 0 32 } ∧
          regWrite s 4 (at_ + 0x10) x = setSession s n { v with
            cqImod := x.extractLsb' 16 16, cqLsize := x.extractLsb' 0 5 } ∧
          regWrite s 4 (at_ + 0x18) x = setSession s n { v with
            cqWb := v.cqWb.extractLsb' 32 32 ++ (x &&& 0xFFFF_FFF8) } ∧
          regWrite s 4 (at_ + 0x1C) x = setSession s n { v with cqWb := x ++ v.cqWb.extractLsb' 0 32 }) ∧
        (v.owner = none →
          regWrite s 4 (at_ + 0x08) x = setSession s n { v with
            cqBase := v.cqBase.extractLsb' 32 32 ++ (x &&& 0xFFFF_F000),
            liveBase := v.liveBase.extractLsb' 32 32 ++ (x &&& 0xFFFF_F000) } ∧
          regWrite s 4 (at_ + 0x0C) x = setSession s n { v with
            cqBase := x ++ v.cqBase.extractLsb' 0 32, liveBase := x ++ v.liveBase.extractLsb' 0 32 } ∧
          regWrite s 4 (at_ + 0x10) x = setSession s n { v with
            cqImod := x.extractLsb' 16 16, cqLsize := x.extractLsb' 0 5, liveImod := x.extractLsb' 16 16,
            liveLsize := x.extractLsb' 0 5 } ∧
          regWrite s 4 (at_ + 0x18) x = setSession s n { v with
            cqWb := v.cqWb.extractLsb' 32 32 ++ (x &&& 0xFFFF_FFF8),
            liveWb := v.liveWb.extractLsb' 32 32 ++ (x &&& 0xFFFF_FFF8) } ∧
          regWrite s 4 (at_ + 0x1C) x = setSession s n { v with
            cqWb := x ++ v.cqWb.extractLsb' 0 32, liveWb := x ++ v.liveWb.extractLsb' 0 32 })) ∧
      (rings → ∀ x : Word,
        exec (.pciCqHeadWrite n x) s = .next (setSession s n { v with cqHead := x.extractLsb' 6 18 }) ∧
        (x.toNat % 64 ≠ 0 → ∀ l : List (Nat × Byte), exec (.pciSqTailWrite n x l) s = .next { s with host := { s.host with
          rings := ringWrite s.host.rings n l, baddb := true } }) ∧
        (let head := v.sqHead.toNat
         let tail := field x 15 6
         let bs := memBytes 0 s.host.rings (n * 65536 + head * 64) ((tail - head) * 64)
         let f := frameOf bs
         let t := { v with sqTail := BitVec.ofNat 10 tail, sqHead := BitVec.ofNat 10 tail }
         x.toNat % 64 = 0 → head < tail → frFT f ≠ 0 → head + (32 + frCarried f + 63) / 64 = tail →
          (frCrc f ≠ wordAt f.h 7 → exec (.pciSqTailWrite n x []) s = .next { s with host := { s.host with
            sessions := tabSet s.host.sessions n t, crcerr := satAdd s.host.crcerr 1 } }) ∧
          (frCrc f = wordAt f.h 7 → frameOk f = true →
            exec (.pciSqTailWrite n x []) s = .next { s with host := { s.host with
              sessions := tabSet s.host.sessions n t, inbox := s.host.inbox ++ [⟨.pcie, f, s.tb⟩] } })) ∧
        (let head := v.sqHead.toNat
         let tail := field x 15 6
         let t := { v with sqTail := BitVec.ofNat 10 tail, sqHead := BitVec.ofNat 10 tail }
         let last := frameOf (memBytes 0 s.host.rings (n * 65536 + head * 64) ((1024 - head) * 64))
         let g := frameOf (memBytes 0 s.host.rings (n * 65536) (tail * 64))
         x.toNat % 64 = 0 → tail < head →
          (frFT last = 0 → frFT g ≠ 0 → (32 + frCarried g + 63) / 64 = tail → frCrc g = wordAt g.h 7 → frameOk g = true →
            exec (.pciSqTailWrite n x []) s = .next { s with host := { s.host with
              sessions := tabSet s.host.sessions n t, inbox := s.host.inbox ++ [⟨.pcie, g, s.tb⟩] } }) ∧
          (tail = 0 → frFT last = 0 → exec (.pciSqTailWrite n x []) s = .next { s with host := { s.host with
            sessions := tabSet s.host.sessions n t } }) ∧
          (tail = 0 → frFT last ≠ 0 → head + (32 + frCarried last + 63) / 64 = 1024 → frCrc last = wordAt last.h 7 →
            frameOk last = true → exec (.pciSqTailWrite n x []) s = .next { s with host := { s.host with
              sessions := tabSet s.host.sessions n t, inbox := s.host.inbox ++ [⟨.pcie, last, s.tb⟩] } }))) ∧
      (∀ f : Frame, frFT f = 3 → (maySend s f = true ↔
        ∀ e ∈ s.host.sessions, subscribed e.2 = true → evWaiting s e.1 ≤ evWaiting s (frSess f))) ∧
      (∀ o : OutFrame, v.toSend = [o] → maySend s o.f = false → exec (.cqFrameWrite n) s = .next s) ∧
      (rings → quiet → v.owner = some .pcie → 16 ≤ v.liveLsize.toNat → v.liveLsize.toNat ≤ 24 → ∀ o : OutFrame,
        v.toSend = [o] → maySend s o.f = true →
        let u := 2 ^ (v.liveLsize.toNat - 6)
        let k := (32 + o.f.data.length + 63) / 64
        let tail := v.cqTail % u
        let used := (v.cqTail + u - v.cqHead.toNat % u) % u
        (u ≤ used + k → exec (.cqFrameWrite n) s = .next s) ∧
        (u < tail + k → u ≤ used + (u - tail) + k → exec (.cqFrameWrite n) s = .next s) ∧
        (u < tail + k → used + (u - tail) + k < u →
          let w := { setSession s n { v with
              toSend := [], cqTail := k, imodRun := v.imodRun || decide (v.liveImod ≠ 0), msixDue := v.msixDue || v.imodRun } with
            outputs := [.cqTail n v.liveWb (k * 64), .cqFrame n v.liveBase (sealFrame s o.f),
              .cqPad n (v.liveBase + BitVec.ofNat 64 (tail * 64))] ++ s.outputs }
          ∃ t : State, exec (.cqFrameWrite n) s = .next t ∧
            t = { (if v.imodRun then w else signal w n) with faults := t.faults }) ∧
        (tail + k ≤ u → used + k < u →
          let w := { setSession s n { v with
              toSend := [], cqTail := (tail + k) % u, imodRun := v.imodRun || decide (v.liveImod ≠ 0),
              msixDue := v.msixDue || v.imodRun } with
            outputs := [.cqTail n v.liveWb ((tail + k) % u * 64),
              .cqFrame n (v.liveBase + BitVec.ofNat 64 (tail * 64)) (sealFrame s o.f)] ++ s.outputs }
          ∃ t : State, exec (.cqFrameWrite n) s = .next t ∧
            t = { (if v.imodRun then w else signal w n) with faults := t.faults })) ∧
      (rings → (∀ j : Fin 2, (mac s j).txq = []) → (∀ e ∈ s.host.sessions, subscribed e.2 = false) →
        ∀ (o : OutFrame) (j : Fin 2) (a : BitVec 48) (i : Option (BitVec 12)), v.owner = some (.eth j a i) → v.toSend = [o] →
          ∀ t : State, exec (.cqFrameWrite n) s = .next t → ∀ k : Nat, .msix k ∈ t.outputs → .msix k ∈ s.outputs) ∧
      (v.toSend = [] → exec (.cqFrameWrite n) s = .next s) ∧
      (v.imodRun = false → exec (.msixImodExpiry n) s = .next s) ∧
      (v.imodRun = true → v.msixDue = false ∨ onEthernet v = true →
        exec (.msixImodExpiry n) s = .next (setSession s n { v with imodRun := false, msixDue := false })) ∧
      (onEthernet v = true ↔ ∃ (j : Nat) (a : BitVec 48) (i : Option (BitVec 12)), v.owner = some (.eth j a i)) ∧
      (v.imodRun = true → v.msixDue = true → onEthernet v = false →
        exec (.msixImodExpiry n) s = .next (signal (setSession s n { v with msixDue := false }) n))) ∧
    (∀ x : Word, let k := field x 5 0
      (17 ≤ k → s.mstate ≠ .reset → s.mstate ≠ .safe →
        exec (.pciMsixSwWrite x) s = .next (signal s k)) ∧
      (k < 17 ∨ s.mstate = .reset ∨ s.mstate = .safe → exec (.pciMsixSwWrite x) s = .next s)) ∧
    (s.host.hbCtl = 0 ∨ s.mstate = .boot ∨ s.mstate = .safe ∨ s.mstate = .reset → exec .heartbeat s = .next s) ∧
    (∀ (n : Fin 16) (v : Session), s.host.sessions = [(n.val, v)] → v.owner = some .pcie → v.closing ≠ some none →
      (∀ m : Fin 2, (mac s m).txq = []) → s.mstate = .run ∨ s.mstate = .halt →
      let state := if s.mstate = .run then 2 else 3
      let beat := ofWords [s.tb.extractLsb' 0 32, s.tb.extractLsb' 32 32, w32 (state + if s.host.hbFresh then 0 else 8), s.host.hbWord,
        w32 (s.nld.isoChips.toNat * 65536 + s.nld.isoDies.toNat), 0, 0, 0]
      let frame := fun (ft kind : Nat) (q : Word) (bs : List Byte) =>
        (⟨⟨[w32 (ft * 2 ^ 28 + n.val * 2 ^ 24 + kind * 2 ^ 16 + bs.length), q, 0, 0, 0, 0, 0, 0], bs⟩, none⟩ : OutFrame)
      (s.host.hbCtl ≠ 0 → exec .heartbeat s = .next { s with host := { s.host with
        hbFresh := false
        sessions := [(n.val, if v.sub then { v with hbseq := v.hbseq + 1, toSend := v.toSend ++ [frame 4 0 v.hbseq beat] } else v)] } }) ∧
      (let w := s.host.evq
       let d := field w 10 9
       (w.getLsbD 31 = false ∨ v.sub = false ∨ eventAsked s = true ∨ diesJoined s 4 d = false ∨
          (∃ o ∈ v.toSend, frFT o.f = 3 ∧ frSess o.f = n) → exec .eventQueuePop s = .next s) ∧
       (w.getLsbD 31 = true → v.sub = true → diesJoined s 4 d = true → (∀ o ∈ v.toSend, frFT o.f ≠ 3) → eventAsked s = false →
        epOpen s (12 + d) = true → exec .eventQueuePop s = .next (linkAsk s (12 + d) {
          kind := 6, tryB := true, src := 0x401,
          addr := s.nld.chip.toNat * 2 ^ 45 + d * 2 ^ 41 + 0x600000000 + field w 6 0 * 0x200 } .eventQueue)) ∧
       (∀ (o : Outst) (bs : List Byte), o.who = .eventQueue →
        (∀ st : Nat, st ≠ 0 → askDone s o st bs = s) ∧
        (v.sub = true → s.faults.hostNext = s.faults.tail → s.faults.auto = false → 32 ≤ bs.length →
          askDone s o 0 bs = { s with host := { s.host with sessions := [(n.val, { v with
            evseq := v.evseq + 1, toSend := v.toSend ++ [frame 3 2 v.evseq (bs.drop (bs.length - 32))] })] } })))) ∧
    (eventAsked s = true ↔ ∃ p ∈ s.nld.parties, ∃ o ∈ p.2.outst, o.who = .eventQueue) ∧
    (∀ (k : Fin 64) (x : Word), s.host.pba.getLsbD k = true → x.getLsbD 0 = false →
      let u := { s with host := { s.host with
        msixTab := tabSet s.host.msixTab (4 * k.val + 3) (x &&& 1), pba := s.host.pba &&& ~~~(BitVec.ofNat 64 (2 ^ k.val)) } }
      (s.host.perst = true ∨ k.val < 16 ∧ onEthernet (session s k) = true → msixTabSet s (4 * k.val + 3) x = u) ∧
      (s.host.perst = false → 16 ≤ k.val ∨ onEthernet (session s k) = false →
        msixTabSet s (4 * k.val + 3) x = { u with outputs := .msix k :: s.outputs })) ∧
    (∀ k : PciCounter, s.mstate = .safe ∨ s.mstate = .reset → exec (.pciCounterRead k) s = .next s) ∧
    (s.host.perst = true → exec .pciePerst s = .next s ∧ exec .functionLevelReset s = .next s) ∧
    (s.host.perst = false → s.power.pulses = [] → exec .pciePerst s = .next (perstLow s)) ∧
    (s.host.perst = false → ∀ (ns : Nat) (rest : List Nat), s.power.pulses = ns :: rest →
      let u := { s with power := { s.power with pulses := rest } }
      (ns < 100 → exec .pciePerst s = .next u) ∧ (1000 ≤ ns → exec .pciePerst s = .next (perstLow u)) ∧
      (100 ≤ ns → ns < 1000 → exec .pciePerst s = .next { u with free := s.free + 1 } ∨
        exec .pciePerst s = .next (perstLow { u with free := s.free + 1 }))) ∧
    (s.host.perst = false →
      ∀ k ∈ [(Instr.pciePerst, true), (.functionLevelReset, false)], k.2 = false ∨ s.power.pulses = [] → ∃ t : State, exec k.1 s = .next t ∧
      t.host.perst = k.2 ∧ t.host.msixTab = [] ∧ t.host.pba = 0 ∧ t.mstate = s.mstate ∧ t.nld.isoChips = s.nld.isoChips ∧
      (∀ e ∈ t.host.inbox, e.ep ≠ .pcie) ∧
      ∀ n : Fin 16,
        ((session s n).owner = some .pcie → (session s n).outst = [] → (session s n).closing = none →
          (session t n).owner = none ∧ (session t n).cache = [] ∧ (session t n).sub = false) ∧
        (∀ o : HostReq, (session s n).owner = some .pcie → (session s n).outst = [o] → (session s n).closing = none →
          (∀ j ∈ [0x13, 0x14, 0x15, 0x20], field (wordAt o.f.h 0) 23 16 ≠ j) →
          (session t n).owner = some .pcie ∧ (session t n).outst = [o] ∧ (session t n).closing = some none) ∧
        (∀ (o : HostReq) (p : Nat) (q : Outst), (∀ m : Fin 16, m ≠ n → (session s m).owner ≠ some .pcie) →
          (session s n).owner = some .pcie → (session s n).outst = [o] → (session s n).closing = none → o.cancel = 0 →
          o.stalled = false → field (wordAt o.f.h 0) 23 16 = 0x13 ∨ field (wordAt o.f.h 0) 23 16 = 0x14 ∨
            field (wordAt o.f.h 0) 23 16 = 0x15 → partySlewed s p = false →
          heldBy s (.host n o.reqid) = false → findAsk s (.host n o.reqid) = some (p, q) → q.sent = false →
          (session t n).owner = some .pcie ∧ (session t n).outst = [{ o with cancel := 2 }] ∧
            (session t n).closing = some none ∧ (party t p).calledOff = (party s p).calledOff ++ [q.ask]) ∧
        ((session s n).owner ≠ some .pcie → (session t n).owner = (session s n).owner ∧ (session t n).cache = (session s n).cache)) ∧
    exec .pciePerstRelease s = .next { s with host := { s.host with perst := false } }

/-- 13 R302, R304, R324, R328. That an untagged frame is taken with VLAN = 1, that every tagged one is refused with VLAN = 0, what fills
the receive buffer, and when MDIO's data is written are log entry 33 (the model's choices). -/
def Obligations.Ethernet : Prop :=
  ∀ (s : State) (m : Fin 2),
    let v := mac s m
    let engine := s.mstate = .boot ∨ s.mstate = .run ∨ s.mstate = .halt
    let on := engine ∧ v.liveCfg.getLsbD 31 = true
    let quiet := hostOn s = false ∧ ∀ j : Fin 2, (mac s j).txq = []
    (∀ (f : EthFrame) (q : BitVec 16) (up : Bool) (sp : BitVec 3), ¬ on →
      exec (.ethFrameReceive m f) s = .next s ∧ exec (.ethPauseReceive m q) s = .next s ∧
        exec (.ethLinkChange m up sp) s = .next s) ∧
    (∀ f : EthFrame, on →
      let n := 14 + (if f.vlan.isSome then 4 else 0) + f.payload.length + 4
      let room := macFill s m + f.payload.length ≤ 196608
      let fine := 64 ≤ n ∧ n ≤ 9216 ∧ f.dst = v.liveMac ∧ f.dst.getLsbD 40 = false ∧ f.etype = v.liveEtype ∧
        (f.vlan = none ∨ v.liveCfg.getLsbD 12 = true ∧ f.vlan = some (v.liveCfg.extractLsb' 0 12))
      (v.link = false → exec (.ethFrameReceive m f) s = .next s) ∧
      (v.link = true → room →
        (f.fcsGood = false → exec (.ethFrameReceive m f) s = .next (setMac s m { v with fcserr := satAdd v.fcserr 1 })) ∧
        (f.fcsGood = true → ¬ fine → exec (.ethFrameReceive m f) s = .next (setMac s m { v with other := satAdd v.other 1 })) ∧
        (f.fcsGood = true → fine → 32 ≤ f.payload.length →
          let g := frameOf f.payload
          let s1 := setMac s m { v with rxok := satAdd v.rxok 1 }
          (frCrc g ≠ wordAt g.h 7 → exec (.ethFrameReceive m f) s = .next (pauseCheck { s1 with host := { s1.host with
            crcerr := satAdd s.host.crcerr 1 } } m)) ∧
          (frCrc g = wordAt g.h 7 → frameOk g = true →
            exec (.ethFrameReceive m f) s = .next (pauseCheck { s1 with host := { s1.host with
              inbox := s.host.inbox ++ [⟨.eth m f.src f.vlan, g, s.tb⟩] } } m)))) ∧
      (v.link = true → ¬ room → ∃ t : State, exec (.ethFrameReceive m f) s = .next t ∧ (mac t m).ovrn = satAdd v.ovrn 1 ∧
        t.host.inbox = s.host.inbox ∧ (mac t m).rxok = v.rxok)) ∧
    (let room := 196608 - macFill s m
     let told := fun (b : Bool) (q : BitVec 16) => ({ setMac s m { v with pauseSent := b } with
       outputs := .pause m q :: s.outputs } : State)
     (v.liveCfg.getLsbD 16 = true → v.pauseSent = false → room < 49152 → pauseCheck s m = told true 0xFFFF) ∧
     (v.pauseSent = true → 98304 ≤ room → pauseCheck s m = told false 0) ∧
     (v.liveCfg.getLsbD 16 = false ∨ 49152 ≤ room → v.pauseSent = false → pauseCheck s m = s) ∧
     (v.pauseSent = true → room < 98304 → pauseCheck s m = s)) ∧
    (∀ e : InFrame, engine → s.host.inbox = [e] → field (wordAt e.f.h 0) 23 16 = 3 →
      exec .ping s = .next (pauseCheck (pauseCheck (reply { s with host := { s.host with inbox := [] } } e.ep e.f 0 []) 0) 1)) ∧
    ((∀ e ∈ s.host.inbox, ∀ (a : BitVec 48) (k : Option (BitVec 12)), e.ep ≠ .eth m a k) → macFill s m = 0) ∧
    (∀ (e : InFrame) (l : List InFrame) (j : Nat) (a : BitVec 48) (k : Option (BitVec 12)), s.host.inbox = e :: l → e.ep = .eth j a k →
      macFill s m = macFill { s with host := { s.host with inbox := l } } m + if j = m.val then 32 + e.f.data.length else 0) ∧
    (on → quiet → ∀ q : BitVec 16,
      (v.liveCfg.getLsbD 16 = true → ∃ t : State, exec (.ethPauseReceive m q) s = .next t ∧
        t = { setMac s m { v with txHeld := decide (q ≠ 0) } with faults := t.faults }) ∧
      (v.liveCfg.getLsbD 16 = false → exec (.ethPauseReceive m q) s = .next s)) ∧
    (quiet → ∃ t : State, exec (.pauseTimerExpiry m) s = .next t ∧ t = { setMac s m { v with txHeld := false } with faults := t.faults }) ∧
    (on → quiet → ∀ (up : Bool) (sp : BitVec 3), ∃ t : State, exec (.ethLinkChange m up sp) s = .next t ∧
      t = { setMac s m { v with link := up, speed := if up then sp else v.speed } with faults := t.faults }) ∧
    (on → ∀ (q : BitVec 16) (o : (BitVec 48 × Option (BitVec 12)) × OutFrame), v.txq = [o] → v.link = true → v.liveCfg.getLsbD 16 = true → hostOn s = false →
      frFT o.2.f ≠ 3 → (∀ j : Fin 2, j ≠ m → (mac s j).txq = []) →
      (q ≠ 0 → ∃ t : State, exec (.ethPauseReceive m q) s = .next t ∧ (mac t m).txq = [o] ∧ t.outputs = s.outputs) ∧
      (q = 0 → ∃ t : State, exec (.ethPauseReceive m q) s = .next t ∧ (mac t m).txq = [] ∧
        t.outputs = .macFrame m o.1.1 v.liveMac o.1.2 v.liveEtype (sealFrame s o.2.f) :: s.outputs)) ∧
    (¬ engine ∨ v.link = true → exec (.ethLinkDownTimeout m) s = .next s) ∧
    (engine → v.link = false → ∀ (n : Fin 16) (a : BitVec 48) (k : Option (BitVec 12)), (session s n).owner = some (.eth m a k) →
      (session s n).outst = [] → (session s n).closing = none → (∀ o ∈ v.txq, frSess o.2.f = n ∧ o.1 = (a, k)) → s.faults.hostNext = s.faults.tail →
      ∃ t : State, exec (.ethLinkDownTimeout m) s = .next t ∧ (session t n).owner = none ∧ (session t n).cache = [] ∧
        (mac t m).txq = [] ∧ (mac t m).unsent = satAdd v.unsent v.txq.length) ∧
    (∀ x : Word,
      (s.mstate ≠ .reset → s.mstate ≠ .safe →
        let c := x &&& 0xF801_1FFF
        (x.getLsbD 31 = true → v.cfg.getLsbD 31 = false → exec (.ethEnable m x) s = .next (setMac s m { v with
          cfg := c, liveCfg := c, liveMac := v.mac, liveEtype := v.etype })) ∧
        (x.getLsbD 31 = true → v.cfg.getLsbD 31 = true → exec (.ethEnable m x) s = .next (setMac s m { v with cfg := c })) ∧
        (x.getLsbD 31 = false → exec (.ethEnable m x) s = .next (setMac s m { v with
          cfg := c, liveCfg := 0, link := false, txHeld := false, pauseSent := false })) ∧
        (v.mdio.getLsbD 31 = true → exec (.mdioFrame m x) s = .next (setMac s m { v with
          mdio := (x &&& 0xF3FF_FFFF) ||| 0x8000_0000 })) ∧
        (v.mdio.getLsbD 31 = false →
          let w := x &&& 0xF3FF_FFFF
          let s1 := setMac s m { v with mdio := w, mdioFrame := w }
          exec (.mdioFrame m x) s = .next { s1 with outputs := if x.getLsbD 31 then .mdio m w :: s.outputs else s.outputs })) ∧
      (s.mstate = .reset ∨ s.mstate = .safe → exec (.ethEnable m x) s = .next s ∧ exec (.mdioFrame m x) s = .next s)) ∧
    (∀ data : BitVec 16,
      (v.mdio.getLsbD 31 = false → exec (.mdioFrameEnd m data) s = .next s) ∧
      (v.mdio.getLsbD 31 = true →
        let op := field v.mdioFrame 29 28
        let reads := if v.mdioFrame.getLsbD 30 then 2 ≤ op else op = 2
        let w := v.mdio &&& 0x7FFF_FFFF
        (reads → exec (.mdioFrameEnd m data) s = .next (setMac s m { v with mdio := (w &&& 0xFFFF_0000) ||| data.setWidth 32 })) ∧
        (¬ reads → exec (.mdioFrameEnd m data) s = .next (setMac s m { v with mdio := w }))))

/-- 13 R305 to R308, R325; 10 R230. First the trigger of a receiver with any streams; then the packets of a receiver with one
stream, and that no stream sees another channel's packets. That the count of a FREE Bell on another chip is a free value, and what is
counted and written for a frame, is log entry 68; counts in a status word that stop at 0xFFFF are log entry 53; the idle level of the
trigger pin is log entry 69, and a receiver's number in an ADDR_ERROR record is log entry 34 (the model's choices). A line and a frame's status are requests over the link to the Vault. -/
def Obligations.CsiReceivers : Prop :=
  (∀ (s : State) (r : Fin 4) (v : CsiRx), csiRx s r = v →
    (v.live = none → exec (.csiTriggerPulse r) s = .next s) ∧
    trigPin s r = (if ((v.live.getD v.regs).trig).getLsbD 31 then .low else .high) ∧
    ∀ g : CsiRegs, v.live = some g →
      let gap := field g.tper 23 0 * 1000
      let due := ∀ t : Time, v.lastPulse = some t → gap ≤ (s.tb - t).toNat
      let late := ∃ t : Time, v.lastPulse = some t ∧ gap < (s.tb - t).toNat
      let name := fun (c : CsiStreamRegs) => field c.sbell 15 0
      let own := fun (c : CsiStreamRegs) => name c / 8192 = s.nld.chip.toNat
      let far := ∃ (k : Fin 4) (c : CsiStreamRegs), (csiStream v k).live = some c ∧ ¬ own c
      let free := ∀ (k : Fin 4) (c : CsiStreamRegs), (csiStream v k).live = some c →
        let x := csiStream v k
        let next := x.n + (if ∃ cur : CsiCur, x.cur = some cur ∧ cur.write = true then 1 else 0)
        let count := if own c then (bell s (name c / 512 % 16) (name c % 256)).count else Config.freeWord (s.free + k)
        nameBad s (name c) 8 = false ∧ targetIsolated s 4 (name c / 8192) (name c / 512 % 16) = false ∧
          (count - (w32 (next + x.pulses + 1) - w32 (field c.sslot 30 24))).toNat < 2 ^ 31
      let s1 := { s with free := s.free + if far then 4 else 0 }
      (s.mstate = .run → free → due → exec (.csiTriggerPulse r) s = .next { setCsiRx s1 r { v with
          lastPulse := some s.tb, late := if late then satAdd v.late 1 else v.late, streams := v.streams.map (fun e => (e.1,
            if e.2.live.isSome then { e.2 with pulses := e.2.pulses + 1 } else e.2)) } with
        outputs := .trigger r (g.trig.getLsbD 31) (field g.trig 23 16) :: s.outputs }) ∧
      (s.mstate ≠ .run ∨ ¬ free ∨ ¬ due → exec (.csiTriggerPulse r) s = .next s1)) ∧
  (∀ (s : State) (r k : Fin 4) (v : CsiRx) (x : Stream) (g : CsiRegs) (c : CsiStreamRegs),
    csiRx s r = v → v.streams = [(k.val, x)] → v.live = some g → x.live = some c →
    let put := fun (u : State) (y : Stream) => setCsiRx u r { v with streams := [(k.val, y)] }
    let d := field c.scfg 10 9
    let nslot := field c.sslot 30 24
    let slot := field c.sbase 24 6 * 64 + x.n % nslot * (field c.sslot 12 0 * 4096)
    let on := s.mstate = .boot ∨ s.mstate = .run ∨ s.mstate = .halt
    let reach := diesJoined s 4 d = true ∧ epOpen s (12 + d) = true
    let wr := fun (u : State) (o : Nat) (ready : Option Nat) (bs : List Byte) =>
      (pieces (slot + o) bs).foldl (fun t p => linkAsk t (12 + d) {
        kind := 2, src := 0x408 + r, addr := s.nld.chip.toNat * 2 ^ 45 + d * 2 ^ 41 + p.1, len := p.2.length, payload := p.2 }
          (.camera r k x.n ready)) u
    let inside := fun (h : CsiHeader) => h.ecc ≠ .bad ∧ h.vc.toNat = field c.scfg 27 24
    let begun := fun (h : CsiHeader) (b : Bool) =>
      (⟨b, w32 h.field.toNat, 0, 0, 0, if h.ecc = .corrected then 1 else 0, false, s.tb⟩ : CsiCur)
    (on → ∀ h : CsiHeader,
      (h.ecc = .bad → ∀ (ok : Bool) (bs : List Byte), let t := setCsiRx s r { v with eccerr := satAdd v.eccerr 1 }
        exec (.csiFrameStart r h) s = .next t ∧ exec (.csiLongPacket r h ok bs) s = .next t ∧
          exec (.csiFrameEnd r h) s = .next t) ∧
      (h.ecc ≠ .bad → h.vc.toNat ≠ field c.scfg 27 24 → ∀ (ok : Bool) (bs : List Byte),
        exec (.csiFrameStart r h) s = .next s ∧ exec (.csiLongPacket r h ok bs) s = .next s ∧
          exec (.csiFrameEnd r h) s = .next s) ∧
      (inside h → x.cur = none →
        (x.pulses = 0 → exec (.csiFrameStart r h) s = .next (setCsiRx s r { v with
          streams := [(k.val, { x with cur := some (begun h false) })], unsol := satAdd v.unsol 1 })) ∧
        (x.pulses ≠ 0 → exec (.csiFrameStart r h) s = .next (put s { x with
          cur := some (begun h true), pulses := x.pulses - 1 })) ∧
        exec (.csiFrameEnd r h) s = .next s ∧ exec (.csiFrameTimeout r k) s = .next s) ∧
      (∀ cur : CsiCur, inside h → x.cur = some cur →
        let listed := h.dt.toNat ∈ [0x12, 0x1E, 0x24, 0x2A, 0x2B, 0x2C, 0x2E] ∨ 0x30 ≤ h.dt.toNat ∧ h.dt.toNat ≤ 0x37
        (cur.write = false ∨ h.dt.toNat ≠ field c.scfg 21 16 ∨ ¬ listed → ∀ (ok : Bool) (bs : List Byte),
          exec (.csiLongPacket r h ok bs) s = .next s) ∧
        let ecc := cur.eccs + if h.ecc = .corrected then 1 else 0
        (cur.write = true → h.dt.toNat = field c.scfg 21 16 → listed → ∀ (ok : Bool) (bs : List Byte),
          let at_ := 64 + cur.line * (field c.slstr 17 6 * 64)
          let next := { cur with line := cur.line + 1, crcErrs := cur.crcErrs + if ok then 0 else 1, eccs := ecc }
          let u := put s { x with cur := some { next with lines := cur.lines + 1 } }
          (at_ + bs.length ≤ field c.sslot 12 0 * 4096 →
            (reach → exec (.csiLongPacket r h ok bs) s = .next (wr u at_ none bs)) ∧
            (¬ reach → exec (.csiLongPacket r h ok bs) s = .next u)) ∧
          (field c.sslot 12 0 * 4096 < at_ + bs.length →
            exec (.csiLongPacket r h ok bs) s = .next (put s { x with cur := some { next with oversize := true } }))) ∧
        (cur.write = false → exec (.csiFrameEnd r h) s = .next (put s { x with cur := none }) ∧
          (x.pulses = 0 → exec (.csiFrameStart r h) s = .next (setCsiRx s r { v with
            streams := [(k.val, { x with cur := some (begun h false) })], unsol := satAdd v.unsol 1 })) ∧
          (x.pulses ≠ 0 → exec (.csiFrameStart r h) s = .next (put s { x with
            cur := some (begun h true), pulses := x.pulses - 1 }))) ∧
        (cur.write = true → ∀ ended : Nat → Nat → State, (∀ flags eccs : Nat,
            let status := [cur.number, w32 cur.lines, w32 (min eccs 0xFFFF * 65536 + min cur.crcErrs 0xFFFF),
              w32 (flags + if cur.oversize then 1 else 0), cur.start.extractLsb' 0 32, cur.start.extractLsb' 32 32,
              s.tb.extractLsb' 0 32, s.tb.extractLsb' 32 32, 0, 0, 0, 0, 0, 0, 0, 0]
            let u := put s { x with cur := none, n := x.n + 1 }
            let name := some (field c.sbell 31 16)
            (reach → ended flags eccs = wr u 0 name (ofWords status)) ∧
            (¬ reach → ended flags eccs = cameraDone u r k x.n name)) →
          exec (.csiFrameEnd r h) s = .next (ended 0 ecc) ∧
          (field g.trig 7 0 * 1000000 ≤ (s.tb - cur.start).toNat →
            exec (.csiFrameTimeout r k) s = .next (ended 4 cur.eccs)) ∧
          ((s.tb - cur.start).toNat < field g.trig 7 0 * 1000000 → exec (.csiFrameTimeout r k) s = .next s) ∧
          (x.pulses = 0 → exec (.csiFrameStart r h) s = .next (setCsiRx (ended 2 cur.eccs) r { v with
            streams := [(k.val, { x with cur := some (begun h false), n := x.n + 1 })], unsol := satAdd v.unsol 1 })) ∧
          (x.pulses ≠ 0 → exec (.csiFrameStart r h) s = .next (setCsiRx (ended 2 cur.eccs) r { v with
            streams := [(k.val, { x with cur := some (begun h true), n := x.n + 1, pulses := x.pulses - 1 })] }))))) ∧
    (¬ on → ∀ (h : CsiHeader) (ok : Bool) (bs : List Byte), exec (.csiFrameStart r h) s = .next s ∧
      exec (.csiLongPacket r h ok bs) s = .next s ∧ exec (.csiFrameEnd r h) s = .next s ∧
      exec (.csiFrameTimeout r k) s = .next s) ∧
    (∀ w : Word,
      let regs := { v.regs with cfg := w &&& 0xF000_1FFF }
      (on → w.getLsbD 31 = true → v.regs.cfg.getLsbD 31 = false → exec (.csiEnable r w) s = .next (setCsiRx s r { v with
        regs := regs, live := some regs, lastPulse := none, streams := [(k.val, { x with
          live := if x.regs.scfg.getLsbD 31 then some x.regs else none, n := 0, pulses := 0, cur := none })] })) ∧
      (on → w.getLsbD 31 = true → v.regs.cfg.getLsbD 31 = true → exec (.csiEnable r w) s = .next (setCsiRx s r { v with regs := regs })) ∧
      (on → w.getLsbD 31 = false → exec (.csiEnable r w) s = .next (setCsiRx s r { v with regs := regs, live := none })) ∧
      (¬ on → exec (.csiEnable r w) s = .next s))) ∧
  (∀ (s : State) (o : Outst) (r k n st : Nat) (ready : Option Nat) (bs : List Byte), o.who = .camera r k n ready →
    (st ≠ 1 → st ≠ 2 → askDone s o st bs = cameraDone s r k n ready) ∧
    (st = 1 ∨ st = 2 → askDone s o st bs = cameraDone (addrError s (140 + r)
      (w32 (7 * 2 ^ 24 + s.nld.chip.toNat * 2 ^ 13 + 4 * 2 ^ 9 + (20 + r))) (w32 (0x408 + r)) (txnAddr o.txn)) r k n ready)) ∧
  (∀ (s : State) (r k n : Nat), cameraDone s r k n none = s ∧ ∀ w : Nat,
    ((∃ p ∈ s.nld.parties, ∃ o ∈ p.2.outst, o.who = .camera r k n none) → cameraDone s r k n (some w) = s) ∧
    ((∀ p ∈ s.nld.parties, ∀ o ∈ p.2.outst, o.who ≠ .camera r k n none) →
      cameraDone s r k n (some w) = addNamed s 4 (0x408 + r) w 1 .boot)) ∧
  (∀ (a i : Nat) (bs : List Byte), (pieces a bs).length = (bs.length + 4095) / 4096 ∧
    (4096 * i < bs.length → (pieces a bs)[i]? = some (a + 4096 * i, (bs.drop (4096 * i)).take 4096))) ∧
  (∀ (s t : State) (r k : Fin 4) (h : CsiHeader) (ok : Bool) (bs : List Byte) (c : CsiStreamRegs),
    (csiStream (csiRx s r) k).live = some c → h.vc.toNat ≠ field c.scfg 27 24 →
    exec (.csiFrameStart r h) s = .next t ∨ exec (.csiLongPacket r h ok bs) s = .next t ∨ exec (.csiFrameEnd r h) s = .next t →
    csiStream (csiRx t r) k = csiStream (csiRx s r) k)

/-- 14 R331 to R347; 10 R230. A ring's entries go over the link to its Vault. UART_WAKES counting the wakes from DEEP, FREE and AVAIL counted from their values at EN, Un_SCK through a
break, the CATCH limit in synchronous mode and the turn-around of IrDA are log entry 53; the pins that a port drives, from its first EN on
and by the configuration in force, are log entry 69; that EN = 1 written in HALT is stored and acts at RESUME is
log entry 57, a port's number in an ADDR_ERROR record log entry 34, and the list of pulse widths log entry 11 (the model's choices). -/
def Obligations.SerialPorts : Prop :=
  ∀ (s : State) (u : Fin 4),
    let v := uart s u
    let mode := field v.cfg 30 29
    let dbits := field v.cfg 27 24
    let par := field v.cfg 22 20
    let count := fun (name : Nat) => (bell s (name / 512 % 16) (name % 256)).count
    let free_ := fun (n : Nat) => (count (field v.rxbell 15 0) - v.freeFrom - (w32 (v.rxk + n) - w32 (2 ^ field v.rxring 29 26))).toNat
      < 2 ^ 31
    let slots := fun (ring : Word) => 2 ^ field ring 29 26
    let free := free_ 1
    let ready := (count (field v.txbell 31 16) - v.availFrom - w32 (v.txk + 1)).toNat < 2 ^ 31
    let adds := fun (t : State) (name : Nat) => addNamed t 4 (0x410 + u) name 1 .boot
    let misplaced := fun (o : Outst) => addrError s (144 + u.val)
      (w32 (7 * 2 ^ 24 + s.nld.chip.toNat * 2 ^ 13 + 4 * 2 ^ 9 + (24 + u.val))) (w32 (0x410 + u.val)) (txnAddr o.txn)
    let reach := fun (ring : Word) => diesJoined s 4 (field ring 31 30) = true ∧ epOpen s (12 + field ring 31 30) = true
    let asks := fun (t : State) (kind : Nat) (ring : Word) (k : Nat) (bs : List Byte) (who : Origin) =>
      linkAsk t (12 + field ring 31 30) {
        kind := kind, src := 0x410 + u, len := 2, payload := bs,
        addr := s.nld.chip.toNat * 2 ^ 45 + field ring 31 30 * 2 ^ 41 + (field ring 24 6 * 64 + 2 * (k % slots ring)) } who
    let takes := fun (e : BitVec 16) => asks (setUart s u { v with held := none, rxk := v.rxk + 1 }) 2 v.rxring v.rxk
      (natLe 2 e.toNat) (.serialIn u (field v.rxbell 31 16))
    let reads := fun (c : Instr) =>
      (v.txAsk = true ∨ ¬ reach v.txring → exec c s = .next s) ∧
      (v.txAsk = false → reach v.txring → exec c s = .next (asks (setUart s u { v with txAsk := true }) 1 v.txring v.txk []
        (.serialOut u v.gen)))
    let want := fun (data : Nat) =>
      let ones := ((upTo 9).filter (fun i => data.testBit i)).length
      if par = 1 then ones % 2 = 1 else if par = 2 then ones % 2 = 0 else par = 3
    (mode ≠ 2 → ∀ (bits : List Bool) (pulses : List (Nat × Nat)),
      rxLine v ⟨bits.flatMap (List.replicate (if v.cfg.getLsbD 28 then 8 else 16)), pulses⟩ = bits) ∧
    (mode = 2 → v.cfg.getLsbD 28 = false → 16 ≤ field v.baud 19 0 → ∀ (bits ticks : List Bool) (short : List (Nat × Nat)) (width : Nat),
      ticks.length = 16 * bits.length → 48 ≤ width → (∀ p ∈ short, p.2 < 48) →
      rxLine v ⟨ticks, ((upTo bits.length).filter (fun i => !bits.getD i true)).map (fun i => (i * field v.baud 19 0, width)) ++ short⟩
        = bits) ∧
    (∀ c : RxChar,
      let r := rxBits v c
      let fe := !r.stop
      let brk := decide (r.data = 0) && fe && (decide (par = 0) || !r.parity)
      let pe := decide (par ≠ 0) && decide (r.parity ≠ decide (want r.data))
      let e := r.data + 512 * b2n pe + 1024 * b2n fe + 2048 * b2n brk
      let next := { v with
        held := some (BitVec.ofNat 16 e), pe := satAdd v.pe (b2n pe), fe := satAdd v.fe (b2n fe), brk := satAdd v.brk (b2n brk),
        waitHigh := brk, idleFrom := s.tb, stopAt := none }
      let under := v.st = .active ∧ v.stopping = false ∨ ∃ t : Time, v.stopAt = some t ∧ (s.tb - t).toNat ≤ rxTime v c
      let quiet := v.txBusy = false ∧ ∀ t : Time, v.lastTx = some t → 100000 + rxTime v c ≤ (s.tb - t).toNat
      let looked := ∀ t : Time, v.hearFrom = some t → rxTime v c ≤ (s.tb - t).toNat
      let listens := under ∧ v.waitHigh = false ∧ v.waking = false ∧ looked ∧ (mode = 0 ∨ mode = 2 ∧ quiet)
      (¬ under ∨ mode = 1 ∨ v.waitHigh = true ∨ v.waking = true ∨ ¬ looked ∨ mode = 2 ∧ ¬ quiet →
        exec (.uartCharReceived u c) s = .next s) ∧
      (listens → r.start = true → exec (.uartCharReceived u c) s = .next (setUart s u { v with idleFrom := s.tb })) ∧
      (listens → r.start = false → rxWhole v c = false → exec (.uartCharReceived u c) s = .next s) ∧
      (listens → r.start = false → rxWhole v c = true →
        (v.held = none → exec (.uartCharReceived u c) s = .next (setUart s u next)) ∧
        (v.held ≠ none → ∃ t : State, exec (.uartCharReceived u c) s = .next t ∧
          (uart t u).held = some (BitVec.ofNat 16 (e + 4096)) ∧ (uart t u).ovrn = satAdd v.ovrn 1 ∧ (uart t u).rxk = v.rxk ∧
          (uart t u).waitHigh = brk))) ∧
    (s.mstate = .reset ∨ s.mstate = .boot ∨ s.mstate = .safe → sckPin s u = .pulledUp ∧ rtsPin s u = .pulledUp ∧
      txPin s u = if mode = 2 then .pulledDown else .pulledUp) ∧
    (v.driven = false → sckPin s u = .pulledUp ∧ rtsPin s u = .pulledUp ∧
      txPin s u = if mode = 2 then .pulledDown else .pulledUp) ∧
    (s.mstate = .run ∨ s.mstate = .halt → v.driven = true →
      let forced := field v.live.cfg 30 29
      (v.txBusy = false → txPin s u = (if forced = 2 then .low else .high)) ∧ (v.txBusy = true → txPin s u = .sending) ∧
      rtsPin s u = (if rtsHigh s (inForce v) then .high else .low) ∧
      (forced = 1 → sckPin s u = if v.live.cfg.getLsbD 15 then .high else .low) ∧ (forced ≠ 1 → sckPin s u = .pulledUp)) ∧
    (rtsHigh s v = true ↔ v.cfg.getLsbD 18 = true ∧ mode ≠ 1 ∧ (v.held ≠ none ∨ ¬ free_ 4)) ∧
    (oscillatorRuns s = true ↔ ∃ k : Fin 4, ((uart s k).cfg.getLsbD 31 = true ∨ (uart s k).stopping = true) ∧
      (uart s k).st = .active) ∧
    (∀ e : Nat,
      let frame := [false] ++ (upTo dbits).map (fun i => e.testBit i) ++
        (if par = 0 then [] else [decide (want (e % 2 ^ dbits))]) ++ (if v.cfg.getLsbD 19 then [true, true] else [true])
      let sent := if e.testBit 11 then List.replicate (frame.length + 1) false ++ [true] else frame
      let clock := v.cfg.getLsbD 15
      (mode ≠ 2 → txLine v e = sent) ∧
      (mode = 2 → txLine v e = sent.flatMap (fun x => List.replicate 3 (!x) ++ List.replicate 13 false)) ∧
      syncHalves v e = (if e.testBit 11 then List.replicate (dbits + 1) false ++ [true] else (upTo dbits).map (fun i => e.testBit i)).flatMap
        (fun x => [(!clock, x), (clock, x)])) ∧
    (v.held = none → exec (.uartRxEngineTake u) s = .next s) ∧
    (¬ free ∨ ¬ reach v.rxring → exec (.uartRxEngineTake u) s = .next s) ∧
    (∀ e : BitVec 16, v.held = some e → free → reach v.rxring → exec (.uartRxEngineTake u) s = .next (takes e)) ∧
    (∀ (o : Outst) (w : Nat) (bs : List Byte), o.who = .serialIn u w →
      askDone s o 0 bs = adds s w ∧ (∀ st : Nat, st ≠ 0 → st ≠ 1 → st ≠ 2 → askDone s o st bs = s) ∧
      ∀ st ∈ [1, 2], askDone s o st bs = misplaced o) ∧
    (∀ (o : Outst) (g st : Nat) (bs : List Byte), o.who = .serialOut u g → st = 1 ∨ st = 2 →
      askDone s o st bs = serialGot (misplaced o) u g st bs) ∧
    (∀ (o : Outst) (g st : Nat) (bs : List Byte), o.who = .serialOut u g → st ≠ 1 → st ≠ 2 →
      let raw := leNat (bs.take 2)
      let entry := BitVec.ofNat 16 (raw / 2 ^ 11 % 2 * 2 ^ 11 + raw % 2 ^ dbits)
      askDone s o st bs = if v.gen ≠ g then s else setUart s u { v with
        txAsk := false, txGot := if st = 0 then some entry else none }) ∧
    exec (.uartRxHighBitTime u) s = .next (setUart s u { v with
      waitHigh := false, idleFrom := s.tb, hearFrom := if v.waitHigh then some s.tb else v.hearFrom }) ∧
    (v.st ≠ .active ∨ v.stopping = true ∨ mode = 1 ∨ v.txBusy = true ∨ ¬ ready ∨ (v.cfg.getLsbD 18 = true ∧ v.ctsHigh = true) →
      exec (.uartTxChar u) s = .next s) ∧
    (v.st = .active → v.stopping = false → mode ≠ 1 → v.txBusy = false → ready → v.cfg.getLsbD 18 = false ∨ v.ctsHigh = false →
      (v.txGot = none → reads (.uartTxChar u)) ∧
      (∀ e : BitVec 16, v.txGot = some e → exec (.uartTxChar u) s = .next { setUart s u { v with
        txBusy := true, txGot := none } with outputs := .txChar u e (txLine v e.toNat) :: s.outputs })) ∧
    (v.txBusy = false → exec (.uartTxDone u) s = .next s) ∧
    (v.txBusy = true →
      let sent := setUart s u { v with txBusy := false, txk := v.txk + 1, lastTx := some s.tb }
      let done := adds sent (field v.live.txbell 15 0)
      let off := setUart done u { uart done u with st := .off, stopping := false }
      (v.stopping = false → exec (.uartTxDone u) s = .next (adds sent (field v.txbell 15 0))) ∧
      (v.stopping = true → (uart done u).enWait = false ∨ done.mstate ≠ .run → exec (.uartTxDone u) s = .next off) ∧
      (v.stopping = true → (uart done u).enWait = true → done.mstate = .run →
        exec (.uartTxDone u) s = .next (uartApply off u))) ∧
    (∀ high : Bool, s.power.pulses = [] → exec (.uartCtsChange u high) s = .next (setUart s u { v with ctsHigh := high })) ∧
    (∀ (high : Bool), ∀ c ∈ [(Instr.uartCtsChange u high, fun t => setUart t u { uart t u with ctsHigh := high }),
        (.uartWake u true, uartWoken u true)],
      (s.power.pulses = [] → exec c.1 s = .next (c.2 s)) ∧
      ∀ (ns : Nat) (rest : List Nat), s.power.pulses = ns :: rest →
        let behind := { s with power := { s.power with pulses := rest } }
        (ns < 2 → exec c.1 s = .next behind) ∧ (5 ≤ ns → exec c.1 s = .next (c.2 behind)) ∧
        (2 ≤ ns → ns < 5 → exec c.1 s = .next { behind with free := s.free + 1 } ∨
          exec c.1 s = .next (c.2 { behind with free := s.free + 1 }))) ∧
    (∀ data : BitVec 9,
      (v.st ≠ .active ∨ v.stopping = true ∨ mode ≠ 1 ∨ ¬ ready ∨ v.held ≠ none ∨ ¬ free → exec (.uartSyncChar u data) s = .next s) ∧
      (v.st = .active → v.stopping = false → mode = 1 → ready → v.held = none → free →
        (v.txGot = none → reads (.uartSyncChar u data)) ∧
        (∀ e : BitVec 16, v.txGot = some e → exec (.uartSyncChar u data) s = .next (adds { setUart s u { v with
            txk := v.txk + 1, txGot := none, held := some (BitVec.ofNat 16 (data.toNat % 2 ^ dbits)) } with
          outputs := .syncChar u e (syncHalves v e.toNat) :: s.outputs } (field v.txbell 15 0))))) ∧
    (let sleep := field v.cfg 17 16
     let idle := field v.wake 31 16 * 1000 ≤ (s.tb - v.idleFrom).toNat
     (v.st = .active → v.stopping = false → mode ≠ 1 → v.held = none → v.txBusy = false → v.waitHigh = false → v.waking = false → idle → ¬ ready →
      (sleep = 1 → exec (.uartSleepEntry u) s = .next (setUart s u { v with st := .catch_ })) ∧
      (sleep = 2 → exec (.uartSleepEntry u) s = .next (setUart s u { v with st := .deep }))) ∧
     (v.st ≠ .active ∨ v.stopping = true ∨ mode = 1 ∨ sleep = 0 ∨ sleep = 3 ∨ v.held ≠ none ∨ v.txBusy = true ∨ v.waitHigh = true ∨
        v.waking = true ∨ ¬ idle ∨ ready →
      exec (.uartSleepEntry u) s = .next s)) ∧
    (∀ byRx : Bool, byRx = true ∨ ready → byRx = false ∨ s.power.pulses = [] →
      (v.st = .catch_ → exec (.uartWake u byRx) s = .next (adds (setUart s u { v with
        st := .active, waking := false, idleFrom := if byRx then s.tb else v.idleFrom }) (field v.wake 15 0))) ∧
      (v.st = .deep → exec (.uartWake u byRx) s = .next (adds (setUart s u { v with
        st := .active, waking := byRx, wakes := satAdd v.wakes 1, idleFrom := if byRx then s.tb else v.idleFrom }) (field v.wake 15 0)))) ∧
    (v.st = .active ∨ v.st = .off → ∀ byRx : Bool, byRx = false ∨ s.power.pulses = [] → exec (.uartWake u byRx) s = .next s) ∧
    (∀ high : Bool,
      (v.waking = true → exec (.deepWakeReady u high) s = .next (setUart s u { v with
        waking := false, waitHigh := !high, idleFrom := s.tb, hearFrom := some s.tb })) ∧
      (v.waking = false → exec (.deepWakeReady u high) s = .next s)) ∧
    (∀ x : Word,
      let c := (x ||| 0x8000_0000) &&& 0xFF7F_8000
      let broken := field c 27 24 < 5 ∨ 9 < field c 27 24 ∨ 4 < field c 22 20 ∨ field c 30 29 = 3 ∨ field v.baud 19 0 < 16 ∨
        (field c 30 29 = 1 ∧ (field v.baud 19 0 % 16 ≠ 0 ∨ field v.baud 19 0 < 64)) ∨
        (field c 30 29 = 2 ∧ (c.getLsbD 28 = true ∨ 115200 * (16 * field v.baud 19 0) < 1536000000)) ∨
        (field c 17 16 = 1 ∧ 230400 * ((if field c 30 29 = 1 then 2 else if c.getLsbD 28 then 8 else 16) * field v.baud 19 0)
          < 1536000000) ∨
        (∃ ring ∈ [v.rxring, v.txring], field ring 29 26 < 6 ∨ field ring 24 6 * 64 + 2 * slots ring > 0x180_0000) ∨
        (∃ name ∈ [field v.rxbell 31 16, field v.rxbell 15 0, field v.txbell 31 16, field v.txbell 15 0, field v.wake 15 0],
          nameBad s name 8 = true ∨ name / 8192 ≠ s.nld.chip.toNat)
      (v.cfg.getLsbD 31 = true → exec (.uartEnable u x) s = .next s) ∧
      (v.cfg.getLsbD 31 = false → s.mstate = .boot ∨ s.mstate = .run ∧ v.stopping = true →
        exec (.uartEnable u x) s = .next (setUart s u { v with cfg := c, enWait := v.stopping })) ∧
      (v.cfg.getLsbD 31 = false → s.mstate = .halt →
        (broken → exec (.uartEnable u x) s = .next (setUart s u { v with
          cfg := c &&& 0x7FFF_FFFF, enWait := false, cfgerr := true })) ∧
        (¬ broken → exec (.uartEnable u x) s = .next (setUart s u { v with cfg := c, enWait := true, cfgerr := false }))) ∧
      (v.cfg.getLsbD 31 = false → s.mstate = .run → v.stopping = false →
        (broken → exec (.uartEnable u x) s = .next (setUart s u { v with
          cfg := c &&& 0x7FFF_FFFF, enWait := false, cfgerr := true })) ∧
        (¬ broken → exec (.uartEnable u x) s = .next (setUart s u { v with
          cfg := c, st := .active, cfgerr := false, held := none, rxk := 0, txk := 0, txBusy := false, waitHigh := false,
          waking := false, idleFrom := s.tb, driven := true, stopAt := none, txGot := none, txAsk := false, gen := v.gen + 1,
          stopping := false, enWait := false, hearFrom := some s.tb,
          live := ⟨c, v.baud, v.rxring, v.txring, v.rxbell, v.txbell, v.wake⟩, freeFrom := count (field v.rxbell 15 0),
          availFrom := count (field v.txbell 31 16) })))) ∧
    (regsUp s = false → (∀ x : Word, exec (.uartEnable u x) s = .next s) ∧ exec (.uartDisable u) s = .next s) ∧
    (∀ t : State, s.mstate = .halt → exec (.resumeAction 0xA5C30001) s = .next t → t.mstate = .run →
      (v.enWait = false ∨ v.stopping = true → uart t u = v) ∧
      (v.enWait = true → v.stopping = false → uartOk s v = true → (uart t u).st = .active ∧ (uart t u).enWait = false ∧
        (uart t u).rxk = 0 ∧ (uart t u).txk = 0 ∧ (uart t u).hearFrom = some s.tb ∧ (uart t u).live.cfg = v.cfg)) ∧
    (regsUp s = true → v.cfg.getLsbD 31 = true →
      let c := v.cfg &&& 0x7F7F_8000
      let stops := fun (x : Uart) => { x with
        cfg := c, st := if v.txBusy then v.st else .off, stopping := v.txBusy, enWait := false, waking := false, held := none,
        stopAt := none, txGot := none, txAsk := false, gen := v.gen + 1 }
      (v.st = .off → v.held = none → v.stopAt = none → exec (.uartDisable u) s = .next (setUart s u { v with cfg := c, enWait := false })) ∧
      (v.st ≠ .off ∨ v.stopAt ≠ none → v.held = none → exec (.uartDisable u) s = .next (setUart s u (stops v))) ∧
      (v.held ≠ none → ¬ free ∨ ¬ reach v.rxring → exec (.uartDisable u) s = .next (setUart s u (stops v))) ∧
      (∀ e : BitVec 16, v.held = some e → free → reach v.rxring →
        exec (.uartDisable u) s = .next (setUart (takes e) u (stops { v with rxk := v.rxk + 1 }))))

/-- 15 R350 to R369; 12 R291. Whether FUV is still present at a look is log entry 27; F isolated at once by F_RESET, staying in RSAFE
after its supply returns, and being reached only once its endpoints have come up are log entry 29; F keeping its reset safe state while
the machine is in RESET or BOOT, so that a cause then only stands in PEND, or as CMD is kept until the machine has left BOOT, is log entry
70; how H's report travels is log entry 82 and the list of pulse widths log entry 11 (the model's choices). -/
def Obligations.FieldDie : Prop :=
  ∀ s : State,
    let reached := fReached s = true
    let asked := fReached s = true ∧ regsUp s = true
    let boots := s.f.st = .rsafe ∧ (s.mstate = .reset ∨ s.mstate = .boot)
    let works := s.f.powered = true ∧ s.mstate ≠ .reset
    let met := s.f.lone = false
    let code := fun (m : MState) => match m with
      | .reset => 0
      | .boot => 1
      | .run => 2
      | .halt => 3
      | .safe => 4
    let taken := { s with f := { s.f with pend := s.f.pend &&& ~~~(8 : BitVec 6) } }
    let lives := fun (t : State) => t.f.st = .live ∧ t.f.cause = 0 ∧ t.f.wdFrom = s.tb ∧
      (∀ n : Fin 4, (ao t n).out = if (ao s n).en then (if 48000 < (ao s n).code.toNat then 48000 else (ao s n).code) else 0) ∧
      ∀ n : Fin 8, doOn (doCh t n) = (s.f.doCmd.getLsbD n && !(doCh t n).off && !(doCh s n).flt) ∧ (doCh t n).flt = (doCh s n).flt
    let safe := fun (t : State) (cause : BitVec 3) => t.f.st = .fsafe ∧ t.f.cause = cause ∧
      (∀ n : Fin 4, (ao t n).out = if !(ao s n).en then 0 else if (ao s n).safem = 0 then 0 else if (ao s n).safem = 1 then 7200
        else if (ao s n).safem = 2 then 42000 else (ao s n).out) ∧
      ∀ n : Fin 8, (doCh t n).flt = (doCh s n).flt ∧ ((doCh s n).flt = true → doOn (doCh t n) = false) ∧
        let k := field (s.f.doSafe.setWidth 32) (2 * n + 1) (2 * n)
        (doCh t n).on = (decide (k = 1) || (decide (k = 2) && (doCh s n).on))
    (fReached s = true ↔ s.f.powered = true ∧ s.mstate ≠ .reset ∧ diesJoined s 4 5 = true ∧ (endp s 16).wasUp = true ∧
      (endp s 21).wasUp = true) ∧
    (nextTxn (endp s 21) 12 = none → s.f.reports = [] → exec .mstateReport s = .next s) ∧
    (∀ (m : MState) (rest : List MState), nextTxn (endp s 21) 12 = none → s.f.reports = m :: rest →
      let body : List Word := [0xC0000000, BitVec.ofNat 32 (s.nld.chip.toNat * 8192 + 2048), 0,
        BitVec.ofNat 32 (s.nld.chip.toNat * 8192 + 2560), 0, BitVec.ofNat 32 (code m), 0, 0, 0, 0, 0, 0, 0, 0, 0, 0]
      (reached → exec .mstateReport s = .next { setEndp s 16 { endp s 16 with
        txq := (endp s 16).txq ++ [{ fk := 2, vc := 3, ptag := 0, body := body, ask := 0 }] } with f := { s.f with reports := rest } }) ∧
      (let cut := s.f.pend.getLsbD 3 = true ∧ s.f.st = .rsafe ∧ m ≠ .reset ∧ m ≠ .boot
       fReached s = false →
        (¬ cut → exec .mstateReport s = .next { s with f := { s.f with reports := rest } }) ∧
        (cut → works → met → ¬ boots → ∃ t : State, exec .mstateReport s = .next t ∧ t.f.reports = rest ∧ safe t 4))) ∧
    (∀ (m : MState) (x : Txn), nextTxn (endp s 21) 12 = some x → (wordAt x.hdr 5).toNat = code m →
      (s.f.powered = false → exec .mstateReport s = .next (takeTxn s 21 x)) ∧
      (s.f.powered = true → ∃ t : State, exec .mstateReport s = .next t ∧ t.f.reports = s.f.reports ∧ t.f.report = m ∧
        endp t 21 = endp (takeTxn s 21 x) 21 ∧
        (s.f.cmdDue = true → m ≠ .reset → m ≠ .boot → met → ¬ boots → s.f.st ≠ .fsafe → safe t 3) ∧
        (s.f.cmdDue = false → ¬ boots →
          (m = .run → s.f.st = .rsafe → s.f.pend &&& 0x3C = 0 → lives t) ∧
          (m = .run → s.f.st = .rsafe → s.f.pend.getLsbD 3 = true → met → safe t 4) ∧
          (m = .run → s.f.st = .rsafe → s.f.pend &&& 0x3C = 0x20 → met → lives t ∨ safe t 6) ∧
          (m = .run → s.f.st ≠ .rsafe → t.f.st = s.f.st) ∧
          (m = .halt → met → s.f.st ≠ .fsafe → safe t 1) ∧ (m = .safe → met → s.f.st ≠ .fsafe → safe t 2)) ∧
        (m = .reset ∨ m = .boot → t.f.st = s.f.st) ∧
        (m = .halt → met → t.f.pend.getLsbD 0 = true) ∧ (m = .safe → met → t.f.pend.getLsbD 1 = true) ∧
        (m = .halt ∨ m = .safe → ¬ met → t.f.st = s.f.st) ∧ t.f.pend.getLsbD 3 = s.f.pend.getLsbD 3 ∧
        (s.f.st = .fsafe → t.f.st = .fsafe ∧ t.f.cause = s.f.cause))) ∧
    (s.f.powered = true → exec .vfieldRise s = .next s) ∧
    (s.f.powered = false → exec .vfieldRise s = .next { s with f := { s.f with
        powered := true, lone := !diesJoined s 4 5,
        di := (upTo 8).map (fun n => (n, { diCh s n with changed := s.tb })) } } ∧ exec .fReset s = .next s) ∧
    (s.f.powered = true → ∃ t : State, exec .fReset s = .next t ∧ t.f.powered = false ∧ t.f.st = .rsafe ∧
      (s.mstate ≠ .reset → t.nld.isoDies.getLsbD 5 = true) ∧ (∀ n : Fin 4, (ao t n).out = 0) ∧
      ∀ n : Fin 8, doOn (doCh t n) = false) ∧
    (¬ met ∨ ¬ works → exec .fuvTimeout s = .next s ∧ exec .fLinkTimeout s = .next s) ∧
    (works → met → ∀ c ∈ [(Instr.fuvTimeout, (6 : BitVec 3), 5), (.fLinkTimeout, 4, 3)],
      (s.f.st ≠ .fsafe → ¬ boots → ∃ t : State, exec c.1 s = .next t ∧ safe t c.2.1 ∧ t.f.pend = s.f.pend ||| BitVec.ofNat 6 (2 ^ c.2.2)) ∧
      (s.f.st = .fsafe ∨ boots → exec c.1 s = .next { s with f := { s.f with pend := s.f.pend ||| BitVec.ofNat 6 (2 ^ c.2.2) } })) ∧
    (¬ asked → ∀ (n : Fin 4) (x : Word), exec .fioSafe s = .next s ∧ exec .fioRearm s = .next s ∧
      exec (.fioWdKick x) s = .next s ∧ exec (.fioWdWrite x) s = .next s ∧ exec (.aoCmdWrite n x) s = .next s ∧
      exec (.doCmdWrite x) s = .next s ∧ exec (.doFaultClear x) s = .next s) ∧
    (asked → met → s.f.st ≠ .fsafe → ¬ boots → ∃ t : State, exec .fioSafe s = .next t ∧ safe t 3 ∧ t.f.pend = taken.f.pend) ∧
    (asked → s.f.st = .fsafe ∨ ¬ met → exec .fioSafe s = .next taken) ∧
    (asked → met → boots → exec .fioSafe s = .next { taken with f := { taken.f with cmdDue := true } }) ∧
    (asked → s.f.st ≠ .fsafe → exec .fioRearm s = .next taken) ∧
    (asked → s.f.st = .fsafe → s.f.pend.getLsbD 5 = false →
      (s.f.report = .run → taken.f.pend = 0 → ∃ t : State, exec .fioRearm s = .next t ∧ lives t) ∧
      (s.f.report ≠ .run ∨ taken.f.pend ≠ 0 → exec .fioRearm s = .next taken)) ∧
    (let late := s.f.st = .live ∧ s.f.wd ≠ 0 ∧ s.f.wd.toNat * 1020000 ≤ (s.tb - s.f.wdFrom).toNat
     asked → ∀ x : Word,
      (¬ late → exec (.fioWdKick x) s = .next { taken with f := { taken.f with wdFrom := s.tb, wdLoose := false } } ∧
        exec (.fioWdWrite x) s = .next { taken with f := { taken.f with
          wd := x.extractLsb' 0 10, wdFrom := s.tb, wdLoose := false } }) ∧
      (late → met → (∃ t : State, exec (.fioWdKick x) s = .next t ∧ safe t 5 ∧ t.f.wdFrom = s.tb) ∧
        ∃ t : State, exec (.fioWdWrite x) s = .next t ∧ safe t 5 ∧ t.f.wd = x.extractLsb' 0 10)) ∧
    (let past := s.f.wdLoose = true ∨ s.refclk = false ∨ s.f.wd.toNat * 980000 ≤ (s.tb - s.f.wdFrom).toNat
     (s.f.st = .live → s.f.powered = true → met → s.f.wd ≠ 0 → past → ∃ t : State, exec .fioWdExpiry s = .next t ∧ safe t 5) ∧
     (s.f.st ≠ .live ∨ s.f.wd = 0 ∨ ¬ past → exec .fioWdExpiry s = .next s)) ∧
    (∀ n : Fin 4,
      let v := ao s n
      (asked → ∀ x : Word, let code := x.extractLsb' 0 16
        exec (.aoCmdWrite n x) s = .next (setAo taken n { v with
          code := code, out := if s.f.st ≠ .live then v.out else if !v.en then 0 else if 48000 < code.toNat then 48000 else code })) ∧
      (works → ∀ (c : BitVec 16) (h l : BitVec 12), exec (.aoMeasUpdate n c h l) s = .next (setAo s n { v with
        meas := c, vhead := h, vloop := l, loopuv := decide (l.toNat < 900) })) ∧
      (works → v.compliance = false → v.out ≠ 0 → ∃ t : State, exec (.aoComplianceSet n) s = .next t ∧
        t.f = (setAo s n { v with compliance := true }).f) ∧
      (v.compliance = true ∨ v.out = 0 → exec (.aoComplianceSet n) s = .next s) ∧
      exec (.aoComplianceClear n) s = .next (setAo s n { v with compliance := false }) ∧
      (works → v.openLoop = false → 2000 ≤ v.out.toNat → ∃ t : State, exec (.aoOpenSet n) s = .next t ∧
        t.f = (setAo s n { v with openLoop := true }).f) ∧
      (v.openLoop = true ∨ v.out.toNat < 2000 → exec (.aoOpenSet n) s = .next s) ∧
      exec (.aoOpenClear n) s = .next (setAo s n { v with openLoop := false })) ∧
    (asked → ∀ x : Word, ∃ t : State, exec (.doCmdWrite x) s = .next t ∧ t.f.doCmd = x.extractLsb' 0 8 ∧
      (s.f.st ≠ .live → t = { taken with f := { taken.f with doCmd := x.extractLsb' 0 8 } }) ∧
      (s.f.st = .live → ∀ n : Fin 8, (doCh t n).on = x.getLsbD n ∧ (doCh t n).flt = (doCh s n).flt ∧
        (x.getLsbD n = false → (doCh s n).on = true → (doCh t n).retry = 0))) ∧
    (∀ n : Fin 8,
      let v := doCh s n
      let on := v.on = true ∧ v.off = false ∧ v.flt = false
      (works → on → exec (.doOverload n) s = .next (setDoCh s n { v with limit := true }) ∧
        exec (.doOpenldSet n) s = .next (setDoCh s n { v with openld := true }) ∧
        (v.retry ≠ 8 → exec (.doLatchOff n) s = .next (setDoCh s n { v with off := true, limit := true, openld := false })) ∧
        (v.retry = 8 → ∃ t : State, exec (.doLatchOff n) s = .next t ∧
          t.f = (setDoCh s n { v with off := true, limit := true, openld := false, flt := true }).f)) ∧
      (¬ on → exec (.doOverload n) s = .next s ∧ exec (.doOpenldSet n) s = .next s ∧ exec (.doLatchOff n) s = .next s ∧
        exec (.doRetryReset n) s = .next s) ∧
      (works → v.on = true → v.off = true → v.flt = false →
        exec (.doRetry n) s = .next (setDoCh s n { v with off := false, retry := v.retry + 1, ext := false })) ∧
      (v.on = false ∨ v.off = false ∨ v.flt = true → exec (.doRetry n) s = .next s) ∧
      (on → v.retry ≠ 0 → exec (.doRetryReset n) s = .next (setDoCh s n { v with retry := 0, limit := false })) ∧
      exec (.doOpenldClear n) s = .next (setDoCh s n { v with openld := false }) ∧
      exec (.doExtDriveClear n) s = .next (setDoCh s n { v with ext := false }) ∧
      (works → ¬ on → v.ext = false → ∃ t : State, exec (.doExtDriveSet n) s = .next t ∧ t.f = (setDoCh s n { v with ext := true }).f) ∧
      (on ∨ v.ext = true → exec (.doExtDriveSet n) s = .next s) ∧
      (asked → ∀ x : Word, ∃ t : State, exec (.doFaultClear x) s = .next t ∧
        (x.getLsbD n = true → v.flt = true → doCh t n = { v with
          flt := false, off := false, limit := false, retry := 0, ext := v.ext && !v.on }) ∧
        (x.getLsbD n = false ∨ v.flt = false → doCh t n = v)) ∧
      (works →
        let c := diCh s n
        let k := if c.state then 8 + n.val else n.val
        let changed := { s with f := { s.f with
          di := tabSet s.f.di n { c with state := !c.state, changed := s.tb }, edge := s.f.edge ||| BitVec.ofNat 16 (2 ^ k),
          diLoose := s.f.diLoose &&& ~~~(BitVec.ofNat 8 (2 ^ n.val)) } }
        let filt := if c.filt = 0 then 1 else if 250 < c.filt.toNat then 250 else c.filt.toNat
        let settled := s.refclk = false ∨ s.f.diLoose.getLsbD n = true ∨ filt * 98000 ≤ (s.tb - c.changed).toNat
        (∀ (ns : Nat) (rest : List Nat), s.power.pulses = ns :: rest →
          let behind := { s with power := { s.power with pulses := rest } }
          (ns < 1000 → exec (.diFilteredChange n) s = .next behind) ∧
          (5000 ≤ ns → exec (.diFilteredChange n) s = .next (diChanged n behind)) ∧
          (1000 ≤ ns → ns < 5000 → exec (.diFilteredChange n) s = .next { behind with free := s.free + 1 } ∨
            exec (.diFilteredChange n) s = .next (diChanged n { behind with free := s.free + 1 }))) ∧
        (s.power.pulses = [] → exec (.diFilteredChange n) s = .next (diChanged n s)) ∧
        (¬ settled → diChanged n s = s) ∧ (settled →
        (s.f.evt.getLsbD k = false → diChanged n s = changed) ∧
        (s.f.evt.getLsbD k = true → field s.f.evt 31 16 / 8192 = s.nld.chip.toNat →
          diChanged n s = addNamed changed 5 0 (field s.f.evt 31 16) 1 .boot) ∧
        (s.f.evt.getLsbD k = true → field s.f.evt 31 16 / 8192 ≠ s.nld.chip.toNat →
          diChanged n s = changed))))

/-- 02 R46, R47, R51. `idleTick` is one edge of REFCLK_IN, the step of an empty queue (log entry 4). No command changes the time base
but its start and the entry to RESET. -/
def Obligations.StepKeepsTimeBase : Prop :=
  (∀ s t : State, s.tbOk = true → step s = .next t → t.tbOk = true) ∧
  (∀ s : State, s.tbStarted = true → s.refclk = true → s.mstate ≠ .reset → s.tb = 0 →
    ∀ n : Nat, (idleTick^[n] s).tb = BitVec.ofNat 64 (10 * (n % 1844674407370955162))) ∧
  (∃ s : State, s.tbOk = true ∧ (s.tb.extractLsb' 0 32).toNat % 10 ≠ 0) ∧
  (∀ (c : Instr) (s t : State), exec c s = .next t →
    t.tb = s.tb ∨ (c = .timeBaseStart ∧ s.tbStarted = false ∧ t.tb = 10) ∨ t.cameReset)

/-- What every step keeps: the canonical form of every memory, so that equal memories are equal data; no queue holds more than its ring
(09 R211); the fault log holds at most 256 records (17 R398); a Spire's windows (08 R180, R181); and the limit of programming tokens
(04 R94). -/
def Obligations.StepKeepsMemory : Prop :=
  (∀ s t : State, s.memOk = true → step s = .next t → t.memOk = true) ∧
  (∀ s t : State, s.queuesOk = true → step s = .next t → t.queuesOk = true) ∧
  (∀ s t : State, s.logOk = true → step s = .next t → t.logOk = true) ∧
  (∀ s t : State, s.windowsOk = true → step s = .next t → t.windowsOk = true) ∧
  (∀ s t : State, s.tokensOk = true → step s = .next t → t.tokensOk = true)
end

