-- ==== Sys2Proof/Laws/Mem.lean ====
section
/-! SUPPORT. The byte memory: what a read gives after a write, and that every operation keeps the canonical form. -/

namespace Sys2Proof.Machine

/-! ### Canonical form -/

theorem memWfFrom_mono (f : Byte) {lo hi : Nat} {m : Mem} (h : memWfFrom f hi m = true) (le : lo ≤ hi) :
    memWfFrom f lo m = true := by
  cases m with
  | nil => rfl
  | cons e t =>
    obtain ⟨b, v⟩ := e
    simp only [memWfFrom, Bool.and_eq_true, decide_eq_true_eq] at h ⊢
    exact ⟨⟨by omega, h.1.2⟩, h.2⟩

theorem memWrite_from (f : Byte) {m : Mem} {lo a : Nat} (v : Byte) (h : memWfFrom f lo m = true) (la : lo ≤ a) :
    memWfFrom f lo (memWrite f m a v) = true := by
  induction m generalizing lo with
  | nil => simp only [memWrite]; split <;> simp_all [memWfFrom]
  | cons e t ih =>
    obtain ⟨b, u⟩ := e
    simp only [memWfFrom, Bool.and_eq_true, decide_eq_true_eq] at h
    obtain ⟨⟨h1, h2⟩, h3⟩ := h
    simp only [memWrite]
    split
    · split
      · exact memWfFrom_mono f h3 (by omega)
      · rename_i hb hv; subst hb; simp [memWfFrom, h1, hv, h3]
    · split
      · split
        · simp [memWfFrom, h1, h2, h3]
        · rename_i _ hb hv; simp [memWfFrom, la, hv, h2, h3, Nat.succ_le_of_lt hb]
      · rename_i hn hl
        simp only [memWfFrom, Bool.and_eq_true, decide_eq_true_eq]
        exact ⟨⟨h1, h2⟩, ih h3 (by omega)⟩

/-- Writing a byte keeps the canonical form. -/
@[simp] theorem memWf_memWrite (f : Byte) {m : Mem} (a : Nat) (v : Byte) (h : memWf f m = true) :
    memWf f (memWrite f m a v) = true := memWrite_from f v h (Nat.zero_le a)

/-- Any list of cells put through `memNorm` is in canonical form. -/
@[simp] theorem memWf_memNorm (f : Byte) (m : Mem) : memWf f (memNorm f m) = true := by
  induction m with
  | nil => rfl
  | cons e t ih => obtain ⟨a, v⟩ := e; exact memWf_memWrite f a v ih

theorem memCells_from (f : Byte) (a : Nat) (bs : List Byte) : memWfFrom f a (memCells f a bs) = true := by
  induction bs generalizing a with
  | nil => rfl
  | cons b bs ih =>
    simp only [memCells]
    split
    · exact memWfFrom_mono f (ih (a + 1)) (by omega)
    · rename_i h; simp [memWfFrom, h, ih]

theorem memCells_lt (f : Byte) (a : Nat) (bs : List Byte) : ∀ c ∈ memCells f a bs, c.1 < a + bs.length := by
  induction bs generalizing a with
  | nil => simp [memCells]
  | cons b bs ih =>
    intro c hc
    simp only [memCells] at hc
    have := ih (a + 1)
    simp only [List.length_cons]
    split at hc
    · have := this c hc; omega
    · simp only [List.mem_cons] at hc
      rcases hc with rfl | hc
      · simp
      · have := this c hc; omega

theorem memWfFrom_append (f : Byte) {l r : Mem} {lo mid : Nat} (hl : memWfFrom f lo l = true)
    (hr : memWfFrom f mid r = true) (lt : ∀ c ∈ l, c.1 < mid) (le : lo ≤ mid) : memWfFrom f lo (l ++ r) = true := by
  induction l generalizing lo with
  | nil => exact memWfFrom_mono f hr le
  | cons e t ih =>
    obtain ⟨b, v⟩ := e
    simp only [memWfFrom, Bool.and_eq_true, decide_eq_true_eq, List.cons_append] at hl ⊢
    have : b < mid := lt (b, v) (by simp)
    exact ⟨hl.1, ih hl.2 (fun c hc => lt c (by simp [hc])) (by omega)⟩

theorem memWfFrom_filter (f : Byte) {m : Mem} {lo : Nat} (p : Host.Cell → Bool) (h : memWfFrom f lo m = true) :
    memWfFrom f lo (m.filter p) = true := by
  induction m generalizing lo with
  | nil => rfl
  | cons e t ih =>
    obtain ⟨b, v⟩ := e
    simp only [memWfFrom, Bool.and_eq_true, decide_eq_true_eq] at h
    simp only [List.filter_cons]
    split
    · simp only [memWfFrom, Bool.and_eq_true, decide_eq_true_eq]; exact ⟨h.1, ih h.2⟩
    · exact memWfFrom_mono f (ih h.2) (by omega)

/-- Dropping cells keeps the canonical form. -/
theorem memWf_filter (f : Byte) {m : Mem} (p : Host.Cell → Bool) (h : memWf f m = true) : memWf f (m.filter p) = true :=
  memWfFrom_filter f p h

theorem memFrom_from (f : Byte) {m : Mem} {lo : Nat} (a : Nat) (h : memWfFrom f lo m = true) :
    memWfFrom f a (memFrom m a) = true := by
  induction m generalizing lo with
  | nil => rfl
  | cons e t ih =>
    obtain ⟨b, v⟩ := e
    simp only [memWfFrom, Bool.and_eq_true, decide_eq_true_eq] at h
    simp only [memFrom, List.filter_cons]
    split
    · rename_i hb
      simp only [decide_eq_true_eq] at hb
      simp only [memWfFrom, Bool.and_eq_true, decide_eq_true_eq]
      exact ⟨⟨hb, h.1.2⟩, memWfFrom_filter f _ h.2⟩
    · exact ih h.2

/-- Writing bytes keeps the canonical form. -/
@[simp] theorem memWf_memPut (f : Byte) {m : Mem} (a : Nat) (bs : List Byte) (h : memWf f m = true) :
    memWf f (memPut f m a bs) = true := by
  unfold memPut memWf
  rw [List.append_assoc]
  refine memWfFrom_append f (mid := a) (memWfFrom_filter f _ h) ?_ ?_ (Nat.zero_le _)
  · exact memWfFrom_append f (memCells_from f a bs) (memFrom_from f (a + bs.length) h) (memCells_lt f a bs) (by omega)
  · intro c hc; simp [memBelow] at hc; exact hc.2

@[simp] theorem memWf_putCells (m : Mem) (cs : List (Nat × Byte)) (h : memWf flashFill m = true) :
    memWf flashFill (putCells m cs) = true := by
  induction cs generalizing m with
  | nil => exact h
  | cons c cs ih => exact ih _ (memWf_memWrite flashFill c.1 c.2 h)

@[simp] theorem memWf_ringWrite (m : Mem) (n : Nat) (ws : List (Nat × Byte)) (h : memWf 0 m = true) :
    memWf 0 (ringWrite m n ws) = true := by
  induction ws generalizing m with
  | nil => exact h
  | cons c cs ih => exact ih _ (memWf_memWrite 0 _ _ h)

/-! ### LPDDR -/

theorem memRises_mono {lo hi : Nat} {m : Mem} (h : memRises hi m = true) (le : lo ≤ hi) : memRises lo m = true := by
  cases m with
  | nil => rfl
  | cons e t =>
    obtain ⟨b, v⟩ := e
    simp only [memRises, Bool.and_eq_true, decide_eq_true_eq] at h ⊢
    exact ⟨by omega, h.2⟩

theorem memList_rises {m : Mem} {lo a : Nat} (v : Byte) (h : memRises lo m = true) (la : lo ≤ a) :
    memRises lo (memList m a v) = true := by
  induction m generalizing lo with
  | nil => simp [memList, memRises, la]
  | cons e t ih =>
    obtain ⟨b, u⟩ := e
    simp only [memRises, Bool.and_eq_true, decide_eq_true_eq] at h
    simp only [memList]
    split
    · rename_i hb; subst hb; simp [memRises, h]
    · split
      · rename_i _ hb; simp [memRises, la, Nat.succ_le_of_lt hb, h]
      · simp only [memRises, Bool.and_eq_true, decide_eq_true_eq]; exact ⟨h.1, ih h.2 (by omega)⟩

/-- Listing bytes keeps the LPDDR addresses rising. -/
@[simp] theorem memRises_lpPut (m : Mem) (a : Nat) (bs : List Byte) (h : memRises 0 m = true) :
    memRises 0 (lpPut m a bs) = true := by
  induction bs generalizing m a with
  | nil => exact h
  | cons b bs ih => exact ih _ _ (memList_rises b h (Nat.zero_le a))

/-! ### Read after write -/

theorem memRead_low (f : Byte) {m : Mem} {lo a : Nat} (h : memWfFrom f lo m = true) (la : a < lo) : memRead f m a = f := by
  cases m with
  | nil => rfl
  | cons e t =>
    obtain ⟨b, v⟩ := e
    simp only [memWfFrom, Bool.and_eq_true, decide_eq_true_eq] at h
    simp only [memRead, show ¬ b = a by omega, show a < b by omega, if_true, if_false]

/-- A byte read back, and every other byte as it was. -/
theorem memRead_memWrite (f : Byte) {m : Mem} {lo : Nat} (a b : Nat) (v : Byte) (h : memWfFrom f lo m = true) :
    memRead f (memWrite f m a v) b = if b = a then v else memRead f m b := by
  induction m generalizing lo with
  | nil => simp only [memWrite, memRead]; split <;> split <;> simp_all [memRead] <;> omega
  | cons e t ih =>
    obtain ⟨c, u⟩ := e
    simp only [memWfFrom, Bool.and_eq_true, decide_eq_true_eq] at h
    obtain ⟨⟨h1, h2⟩, h3⟩ := h
    have low : ∀ x, x < c + 1 → memRead f t x = f := fun x hx => memRead_low f h3 hx
    simp only [memWrite]
    split
    · subst a
      split
      · subst v
        simp only [memRead]
        split
        · subst b; simp [low c (by omega)]
        · rename_i hb
          have : ¬ c = b := fun e => hb e.symm
          simp only [this, if_false]
          split
          · rename_i hl; exact low b (by omega)
          · rfl
      · simp only [memRead]
        split
        · subst b; simp
        · rename_i hb
          simp only [show ¬ b = c from fun e => hb e.symm, if_false]
    · split
      · split
        · subst v
          rename_i _ hl
          split
          · subst b; simp [memRead, show ¬ c = a by omega, hl]
          · rfl
        · rename_i hl _
          simp only [memRead]
          split
          · subst b; simp
          · rename_i hb
            simp only [show ¬ b = a from fun e => hb e.symm, if_false]
            split
            · rename_i hl2
              simp only [show ¬ c = b by omega, show b < c by omega, if_true, if_false]
            · rfl
      · simp only [memRead]
        split
        · subst b; simp only [show ¬ c = a by omega, if_false]
        · split
          · rename_i hl
            simp only [show ¬ b = a by omega, if_false]
          · exact ih h3

end Sys2Proof.Machine
end

