-- ==== Sys2Proof/Laws/Tab.lean ====
section
/-! SUPPORT. Reading a collection of units after a unit has been replaced. -/

namespace Sys2Proof.Machine

variable {α : Type} (d : α)

@[simp] theorem tabGet_tabSet_same (t : Tab α) (k : Nat) (v : α) : tabGet d (tabSet t k v) k = v := by
  induction t with
  | nil => simp [tabSet, tabGet]
  | cons e t ih =>
    obtain ⟨j, u⟩ := e
    simp only [tabSet]
    split
    · simp [tabGet]
    · split
      · simp [tabGet]
      · rename_i h _; simp [tabGet, Ne.symm h, ih]

theorem tabGet_tabSet_ne (t : Tab α) {k q : Nat} (v : α) (h : q ≠ k) : tabGet d (tabSet t k v) q = tabGet d t q := by
  induction t with
  | nil => simp [tabSet, tabGet, Ne.symm h]
  | cons e t ih =>
    obtain ⟨j, u⟩ := e
    simp only [tabSet]
    split
    · rename_i hj; simp [tabGet, Ne.symm h, ← hj]
    · split
      · simp [tabGet, Ne.symm h]
      · simp [tabGet, ih]

theorem tabGet_tabSet (t : Tab α) (k q : Nat) (v : α) :
    tabGet d (tabSet t k v) q = if q = k then v else tabGet d t q := by
  split
  · rename_i h; subst h; simp
  · rename_i h; exact tabGet_tabSet_ne d t v h

/-- A later replacement of the same unit hides the earlier one. -/
@[simp] theorem tabSet_tabSet_same (t : Tab α) (k : Nat) (u v : α) : tabSet (tabSet t k u) k v = tabSet t k v := by
  induction t with
  | nil => simp [tabSet]
  | cons e t ih =>
    obtain ⟨j, w⟩ := e
    simp only [tabSet]
    split
    · simp [tabSet]
    · split
      · simp [tabSet]
      · rename_i h1 h2; simp [tabSet, h1, h2, ih]

end Sys2Proof.Machine
end

