-- ==== Sys2Proof/Laws/State.lean ====
section
/-! SUPPORT. What the named updates of the state leave as it was, and what reads see of them: each lemma is one field of
one update, so that no proof unfolds a record update. -/

namespace Sys2Proof.Machine

variable (s : State)

/-! ### output -/

@[simp] theorem output_pending (o : Output) : (output s o).pending = s.pending := rfl
@[simp] theorem output_free (o : Output) : (output s o).free = s.free := rfl
@[simp] theorem output_mstate (o : Output) : (output s o).mstate = s.mstate := rfl
@[simp] theorem output_tb (o : Output) : (output s o).tb = s.tb := rfl
@[simp] theorem output_tbStarted (o : Output) : (output s o).tbStarted = s.tbStarted := rfl
@[simp] theorem output_refclk (o : Output) : (output s o).refclk = s.refclk := rfl
@[simp] theorem output_c0 (o : Output) : (output s o).c0 = s.c0 := rfl
@[simp] theorem output_c1 (o : Output) : (output s o).c1 = s.c1 := rfl
@[simp] theorem output_c2 (o : Output) : (output s o).c2 = s.c2 := rfl
@[simp] theorem output_c3 (o : Output) : (output s o).c3 = s.c3 := rfl
@[simp] theorem output_hsys (o : Output) : (output s o).hsys = s.hsys := rfl
@[simp] theorem output_shadows (o : Output) : (output s o).shadows = s.shadows := rfl
@[simp] theorem output_tokenWait (o : Output) : (output s o).tokenWait = s.tokenWait := rfl
@[simp] theorem output_tokenHeld (o : Output) : (output s o).tokenHeld = s.tokenHeld := rfl
@[simp] theorem output_nld (o : Output) : (output s o).nld = s.nld := rfl
@[simp] theorem output_mem (o : Output) : (output s o).mem = s.mem := rfl
@[simp] theorem output_flash (o : Output) : (output s o).flash = s.flash := rfl
@[simp] theorem output_flashDev (o : Output) : (output s o).flashDev = s.flashDev := rfl
@[simp] theorem output_otp (o : Output) : (output s o).otp = s.otp := rfl
@[simp] theorem output_boot (o : Output) : (output s o).boot = s.boot := rfl
@[simp] theorem output_host (o : Output) : (output s o).host = s.host := rfl
@[simp] theorem output_uarts (o : Output) : (output s o).uarts = s.uarts := rfl
@[simp] theorem output_f (o : Output) : (output s o).f = s.f := rfl
@[simp] theorem output_power (o : Output) : (output s o).power = s.power := rfl
@[simp] theorem output_faults (o : Output) : (output s o).faults = s.faults := rfl
@[simp] theorem output_cd (o : Output) (d : Nat) : cd (output s o) d = cd s d := rfl

/-! ### setMover -/

@[simp] theorem setMover_pending (m : Nat) (v : Mover) : (setMover s m v).pending = s.pending := rfl
@[simp] theorem setMover_free (m : Nat) (v : Mover) : (setMover s m v).free = s.free := rfl
@[simp] theorem setMover_outputs (m : Nat) (v : Mover) : (setMover s m v).outputs = s.outputs := rfl
@[simp] theorem setMover_mstate (m : Nat) (v : Mover) : (setMover s m v).mstate = s.mstate := rfl
@[simp] theorem setMover_tb (m : Nat) (v : Mover) : (setMover s m v).tb = s.tb := rfl
@[simp] theorem setMover_tbStarted (m : Nat) (v : Mover) : (setMover s m v).tbStarted = s.tbStarted := rfl
@[simp] theorem setMover_refclk (m : Nat) (v : Mover) : (setMover s m v).refclk = s.refclk := rfl
@[simp] theorem setMover_c0 (m : Nat) (v : Mover) : (setMover s m v).c0 = s.c0 := rfl
@[simp] theorem setMover_c1 (m : Nat) (v : Mover) : (setMover s m v).c1 = s.c1 := rfl
@[simp] theorem setMover_c2 (m : Nat) (v : Mover) : (setMover s m v).c2 = s.c2 := rfl
@[simp] theorem setMover_c3 (m : Nat) (v : Mover) : (setMover s m v).c3 = s.c3 := rfl
@[simp] theorem setMover_hsys (m : Nat) (v : Mover) : (setMover s m v).hsys = s.hsys := rfl
@[simp] theorem setMover_shadows (m : Nat) (v : Mover) : (setMover s m v).shadows = s.shadows := rfl
@[simp] theorem setMover_tokenWait (m : Nat) (v : Mover) : (setMover s m v).tokenWait = s.tokenWait := rfl
@[simp] theorem setMover_tokenHeld (m : Nat) (v : Mover) : (setMover s m v).tokenHeld = s.tokenHeld := rfl
@[simp] theorem setMover_nld (m : Nat) (v : Mover) : (setMover s m v).nld = s.nld := rfl
@[simp] theorem setMover_flash (m : Nat) (v : Mover) : (setMover s m v).flash = s.flash := rfl
@[simp] theorem setMover_flashDev (m : Nat) (v : Mover) : (setMover s m v).flashDev = s.flashDev := rfl
@[simp] theorem setMover_otp (m : Nat) (v : Mover) : (setMover s m v).otp = s.otp := rfl
@[simp] theorem setMover_boot (m : Nat) (v : Mover) : (setMover s m v).boot = s.boot := rfl
@[simp] theorem setMover_host (m : Nat) (v : Mover) : (setMover s m v).host = s.host := rfl
@[simp] theorem setMover_uarts (m : Nat) (v : Mover) : (setMover s m v).uarts = s.uarts := rfl
@[simp] theorem setMover_f (m : Nat) (v : Mover) : (setMover s m v).f = s.f := rfl
@[simp] theorem setMover_power (m : Nat) (v : Mover) : (setMover s m v).power = s.power := rfl
@[simp] theorem setMover_faults (m : Nat) (v : Mover) : (setMover s m v).faults = s.faults := rfl
@[simp] theorem setMover_cd (m : Nat) (v : Mover) (d : Nat) : cd (setMover s m v) d = cd s d := rfl

/-! ### setSession -/

@[simp] theorem setSession_pending (n : Nat) (v : Session) : (setSession s n v).pending = s.pending := rfl
@[simp] theorem setSession_free (n : Nat) (v : Session) : (setSession s n v).free = s.free := rfl
@[simp] theorem setSession_outputs (n : Nat) (v : Session) : (setSession s n v).outputs = s.outputs := rfl
@[simp] theorem setSession_mstate (n : Nat) (v : Session) : (setSession s n v).mstate = s.mstate := rfl
@[simp] theorem setSession_tb (n : Nat) (v : Session) : (setSession s n v).tb = s.tb := rfl
@[simp] theorem setSession_tbStarted (n : Nat) (v : Session) : (setSession s n v).tbStarted = s.tbStarted := rfl
@[simp] theorem setSession_refclk (n : Nat) (v : Session) : (setSession s n v).refclk = s.refclk := rfl
@[simp] theorem setSession_c0 (n : Nat) (v : Session) : (setSession s n v).c0 = s.c0 := rfl
@[simp] theorem setSession_c1 (n : Nat) (v : Session) : (setSession s n v).c1 = s.c1 := rfl
@[simp] theorem setSession_c2 (n : Nat) (v : Session) : (setSession s n v).c2 = s.c2 := rfl
@[simp] theorem setSession_c3 (n : Nat) (v : Session) : (setSession s n v).c3 = s.c3 := rfl
@[simp] theorem setSession_hsys (n : Nat) (v : Session) : (setSession s n v).hsys = s.hsys := rfl
@[simp] theorem setSession_shadows (n : Nat) (v : Session) : (setSession s n v).shadows = s.shadows := rfl
@[simp] theorem setSession_tokenWait (n : Nat) (v : Session) : (setSession s n v).tokenWait = s.tokenWait := rfl
@[simp] theorem setSession_tokenHeld (n : Nat) (v : Session) : (setSession s n v).tokenHeld = s.tokenHeld := rfl
@[simp] theorem setSession_nld (n : Nat) (v : Session) : (setSession s n v).nld = s.nld := rfl
@[simp] theorem setSession_mem (n : Nat) (v : Session) : (setSession s n v).mem = s.mem := rfl
@[simp] theorem setSession_flash (n : Nat) (v : Session) : (setSession s n v).flash = s.flash := rfl
@[simp] theorem setSession_flashDev (n : Nat) (v : Session) : (setSession s n v).flashDev = s.flashDev := rfl
@[simp] theorem setSession_otp (n : Nat) (v : Session) : (setSession s n v).otp = s.otp := rfl
@[simp] theorem setSession_boot (n : Nat) (v : Session) : (setSession s n v).boot = s.boot := rfl
@[simp] theorem setSession_uarts (n : Nat) (v : Session) : (setSession s n v).uarts = s.uarts := rfl
@[simp] theorem setSession_f (n : Nat) (v : Session) : (setSession s n v).f = s.f := rfl
@[simp] theorem setSession_power (n : Nat) (v : Session) : (setSession s n v).power = s.power := rfl
@[simp] theorem setSession_faults (n : Nat) (v : Session) : (setSession s n v).faults = s.faults := rfl
@[simp] theorem setSession_cd (n : Nat) (v : Session) (d : Nat) : cd (setSession s n v) d = cd s d := rfl

/-! ### setMac -/

@[simp] theorem setMac_pending (n : Nat) (v : Mac) : (setMac s n v).pending = s.pending := rfl
@[simp] theorem setMac_free (n : Nat) (v : Mac) : (setMac s n v).free = s.free := rfl
@[simp] theorem setMac_outputs (n : Nat) (v : Mac) : (setMac s n v).outputs = s.outputs := rfl
@[simp] theorem setMac_mstate (n : Nat) (v : Mac) : (setMac s n v).mstate = s.mstate := rfl
@[simp] theorem setMac_tb (n : Nat) (v : Mac) : (setMac s n v).tb = s.tb := rfl
@[simp] theorem setMac_tbStarted (n : Nat) (v : Mac) : (setMac s n v).tbStarted = s.tbStarted := rfl
@[simp] theorem setMac_refclk (n : Nat) (v : Mac) : (setMac s n v).refclk = s.refclk := rfl
@[simp] theorem setMac_c0 (n : Nat) (v : Mac) : (setMac s n v).c0 = s.c0 := rfl
@[simp] theorem setMac_c1 (n : Nat) (v : Mac) : (setMac s n v).c1 = s.c1 := rfl
@[simp] theorem setMac_c2 (n : Nat) (v : Mac) : (setMac s n v).c2 = s.c2 := rfl
@[simp] theorem setMac_c3 (n : Nat) (v : Mac) : (setMac s n v).c3 = s.c3 := rfl
@[simp] theorem setMac_hsys (n : Nat) (v : Mac) : (setMac s n v).hsys = s.hsys := rfl
@[simp] theorem setMac_shadows (n : Nat) (v : Mac) : (setMac s n v).shadows = s.shadows := rfl
@[simp] theorem setMac_tokenWait (n : Nat) (v : Mac) : (setMac s n v).tokenWait = s.tokenWait := rfl
@[simp] theorem setMac_tokenHeld (n : Nat) (v : Mac) : (setMac s n v).tokenHeld = s.tokenHeld := rfl
@[simp] theorem setMac_nld (n : Nat) (v : Mac) : (setMac s n v).nld = s.nld := rfl
@[simp] theorem setMac_mem (n : Nat) (v : Mac) : (setMac s n v).mem = s.mem := rfl
@[simp] theorem setMac_flash (n : Nat) (v : Mac) : (setMac s n v).flash = s.flash := rfl
@[simp] theorem setMac_flashDev (n : Nat) (v : Mac) : (setMac s n v).flashDev = s.flashDev := rfl
@[simp] theorem setMac_otp (n : Nat) (v : Mac) : (setMac s n v).otp = s.otp := rfl
@[simp] theorem setMac_boot (n : Nat) (v : Mac) : (setMac s n v).boot = s.boot := rfl
@[simp] theorem setMac_uarts (n : Nat) (v : Mac) : (setMac s n v).uarts = s.uarts := rfl
@[simp] theorem setMac_f (n : Nat) (v : Mac) : (setMac s n v).f = s.f := rfl
@[simp] theorem setMac_power (n : Nat) (v : Mac) : (setMac s n v).power = s.power := rfl
@[simp] theorem setMac_faults (n : Nat) (v : Mac) : (setMac s n v).faults = s.faults := rfl
@[simp] theorem setMac_cd (n : Nat) (v : Mac) (d : Nat) : cd (setMac s n v) d = cd s d := rfl

/-! ### setCsiRx -/

@[simp] theorem setCsiRx_pending (n : Nat) (v : CsiRx) : (setCsiRx s n v).pending = s.pending := rfl
@[simp] theorem setCsiRx_free (n : Nat) (v : CsiRx) : (setCsiRx s n v).free = s.free := rfl
@[simp] theorem setCsiRx_outputs (n : Nat) (v : CsiRx) : (setCsiRx s n v).outputs = s.outputs := rfl
@[simp] theorem setCsiRx_mstate (n : Nat) (v : CsiRx) : (setCsiRx s n v).mstate = s.mstate := rfl
@[simp] theorem setCsiRx_tb (n : Nat) (v : CsiRx) : (setCsiRx s n v).tb = s.tb := rfl
@[simp] theorem setCsiRx_tbStarted (n : Nat) (v : CsiRx) : (setCsiRx s n v).tbStarted = s.tbStarted := rfl
@[simp] theorem setCsiRx_refclk (n : Nat) (v : CsiRx) : (setCsiRx s n v).refclk = s.refclk := rfl
@[simp] theorem setCsiRx_c0 (n : Nat) (v : CsiRx) : (setCsiRx s n v).c0 = s.c0 := rfl
@[simp] theorem setCsiRx_c1 (n : Nat) (v : CsiRx) : (setCsiRx s n v).c1 = s.c1 := rfl
@[simp] theorem setCsiRx_c2 (n : Nat) (v : CsiRx) : (setCsiRx s n v).c2 = s.c2 := rfl
@[simp] theorem setCsiRx_c3 (n : Nat) (v : CsiRx) : (setCsiRx s n v).c3 = s.c3 := rfl
@[simp] theorem setCsiRx_hsys (n : Nat) (v : CsiRx) : (setCsiRx s n v).hsys = s.hsys := rfl
@[simp] theorem setCsiRx_shadows (n : Nat) (v : CsiRx) : (setCsiRx s n v).shadows = s.shadows := rfl
@[simp] theorem setCsiRx_tokenWait (n : Nat) (v : CsiRx) : (setCsiRx s n v).tokenWait = s.tokenWait := rfl
@[simp] theorem setCsiRx_tokenHeld (n : Nat) (v : CsiRx) : (setCsiRx s n v).tokenHeld = s.tokenHeld := rfl
@[simp] theorem setCsiRx_nld (n : Nat) (v : CsiRx) : (setCsiRx s n v).nld = s.nld := rfl
@[simp] theorem setCsiRx_mem (n : Nat) (v : CsiRx) : (setCsiRx s n v).mem = s.mem := rfl
@[simp] theorem setCsiRx_flash (n : Nat) (v : CsiRx) : (setCsiRx s n v).flash = s.flash := rfl
@[simp] theorem setCsiRx_flashDev (n : Nat) (v : CsiRx) : (setCsiRx s n v).flashDev = s.flashDev := rfl
@[simp] theorem setCsiRx_otp (n : Nat) (v : CsiRx) : (setCsiRx s n v).otp = s.otp := rfl
@[simp] theorem setCsiRx_boot (n : Nat) (v : CsiRx) : (setCsiRx s n v).boot = s.boot := rfl
@[simp] theorem setCsiRx_uarts (n : Nat) (v : CsiRx) : (setCsiRx s n v).uarts = s.uarts := rfl
@[simp] theorem setCsiRx_f (n : Nat) (v : CsiRx) : (setCsiRx s n v).f = s.f := rfl
@[simp] theorem setCsiRx_power (n : Nat) (v : CsiRx) : (setCsiRx s n v).power = s.power := rfl
@[simp] theorem setCsiRx_faults (n : Nat) (v : CsiRx) : (setCsiRx s n v).faults = s.faults := rfl
@[simp] theorem setCsiRx_cd (n : Nat) (v : CsiRx) (d : Nat) : cd (setCsiRx s n v) d = cd s d := rfl

/-! ### setUart -/

@[simp] theorem setUart_pending (n : Nat) (v : Uart) : (setUart s n v).pending = s.pending := rfl
@[simp] theorem setUart_free (n : Nat) (v : Uart) : (setUart s n v).free = s.free := rfl
@[simp] theorem setUart_outputs (n : Nat) (v : Uart) : (setUart s n v).outputs = s.outputs := rfl
@[simp] theorem setUart_mstate (n : Nat) (v : Uart) : (setUart s n v).mstate = s.mstate := rfl
@[simp] theorem setUart_tb (n : Nat) (v : Uart) : (setUart s n v).tb = s.tb := rfl
@[simp] theorem setUart_tbStarted (n : Nat) (v : Uart) : (setUart s n v).tbStarted = s.tbStarted := rfl
@[simp] theorem setUart_refclk (n : Nat) (v : Uart) : (setUart s n v).refclk = s.refclk := rfl
@[simp] theorem setUart_c0 (n : Nat) (v : Uart) : (setUart s n v).c0 = s.c0 := rfl
@[simp] theorem setUart_c1 (n : Nat) (v : Uart) : (setUart s n v).c1 = s.c1 := rfl
@[simp] theorem setUart_c2 (n : Nat) (v : Uart) : (setUart s n v).c2 = s.c2 := rfl
@[simp] theorem setUart_c3 (n : Nat) (v : Uart) : (setUart s n v).c3 = s.c3 := rfl
@[simp] theorem setUart_hsys (n : Nat) (v : Uart) : (setUart s n v).hsys = s.hsys := rfl
@[simp] theorem setUart_shadows (n : Nat) (v : Uart) : (setUart s n v).shadows = s.shadows := rfl
@[simp] theorem setUart_tokenWait (n : Nat) (v : Uart) : (setUart s n v).tokenWait = s.tokenWait := rfl
@[simp] theorem setUart_tokenHeld (n : Nat) (v : Uart) : (setUart s n v).tokenHeld = s.tokenHeld := rfl
@[simp] theorem setUart_nld (n : Nat) (v : Uart) : (setUart s n v).nld = s.nld := rfl
@[simp] theorem setUart_mem (n : Nat) (v : Uart) : (setUart s n v).mem = s.mem := rfl
@[simp] theorem setUart_flash (n : Nat) (v : Uart) : (setUart s n v).flash = s.flash := rfl
@[simp] theorem setUart_flashDev (n : Nat) (v : Uart) : (setUart s n v).flashDev = s.flashDev := rfl
@[simp] theorem setUart_otp (n : Nat) (v : Uart) : (setUart s n v).otp = s.otp := rfl
@[simp] theorem setUart_boot (n : Nat) (v : Uart) : (setUart s n v).boot = s.boot := rfl
@[simp] theorem setUart_host (n : Nat) (v : Uart) : (setUart s n v).host = s.host := rfl
@[simp] theorem setUart_f (n : Nat) (v : Uart) : (setUart s n v).f = s.f := rfl
@[simp] theorem setUart_power (n : Nat) (v : Uart) : (setUart s n v).power = s.power := rfl
@[simp] theorem setUart_faults (n : Nat) (v : Uart) : (setUart s n v).faults = s.faults := rfl
@[simp] theorem setUart_cd (n : Nat) (v : Uart) (d : Nat) : cd (setUart s n v) d = cd s d := rfl

/-! ### setAo -/

@[simp] theorem setAo_pending (n : Nat) (v : Ao) : (setAo s n v).pending = s.pending := rfl
@[simp] theorem setAo_free (n : Nat) (v : Ao) : (setAo s n v).free = s.free := rfl
@[simp] theorem setAo_outputs (n : Nat) (v : Ao) : (setAo s n v).outputs = s.outputs := rfl
@[simp] theorem setAo_mstate (n : Nat) (v : Ao) : (setAo s n v).mstate = s.mstate := rfl
@[simp] theorem setAo_tb (n : Nat) (v : Ao) : (setAo s n v).tb = s.tb := rfl
@[simp] theorem setAo_tbStarted (n : Nat) (v : Ao) : (setAo s n v).tbStarted = s.tbStarted := rfl
@[simp] theorem setAo_refclk (n : Nat) (v : Ao) : (setAo s n v).refclk = s.refclk := rfl
@[simp] theorem setAo_c0 (n : Nat) (v : Ao) : (setAo s n v).c0 = s.c0 := rfl
@[simp] theorem setAo_c1 (n : Nat) (v : Ao) : (setAo s n v).c1 = s.c1 := rfl
@[simp] theorem setAo_c2 (n : Nat) (v : Ao) : (setAo s n v).c2 = s.c2 := rfl
@[simp] theorem setAo_c3 (n : Nat) (v : Ao) : (setAo s n v).c3 = s.c3 := rfl
@[simp] theorem setAo_hsys (n : Nat) (v : Ao) : (setAo s n v).hsys = s.hsys := rfl
@[simp] theorem setAo_shadows (n : Nat) (v : Ao) : (setAo s n v).shadows = s.shadows := rfl
@[simp] theorem setAo_tokenWait (n : Nat) (v : Ao) : (setAo s n v).tokenWait = s.tokenWait := rfl
@[simp] theorem setAo_tokenHeld (n : Nat) (v : Ao) : (setAo s n v).tokenHeld = s.tokenHeld := rfl
@[simp] theorem setAo_nld (n : Nat) (v : Ao) : (setAo s n v).nld = s.nld := rfl
@[simp] theorem setAo_mem (n : Nat) (v : Ao) : (setAo s n v).mem = s.mem := rfl
@[simp] theorem setAo_flash (n : Nat) (v : Ao) : (setAo s n v).flash = s.flash := rfl
@[simp] theorem setAo_flashDev (n : Nat) (v : Ao) : (setAo s n v).flashDev = s.flashDev := rfl
@[simp] theorem setAo_otp (n : Nat) (v : Ao) : (setAo s n v).otp = s.otp := rfl
@[simp] theorem setAo_boot (n : Nat) (v : Ao) : (setAo s n v).boot = s.boot := rfl
@[simp] theorem setAo_host (n : Nat) (v : Ao) : (setAo s n v).host = s.host := rfl
@[simp] theorem setAo_uarts (n : Nat) (v : Ao) : (setAo s n v).uarts = s.uarts := rfl
@[simp] theorem setAo_power (n : Nat) (v : Ao) : (setAo s n v).power = s.power := rfl
@[simp] theorem setAo_faults (n : Nat) (v : Ao) : (setAo s n v).faults = s.faults := rfl
@[simp] theorem setAo_cd (n : Nat) (v : Ao) (d : Nat) : cd (setAo s n v) d = cd s d := rfl

/-! ### setDoCh -/

@[simp] theorem setDoCh_pending (n : Nat) (v : DoCh) : (setDoCh s n v).pending = s.pending := rfl
@[simp] theorem setDoCh_free (n : Nat) (v : DoCh) : (setDoCh s n v).free = s.free := rfl
@[simp] theorem setDoCh_outputs (n : Nat) (v : DoCh) : (setDoCh s n v).outputs = s.outputs := rfl
@[simp] theorem setDoCh_mstate (n : Nat) (v : DoCh) : (setDoCh s n v).mstate = s.mstate := rfl
@[simp] theorem setDoCh_tb (n : Nat) (v : DoCh) : (setDoCh s n v).tb = s.tb := rfl
@[simp] theorem setDoCh_tbStarted (n : Nat) (v : DoCh) : (setDoCh s n v).tbStarted = s.tbStarted := rfl
@[simp] theorem setDoCh_refclk (n : Nat) (v : DoCh) : (setDoCh s n v).refclk = s.refclk := rfl
@[simp] theorem setDoCh_c0 (n : Nat) (v : DoCh) : (setDoCh s n v).c0 = s.c0 := rfl
@[simp] theorem setDoCh_c1 (n : Nat) (v : DoCh) : (setDoCh s n v).c1 = s.c1 := rfl
@[simp] theorem setDoCh_c2 (n : Nat) (v : DoCh) : (setDoCh s n v).c2 = s.c2 := rfl
@[simp] theorem setDoCh_c3 (n : Nat) (v : DoCh) : (setDoCh s n v).c3 = s.c3 := rfl
@[simp] theorem setDoCh_hsys (n : Nat) (v : DoCh) : (setDoCh s n v).hsys = s.hsys := rfl
@[simp] theorem setDoCh_shadows (n : Nat) (v : DoCh) : (setDoCh s n v).shadows = s.shadows := rfl
@[simp] theorem setDoCh_tokenWait (n : Nat) (v : DoCh) : (setDoCh s n v).tokenWait = s.tokenWait := rfl
@[simp] theorem setDoCh_tokenHeld (n : Nat) (v : DoCh) : (setDoCh s n v).tokenHeld = s.tokenHeld := rfl
@[simp] theorem setDoCh_nld (n : Nat) (v : DoCh) : (setDoCh s n v).nld = s.nld := rfl
@[simp] theorem setDoCh_mem (n : Nat) (v : DoCh) : (setDoCh s n v).mem = s.mem := rfl
@[simp] theorem setDoCh_flash (n : Nat) (v : DoCh) : (setDoCh s n v).flash = s.flash := rfl
@[simp] theorem setDoCh_flashDev (n : Nat) (v : DoCh) : (setDoCh s n v).flashDev = s.flashDev := rfl
@[simp] theorem setDoCh_otp (n : Nat) (v : DoCh) : (setDoCh s n v).otp = s.otp := rfl
@[simp] theorem setDoCh_boot (n : Nat) (v : DoCh) : (setDoCh s n v).boot = s.boot := rfl
@[simp] theorem setDoCh_host (n : Nat) (v : DoCh) : (setDoCh s n v).host = s.host := rfl
@[simp] theorem setDoCh_uarts (n : Nat) (v : DoCh) : (setDoCh s n v).uarts = s.uarts := rfl
@[simp] theorem setDoCh_power (n : Nat) (v : DoCh) : (setDoCh s n v).power = s.power := rfl
@[simp] theorem setDoCh_faults (n : Nat) (v : DoCh) : (setDoCh s n v).faults = s.faults := rfl
@[simp] theorem setDoCh_cd (n : Nat) (v : DoCh) (d : Nat) : cd (setDoCh s n v) d = cd s d := rfl

/-! ### setDiCh -/

@[simp] theorem setDiCh_pending (n : Nat) (v : DiCh) : (setDiCh s n v).pending = s.pending := rfl
@[simp] theorem setDiCh_free (n : Nat) (v : DiCh) : (setDiCh s n v).free = s.free := rfl
@[simp] theorem setDiCh_outputs (n : Nat) (v : DiCh) : (setDiCh s n v).outputs = s.outputs := rfl
@[simp] theorem setDiCh_mstate (n : Nat) (v : DiCh) : (setDiCh s n v).mstate = s.mstate := rfl
@[simp] theorem setDiCh_tb (n : Nat) (v : DiCh) : (setDiCh s n v).tb = s.tb := rfl
@[simp] theorem setDiCh_tbStarted (n : Nat) (v : DiCh) : (setDiCh s n v).tbStarted = s.tbStarted := rfl
@[simp] theorem setDiCh_refclk (n : Nat) (v : DiCh) : (setDiCh s n v).refclk = s.refclk := rfl
@[simp] theorem setDiCh_c0 (n : Nat) (v : DiCh) : (setDiCh s n v).c0 = s.c0 := rfl
@[simp] theorem setDiCh_c1 (n : Nat) (v : DiCh) : (setDiCh s n v).c1 = s.c1 := rfl
@[simp] theorem setDiCh_c2 (n : Nat) (v : DiCh) : (setDiCh s n v).c2 = s.c2 := rfl
@[simp] theorem setDiCh_c3 (n : Nat) (v : DiCh) : (setDiCh s n v).c3 = s.c3 := rfl
@[simp] theorem setDiCh_hsys (n : Nat) (v : DiCh) : (setDiCh s n v).hsys = s.hsys := rfl
@[simp] theorem setDiCh_shadows (n : Nat) (v : DiCh) : (setDiCh s n v).shadows = s.shadows := rfl
@[simp] theorem setDiCh_tokenWait (n : Nat) (v : DiCh) : (setDiCh s n v).tokenWait = s.tokenWait := rfl
@[simp] theorem setDiCh_tokenHeld (n : Nat) (v : DiCh) : (setDiCh s n v).tokenHeld = s.tokenHeld := rfl
@[simp] theorem setDiCh_nld (n : Nat) (v : DiCh) : (setDiCh s n v).nld = s.nld := rfl
@[simp] theorem setDiCh_mem (n : Nat) (v : DiCh) : (setDiCh s n v).mem = s.mem := rfl
@[simp] theorem setDiCh_flash (n : Nat) (v : DiCh) : (setDiCh s n v).flash = s.flash := rfl
@[simp] theorem setDiCh_flashDev (n : Nat) (v : DiCh) : (setDiCh s n v).flashDev = s.flashDev := rfl
@[simp] theorem setDiCh_otp (n : Nat) (v : DiCh) : (setDiCh s n v).otp = s.otp := rfl
@[simp] theorem setDiCh_boot (n : Nat) (v : DiCh) : (setDiCh s n v).boot = s.boot := rfl
@[simp] theorem setDiCh_host (n : Nat) (v : DiCh) : (setDiCh s n v).host = s.host := rfl
@[simp] theorem setDiCh_uarts (n : Nat) (v : DiCh) : (setDiCh s n v).uarts = s.uarts := rfl
@[simp] theorem setDiCh_power (n : Nat) (v : DiCh) : (setDiCh s n v).power = s.power := rfl
@[simp] theorem setDiCh_faults (n : Nat) (v : DiCh) : (setDiCh s n v).faults = s.faults := rfl
@[simp] theorem setDiCh_cd (n : Nat) (v : DiCh) (d : Nat) : cd (setDiCh s n v) d = cd s d := rfl

/-! ### setEndp -/

@[simp] theorem setEndp_pending (e : Nat) (v : Endp) : (setEndp s e v).pending = s.pending := rfl
@[simp] theorem setEndp_free (e : Nat) (v : Endp) : (setEndp s e v).free = s.free + (epSlewed s e).toNat := rfl
@[simp] theorem setEndp_outputs (e : Nat) (v : Endp) : (setEndp s e v).outputs = s.outputs := rfl
@[simp] theorem setEndp_mstate (e : Nat) (v : Endp) : (setEndp s e v).mstate = s.mstate := rfl
@[simp] theorem setEndp_tb (e : Nat) (v : Endp) : (setEndp s e v).tb = s.tb := rfl
@[simp] theorem setEndp_tbStarted (e : Nat) (v : Endp) : (setEndp s e v).tbStarted = s.tbStarted := rfl
@[simp] theorem setEndp_refclk (e : Nat) (v : Endp) : (setEndp s e v).refclk = s.refclk := rfl
@[simp] theorem setEndp_c0 (e : Nat) (v : Endp) : (setEndp s e v).c0 = s.c0 := rfl
@[simp] theorem setEndp_c1 (e : Nat) (v : Endp) : (setEndp s e v).c1 = s.c1 := rfl
@[simp] theorem setEndp_c2 (e : Nat) (v : Endp) : (setEndp s e v).c2 = s.c2 := rfl
@[simp] theorem setEndp_c3 (e : Nat) (v : Endp) : (setEndp s e v).c3 = s.c3 := rfl
@[simp] theorem setEndp_hsys (e : Nat) (v : Endp) : (setEndp s e v).hsys = s.hsys := rfl
@[simp] theorem setEndp_shadows (e : Nat) (v : Endp) : (setEndp s e v).shadows = s.shadows := rfl
@[simp] theorem setEndp_tokenWait (e : Nat) (v : Endp) : (setEndp s e v).tokenWait = s.tokenWait := rfl
@[simp] theorem setEndp_tokenHeld (e : Nat) (v : Endp) : (setEndp s e v).tokenHeld = s.tokenHeld := rfl
@[simp] theorem setEndp_mem (e : Nat) (v : Endp) : (setEndp s e v).mem = s.mem := rfl
@[simp] theorem setEndp_flash (e : Nat) (v : Endp) : (setEndp s e v).flash = s.flash := rfl
@[simp] theorem setEndp_flashDev (e : Nat) (v : Endp) : (setEndp s e v).flashDev = s.flashDev := rfl
@[simp] theorem setEndp_otp (e : Nat) (v : Endp) : (setEndp s e v).otp = s.otp := rfl
@[simp] theorem setEndp_boot (e : Nat) (v : Endp) : (setEndp s e v).boot = s.boot := rfl
@[simp] theorem setEndp_host (e : Nat) (v : Endp) : (setEndp s e v).host = s.host := rfl
@[simp] theorem setEndp_uarts (e : Nat) (v : Endp) : (setEndp s e v).uarts = s.uarts := rfl
@[simp] theorem setEndp_f (e : Nat) (v : Endp) : (setEndp s e v).f = s.f := rfl
@[simp] theorem setEndp_power (e : Nat) (v : Endp) : (setEndp s e v).power = s.power := rfl
@[simp] theorem setEndp_faults (e : Nat) (v : Endp) : (setEndp s e v).faults = s.faults := rfl
@[simp] theorem setEndp_cd (e : Nat) (v : Endp) (d : Nat) : cd (setEndp s e v) d = cd s d := rfl

/-! ### setParty -/

@[simp] theorem setParty_pending (p : Nat) (v : Party) : (setParty s p v).pending = s.pending := rfl
@[simp] theorem setParty_free (p : Nat) (v : Party) : (setParty s p v).free = s.free + (partySlewed s p).toNat := rfl
@[simp] theorem setParty_outputs (p : Nat) (v : Party) : (setParty s p v).outputs = s.outputs := rfl
@[simp] theorem setParty_mstate (p : Nat) (v : Party) : (setParty s p v).mstate = s.mstate := rfl
@[simp] theorem setParty_tb (p : Nat) (v : Party) : (setParty s p v).tb = s.tb := rfl
@[simp] theorem setParty_tbStarted (p : Nat) (v : Party) : (setParty s p v).tbStarted = s.tbStarted := rfl
@[simp] theorem setParty_refclk (p : Nat) (v : Party) : (setParty s p v).refclk = s.refclk := rfl
@[simp] theorem setParty_c0 (p : Nat) (v : Party) : (setParty s p v).c0 = s.c0 := rfl
@[simp] theorem setParty_c1 (p : Nat) (v : Party) : (setParty s p v).c1 = s.c1 := rfl
@[simp] theorem setParty_c2 (p : Nat) (v : Party) : (setParty s p v).c2 = s.c2 := rfl
@[simp] theorem setParty_c3 (p : Nat) (v : Party) : (setParty s p v).c3 = s.c3 := rfl
@[simp] theorem setParty_hsys (p : Nat) (v : Party) : (setParty s p v).hsys = s.hsys := rfl
@[simp] theorem setParty_shadows (p : Nat) (v : Party) : (setParty s p v).shadows = s.shadows := rfl
@[simp] theorem setParty_tokenWait (p : Nat) (v : Party) : (setParty s p v).tokenWait = s.tokenWait := rfl
@[simp] theorem setParty_tokenHeld (p : Nat) (v : Party) : (setParty s p v).tokenHeld = s.tokenHeld := rfl
@[simp] theorem setParty_mem (p : Nat) (v : Party) : (setParty s p v).mem = s.mem := rfl
@[simp] theorem setParty_flash (p : Nat) (v : Party) : (setParty s p v).flash = s.flash := rfl
@[simp] theorem setParty_flashDev (p : Nat) (v : Party) : (setParty s p v).flashDev = s.flashDev := rfl
@[simp] theorem setParty_otp (p : Nat) (v : Party) : (setParty s p v).otp = s.otp := rfl
@[simp] theorem setParty_boot (p : Nat) (v : Party) : (setParty s p v).boot = s.boot := rfl
@[simp] theorem setParty_host (p : Nat) (v : Party) : (setParty s p v).host = s.host := rfl
@[simp] theorem setParty_uarts (p : Nat) (v : Party) : (setParty s p v).uarts = s.uarts := rfl
@[simp] theorem setParty_f (p : Nat) (v : Party) : (setParty s p v).f = s.f := rfl
@[simp] theorem setParty_power (p : Nat) (v : Party) : (setParty s p v).power = s.power := rfl
@[simp] theorem setParty_faults (p : Nat) (v : Party) : (setParty s p v).faults = s.faults := rfl
@[simp] theorem setParty_cd (p : Nat) (v : Party) (d : Nat) : cd (setParty s p v) d = cd s d := rfl

/-! ### setLimits -/

@[simp] theorem setLimits_pending (l : List AddrLimit) : (setLimits s l).pending = s.pending := rfl
@[simp] theorem setLimits_free (l : List AddrLimit) : (setLimits s l).free = s.free := rfl
@[simp] theorem setLimits_outputs (l : List AddrLimit) : (setLimits s l).outputs = s.outputs := rfl
@[simp] theorem setLimits_mstate (l : List AddrLimit) : (setLimits s l).mstate = s.mstate := rfl
@[simp] theorem setLimits_tb (l : List AddrLimit) : (setLimits s l).tb = s.tb := rfl
@[simp] theorem setLimits_tbStarted (l : List AddrLimit) : (setLimits s l).tbStarted = s.tbStarted := rfl
@[simp] theorem setLimits_refclk (l : List AddrLimit) : (setLimits s l).refclk = s.refclk := rfl
@[simp] theorem setLimits_c0 (l : List AddrLimit) : (setLimits s l).c0 = s.c0 := rfl
@[simp] theorem setLimits_c1 (l : List AddrLimit) : (setLimits s l).c1 = s.c1 := rfl
@[simp] theorem setLimits_c2 (l : List AddrLimit) : (setLimits s l).c2 = s.c2 := rfl
@[simp] theorem setLimits_c3 (l : List AddrLimit) : (setLimits s l).c3 = s.c3 := rfl
@[simp] theorem setLimits_hsys (l : List AddrLimit) : (setLimits s l).hsys = s.hsys := rfl
@[simp] theorem setLimits_shadows (l : List AddrLimit) : (setLimits s l).shadows = s.shadows := rfl
@[simp] theorem setLimits_tokenWait (l : List AddrLimit) : (setLimits s l).tokenWait = s.tokenWait := rfl
@[simp] theorem setLimits_tokenHeld (l : List AddrLimit) : (setLimits s l).tokenHeld = s.tokenHeld := rfl
@[simp] theorem setLimits_nld (l : List AddrLimit) : (setLimits s l).nld = s.nld := rfl
@[simp] theorem setLimits_mem (l : List AddrLimit) : (setLimits s l).mem = s.mem := rfl
@[simp] theorem setLimits_flash (l : List AddrLimit) : (setLimits s l).flash = s.flash := rfl
@[simp] theorem setLimits_flashDev (l : List AddrLimit) : (setLimits s l).flashDev = s.flashDev := rfl
@[simp] theorem setLimits_otp (l : List AddrLimit) : (setLimits s l).otp = s.otp := rfl
@[simp] theorem setLimits_boot (l : List AddrLimit) : (setLimits s l).boot = s.boot := rfl
@[simp] theorem setLimits_host (l : List AddrLimit) : (setLimits s l).host = s.host := rfl
@[simp] theorem setLimits_uarts (l : List AddrLimit) : (setLimits s l).uarts = s.uarts := rfl
@[simp] theorem setLimits_f (l : List AddrLimit) : (setLimits s l).f = s.f := rfl
@[simp] theorem setLimits_power (l : List AddrLimit) : (setLimits s l).power = s.power := rfl
@[simp] theorem setLimits_cd (l : List AddrLimit) (d : Nat) : cd (setLimits s l) d = cd s d := rfl

/-! ### putCd -/

@[simp] theorem putCd_pending (d : Nat) (c : CDie) : (putCd s d c).pending = s.pending := by unfold putCd; split <;> rfl
@[simp] theorem putCd_free (d : Nat) (c : CDie) : (putCd s d c).free = s.free := by unfold putCd; split <;> rfl
@[simp] theorem putCd_outputs (d : Nat) (c : CDie) : (putCd s d c).outputs = s.outputs := by unfold putCd; split <;> rfl
@[simp] theorem putCd_mstate (d : Nat) (c : CDie) : (putCd s d c).mstate = s.mstate := by unfold putCd; split <;> rfl
@[simp] theorem putCd_tb (d : Nat) (c : CDie) : (putCd s d c).tb = s.tb := by unfold putCd; split <;> rfl
@[simp] theorem putCd_tbStarted (d : Nat) (c : CDie) : (putCd s d c).tbStarted = s.tbStarted := by unfold putCd; split <;> rfl
@[simp] theorem putCd_refclk (d : Nat) (c : CDie) : (putCd s d c).refclk = s.refclk := by unfold putCd; split <;> rfl
@[simp] theorem putCd_hsys (d : Nat) (c : CDie) : (putCd s d c).hsys = s.hsys := by unfold putCd; split <;> rfl
@[simp] theorem putCd_shadows (d : Nat) (c : CDie) : (putCd s d c).shadows = s.shadows := by unfold putCd; split <;> rfl
@[simp] theorem putCd_tokenWait (d : Nat) (c : CDie) : (putCd s d c).tokenWait = s.tokenWait := by unfold putCd; split <;> rfl
@[simp] theorem putCd_tokenHeld (d : Nat) (c : CDie) : (putCd s d c).tokenHeld = s.tokenHeld := by unfold putCd; split <;> rfl
@[simp] theorem putCd_nld (d : Nat) (c : CDie) : (putCd s d c).nld = s.nld := by unfold putCd; split <;> rfl
@[simp] theorem putCd_mem (d : Nat) (c : CDie) : (putCd s d c).mem = s.mem := by unfold putCd; split <;> rfl
@[simp] theorem putCd_flash (d : Nat) (c : CDie) : (putCd s d c).flash = s.flash := by unfold putCd; split <;> rfl
@[simp] theorem putCd_flashDev (d : Nat) (c : CDie) : (putCd s d c).flashDev = s.flashDev := by unfold putCd; split <;> rfl
@[simp] theorem putCd_otp (d : Nat) (c : CDie) : (putCd s d c).otp = s.otp := by unfold putCd; split <;> rfl
@[simp] theorem putCd_boot (d : Nat) (c : CDie) : (putCd s d c).boot = s.boot := by unfold putCd; split <;> rfl
@[simp] theorem putCd_host (d : Nat) (c : CDie) : (putCd s d c).host = s.host := by unfold putCd; split <;> rfl
@[simp] theorem putCd_uarts (d : Nat) (c : CDie) : (putCd s d c).uarts = s.uarts := by unfold putCd; split <;> rfl
@[simp] theorem putCd_f (d : Nat) (c : CDie) : (putCd s d c).f = s.f := by unfold putCd; split <;> rfl
@[simp] theorem putCd_power (d : Nat) (c : CDie) : (putCd s d c).power = s.power := by unfold putCd; split <;> rfl
@[simp] theorem putCd_faults (d : Nat) (c : CDie) : (putCd s d c).faults = s.faults := by unfold putCd; split <;> rfl

/-- Die d replaced reads as the new die. -/
@[simp] theorem cd_putCd (d : Nat) (c : CDie) : cd (putCd s d c) d = c := by
  unfold putCd cd; split <;> simp_all

/-- Another die is as it was. -/
theorem cd_putCd_ne (d e : Fin 4) (c : CDie) (h : e ≠ d) : cd (putCd s d c) e = cd s e := by
  fin_cases d <;> fin_cases e <;> first | rfl | exact absurd rfl h

/-- A later replacement of the same die hides the earlier one. -/
@[simp] theorem putCd_putCd (d : Nat) (b c : CDie) : putCd (putCd s d b) d c = putCd s d c := by
  unfold putCd; split <;> simp_all

/-- A die replaced by itself. -/
@[simp] theorem putCd_cd (d : Nat) : putCd s d (cd s d) = s := by
  rcases d with _ | _ | _ | d <;> rfl

/-- A change of a die that R376 has not left unspecified. -/
theorem setCd_whole (d : Nat) (c : CDie) (h : (cd s d).slewed = false) : setCd s d c = putCd s d c := by
  simp [setCd, h]

theorem setDome_whole (d n : Nat) (v : Dome) (h : (cd s d).slewed = false) :
    setDome s d n v = putCd s d { cd s d with domes := tabSet (cd s d).domes n v } := setCd_whole s d _ h

theorem setTower_whole (d n : Nat) (v : Tower) (h : (cd s d).slewed = false) :
    setTower s d n v = putCd s d { cd s d with towers := tabSet (cd s d).towers n v } := setCd_whole s d _ h

theorem setPlinth_whole (d n : Nat) (v : Plinth) (h : (cd s d).slewed = false) :
    setPlinth s d n v = putCd s d { cd s d with plinths := tabSet (cd s d).plinths n v } := setCd_whole s d _ h

theorem setLantern_whole (d n : Nat) (v : Lantern) (h : (cd s d).slewed = false) :
    setLantern s d n v = putCd s d { cd s d with lanterns := tabSet (cd s d).lanterns n v } := setCd_whole s d _ h

theorem setSpire_whole (d n : Nat) (v : Spire) (h : (cd s d).slewed = false) :
    setSpire s d n v = putCd s d { cd s d with spires := tabSet (cd s d).spires n v } := setCd_whole s d _ h

theorem setBell_whole (d n : Nat) (v : Bell) (h : (cd s d).slewed = false) :
    setBell s d n v = putCd s d { cd s d with bells := tabSet (cd s d).bells n v } := setCd_whole s d _ h

theorem setQueue_whole (d n : Nat) (v : Queue) (h : (cd s d).slewed = false) :
    setQueue s d n v = putCd s d { cd s d with queues := tabSet (cd s d).queues n v } := setCd_whole s d _ h

@[simp] theorem mover_setMover (k q : Nat) (v : Mover) : mover (setMover s k v) q = if q = k then v else mover s q := by
  simp [mover, setMover, tabGet_tabSet]

@[simp] theorem session_setSession (k q : Nat) (v : Session) : session (setSession s k v) q = if q = k then v else session s q := by
  simp [session, setSession, tabGet_tabSet]

@[simp] theorem mac_setMac (k q : Nat) (v : Mac) : mac (setMac s k v) q = if q = k then v else mac s q := by
  simp [mac, setMac, tabGet_tabSet]

@[simp] theorem csiRx_setCsiRx (k q : Nat) (v : CsiRx) : csiRx (setCsiRx s k v) q = if q = k then v else csiRx s q := by
  simp [csiRx, setCsiRx, tabGet_tabSet]

@[simp] theorem uart_setUart (k q : Nat) (v : Uart) : uart (setUart s k v) q = if q = k then v else uart s q := by
  simp [uart, setUart, tabGet_tabSet]

@[simp] theorem ao_setAo (k q : Nat) (v : Ao) : ao (setAo s k v) q = if q = k then v else ao s q := by
  simp [ao, setAo, tabGet_tabSet]

@[simp] theorem doCh_setDoCh (k q : Nat) (v : DoCh) : doCh (setDoCh s k v) q = if q = k then v else doCh s q := by
  simp [doCh, setDoCh, tabGet_tabSet]

@[simp] theorem diCh_setDiCh (k q : Nat) (v : DiCh) : diCh (setDiCh s k v) q = if q = k then v else diCh s q := by
  simp [diCh, setDiCh, tabGet_tabSet]

/-! Endpoints and parties: those of a die whose VCORE has moved too fast take a free value (16 R376). -/

@[simp] theorem epSlewed_of_ge (k : Nat) (h : 12 ≤ k) : epSlewed s k = false := by
  simp [epSlewed, Nat.not_lt.mpr h]

@[simp] theorem partySlewed_of_lt (p : Nat) (h : p < 8) : partySlewed s p = false := by
  simp [partySlewed, Nat.not_le.mpr h]

@[simp] theorem partySlewed_of_ge (p : Nat) (h : 20 ≤ p) : partySlewed s p = false := by
  simp [partySlewed, epSlewed_of_ge s (p - 8) (by omega)]

@[simp] theorem epSlewed_setEndp (e k : Nat) (v : Endp) : epSlewed (setEndp s k v) e = epSlewed s e := rfl
@[simp] theorem epSlewed_setParty (e k : Nat) (v : Party) : epSlewed (setParty s k v) e = epSlewed s e := rfl
@[simp] theorem partySlewed_setEndp (e k : Nat) (v : Endp) : partySlewed (setEndp s k v) e = partySlewed s e := rfl
@[simp] theorem partySlewed_setParty (e k : Nat) (v : Party) : partySlewed (setParty s k v) e = partySlewed s e := rfl

theorem endp_setEndp_ne (k q : Nat) (v : Endp) (h : q ≠ k) : endp (setEndp s k v) q = endp s q := by
  simp [endp, setEndp, tabGet_tabSet, h]

@[simp] theorem endp_setEndp (k q : Nat) (v : Endp) (h : epSlewed s k = false) :
    endp (setEndp s k v) q = if q = k then v else endp s q := by
  simp [endp, setEndp, tabGet_tabSet, h]

theorem party_setParty_ne (k q : Nat) (v : Party) (h : q ≠ k) : party (setParty s k v) q = party s q := by
  simp [party, setParty, tabGet_tabSet, h]

@[simp] theorem party_setParty (k q : Nat) (v : Party) (h : partySlewed s k = false) :
    party (setParty s k v) q = if q = k then v else party s q := by
  simp [party, setParty, tabGet_tabSet, h]

end Sys2Proof.Machine
end

