-- ==== Sys2Proof/Laws/Spire.lean ====
section
/-! SUPPORT. What issuing an instruction of a Spire comes to (08 R185, R189, R196). -/

namespace Sys2Proof.Machine

/-- The parts of `spireIssues`. -/
theorem spireIssues_iff {s : State} {d n : Nat} {w : Word} {i : SpOp} :
    spireIssues s d n w i = true ↔
      spireAtBoundary s d n = true ∧ spireHolds s d n w = true ∧ spDecode w = some i := by
  simp [spireIssues, and_assoc]

theorem spireAtBoundary_whole {s : State} {d n : Nat} (h : spireAtBoundary s d n = true) : (cd s d).slewed = false := by
  simp [spireAtBoundary] at h; tauto

theorem spireAtBoundary_ready {s : State} {d n : Nat} (h : spireAtBoundary s d n = true) : spReady s d n = true := by
  simp [spireAtBoundary] at h; simp [spReady]; tauto

theorem spireAtBoundary_timer {s : State} {d n : Nat} (h : spireAtBoundary s d n = true) :
    timerDue (spire s d n) s.tb = false := by
  simp only [spireAtBoundary, Bool.and_eq_true, Bool.not_eq_true'] at h
  exact h.2

/-- An instruction that issues has its effect. -/
theorem spIssue_runs {s : State} {d n : Nat} {w : Word} {i : SpOp} (k : State) (h : spireIssues s d n w i = true) :
    spIssue s d n w i k = k := by
  obtain ⟨hb, hh, hd⟩ := spireIssues_iff.1 h
  simp only [spireHolds, Bool.and_eq_true, decide_eq_true_eq] at hh
  have hf : fetchable (cd s d) n (spire s d n) w = true := hh.2
  simp [spIssue, spireAtBoundary_ready hb, spireAtBoundary_timer hb, hf, hd, locSize, hh.1]

/-- A Spire of a die that is whole, replaced. -/
theorem setSpire_putSpire {s : State} {d n : Nat} (v : Spire) (h : (cd s d).slewed = false) :
    setSpire s d n v = putSpire s d n v := setSpire_whole s d n v h

@[simp] theorem spire_putSpire (s : State) (d n : Nat) (v : Spire) : spire (putSpire s d n v) d n = v := by
  simp [putSpire, spire]

end Sys2Proof.Machine
end

