-- ==== Sys2Proof/Laws/Vault.lean ====
section
/-! SUPPORT. What an access to a Vault or to LPDDR comes to where no error lies (11 R257, R263, R271). -/

namespace Sys2Proof.Machine

/-- No word of the Vault holds an error, and it is not being cleared. -/
def vaultClean (c : CDie) : Prop := c.vaultErr = [] ∧ c.vaultClearing = false

theorem vaultLoad_clean {c : CDie} (off n : Nat) (h : c.vaultErr = []) :
    vaultLoad c off n = .ok (memBytes 0 c.vault off n, c) := by
  simp [vaultLoad, vaultErrIn, vaultBad, vaultCorrect, h]

theorem vaultStore_clean {c : CDie} (off : Nat) (bs : List Byte) (h : c.vaultErr = []) :
    vaultStore c off bs = .ok { c with vault := memPut 0 c.vault off bs } := by
  obtain ⟨⟩ := c
  simp_all [vaultStore, vaultErrIn, vaultBad, vaultCorrect]

/-- A read of a clean Vault changes nothing. -/
theorem rdVault_clean {s : State} {d : Nat} (off n : Nat) (port : Word) (h : vaultClean (cd s d)) :
    rdVault s d off n port = (some (memBytes 0 (cd s d).vault off n), s) := by
  simp [rdVault, h.2, vaultLoad_clean off n h.1]

/-- A write to a clean Vault writes its bytes and nothing else. -/
theorem wrVault_clean {s : State} {d : Nat} (off : Nat) (bs : List Byte) (port : Word) (h : vaultClean (cd s d)) :
    wrVault s d off bs port =
      (some (setCd s d { cd s d with vault := memPut 0 (cd s d).vault off bs }),
        setCd s d { cd s d with vault := memPut 0 (cd s d).vault off bs }) := by
  simp [wrVault, h.2, vaultStore_clean off bs h.1]

/-- A Vault that is being cleared is not read. -/
theorem rdVault_clearing {s : State} {d : Nat} (off n : Nat) (port : Word) (h : (cd s d).vaultClearing = true) :
    rdVault s d off n port = (none, s) := by
  simp [rdVault, h]

/-- Nor written. -/
theorem wrVault_clearing {s : State} {d : Nat} (off : Nat) (bs : List Byte) (port : Word) (h : (cd s d).vaultClearing = true) :
    wrVault s d off bs port = (none, s) := by
  simp [wrVault, h]

/-- Reading LPDDR over a link that meets no error counts the bursts. -/
theorem lpLoad_clean {s : State} (a n : Nat) (h : s.mem.linkErrs = []) :
    lpLoad s a n = (some (lpBytes s.mem a n), { s with mem := { s.mem with
      rdb := satAdd s.mem.rdb (bursts a n),
      lecc := if linkEcc s.mem then satAdd s.mem.lecc 0 else s.mem.lecc } }) := by
  obtain ⟨⟩ := s
  rename_i m _ _ _ _ _ _ _ _ _
  obtain ⟨⟩ := m
  simp_all [lpLoad, linkLost, linkFixed, linkPast]
  split <;> simp_all [linkEcc, isLp5]

end Sys2Proof.Machine
end

