-- ==== Sys2Proof/WellFormed.lean ====
section
/-! DEFINITION. When a command's operands are ones that the part can meet. Widths and unit numbers are bounded by their
types; what remains are the lengths of lists. No meaning relies on these checks. -/

namespace Sys2Proof

/-- A flit has sixteen body words (10 R232). -/
def Flit.wf (f : Flit) : Bool := decide (f.body.length = 16)

/-- A RESUME CTRL flit carries the credits of four channels, 10 bits each at most (10 Table 10-4). -/
def ResumeMsg.wf (m : ResumeMsg) : Bool := decide (m.credits.length = 4) && m.credits.all (fun c => decide (c < 1024))

/-- An Ethernet frame on the wire, of an accepted length (13 R302) or not, is shorter than 64 KiB. -/
def EthFrame.wf (f : EthFrame) : Bool := decide (f.payload.length < 65536)

/-- A character on the line has samples: at most 16 ticks for each of 12 bits, with room for a slow peer (14 R332). -/
def RxChar.wf (c : RxChar) : Bool :=
  decide (c.ticks ≠ []) && decide (c.ticks.length ≤ 256) && decide (c.pulses.length ≤ 256)

/-- Host writes into a submission ring lie inside its 64 KiB (13 R320). -/
def ringWritesWf (ws : List (Nat × Byte)) : Bool := ws.all (fun w => decide (w.1 < 65536))

/-- Whether a command is well formed. -/
def Instr.wf : Instr → Bool
  | .flitReceive _ f => f.wf
  | .nldResumeFlit _ m => m.wf
  | .ethFrameReceive _ f => f.wf
  | .pciSqTailWrite _ _ ws => ringWritesWf ws
  | .csiLongPacket _ _ _ data => decide (data.length < 65536)
  | .uartCharReceived _ c => c.wf
  | .sensorSample xs => decide (xs.length = 38)
  | _ => true

end Sys2Proof
end

