-- ==== Sys2Proof/Tests/Slice0.lean ====
section
/-! SUPPORT. Tests of single steps on small states, with results worked out from the spec by hand, and for each statement a
state and operands that meet its hypotheses together: `wit_<statement>`, with `_2`, `_3` where its clauses exclude each other. -/

namespace Sys2Proof.Tests

-- One theorem at a time: each that waits for another to be checked would hold a thread with its stack.
set_option Elab.async false

open Sys2Proof.Machine

/-! ### Well-formedness: for each check a term that it refuses -/

theorem test_wf_flit : Instr.wf (.flitReceive (.ext 0) ⟨[1], 0⟩) = false := by decide
theorem test_wf_resume_credits : Instr.wf (.nldResumeFlit (.ext 0) ⟨0, [1, 2, 3], 0, true⟩) = false := by decide
theorem test_wf_resume_width : Instr.wf (.nldResumeFlit (.ext 0) ⟨0, [1, 2, 3, 1024], 0, true⟩) = false := by decide
theorem test_wf_char_empty : Instr.wf (.uartCharReceived 0 ⟨[], []⟩) = false := by decide
theorem test_wf_char_long (l : List Bool) (h : l.length = 257) : Instr.wf (.uartCharReceived 0 ⟨l, []⟩) = false := by
  simp [Instr.wf, RxChar.wf, h]
theorem test_wf_frame (l : List Byte) (h : l.length = 65536) :
    Instr.wf (.ethFrameReceive 0 ⟨0, 0, none, 0, true, l⟩) = false := by
  simp [Instr.wf, EthFrame.wf, h]
theorem test_wf_packet (l : List Byte) (h : l.length = 65536) : Instr.wf (.csiLongPacket 0 ⟨0, 0, 0, .good⟩ true l) = false := by
  simp [Instr.wf, h]
theorem test_wf_ring : Instr.wf (.pciSqTailWrite 0 0 [(65536, 0)]) = false := by decide
theorem test_wf_samples : Instr.wf (.sensorSample [0, 1]) = false := by decide
theorem test_wf_accepts : Instr.wf (.flitReceive (.ext 0) ⟨List.replicate 16 0, 0⟩) = true := by decide

/-! ### States -/

/-- The machine in RUN, 5 ms after RST_N. -/
def t0 : State :=
  { State.reset with
    mstate := .run, refclk := true, tbStarted := true, tb := 5000000,
    c0 := { vaultClearing := false }, c1 := { vaultClearing := false }, c2 := { vaultClearing := false },
    c3 := { vaultClearing := false } }

/-- Spire 0 of die 0 as v, with the word w at address 0. -/
def spv (w : Word) (v : Spire) : State :=
  { t0 with c0 := { t0.c0 with
    spireMem := memPut 0 [] 0 (wordLe w), spires := [(0, { v with st := .running, runBit := true })] } }

/-- Spire 0 of die 0 about to issue w, with x in g2 and y in g3. -/
def sp (w x y : Word) : State := spv w (spSet (spSet {} 2 x) 3 y)

/-- The first words l of a transaction's header, the others 0. -/
def body16 (l : List Word) : List Word := l ++ List.replicate (16 - l.length) 0

def after (o : Host.Outcome State Fault Refusal) : State :=
  match o with
  | .next t => t
  | _ => { t0 with mstate := .reset }

/-- Spire 0 of die 0 after a command. -/
def sp0 (o : Host.Outcome State Fault Refusal) : Spire := spire (after o) 0 0

/-! ### Spires (chapter 8) -/

/-- One word of each format, written from Tables 8-6 and 8-7. -/
theorem test_spire_words :
    [0x04221800, 0x0422180D, 0x08221800, 0x0C221900, 0x10220005, 0x40220008, 0x54220008, 0x60220001, 0x78000002, 0x7C220000,
      0x80000008, 0x88000006, 0x8C200010, 0x94000003, 0x98020000, 0xA0221800, 0xA8221800, 0xB0221800, 0x00000000].map spDecode =
    [some .add, some .div, some .fadd, some .fma, some .addi, some .lw, some .sw, some .beq, some .call, some .jalr,
      some .enter, some .halt, some .rds, some .trap, some .wspill, some .qpush, some .badd, some .waitt, none] := by decide

theorem test_add : spReg (sp0 (exec (.add 0 0 0x04221800) (sp 0x04221800 5 7))) 1 = 12 := by decide
theorem test_sub_wraps : spReg (sp0 (exec (.sub 0 0 0x04221801) (sp 0x04221801 0 1))) 1 = 0xFFFF_FFFF := by decide
theorem test_div_by_zero : spReg (sp0 (exec (.div 0 0 0x0422180D) (sp 0x0422180D 5 0))) 1 = 0xFFFF_FFFF := by decide
theorem test_addi_pc : (sp0 (exec (.addi 0 0 0x10220005) (sp 0x10220005 5 0))).pc = 4 := by decide
theorem test_g0_discards : spReg (sp0 (exec (.addi 0 0 0x10020005) (sp 0x10020005 5 0))) 0 = 0 := by decide
theorem test_sw : memBytes 0 (after (exec (.sw 0 0 0x54620008) (sp 0x54620008 0x100 0x12345678))).c0.spireMem 0x108 4
    = [0x78, 0x56, 0x34, 0x12] := by decide
theorem test_beq_taken : (sp0 (exec (.beq 0 0 0x60430003) (sp 0x60430003 9 9))).pc = 12 := by decide
theorem test_misaligned : (sp0 (exec (.lw 0 0 0x40220001) (sp 0x40220001 0x100 0))).xcode = 4 := by decide
theorem test_enter : (sp0 (exec (.enter 0 0 0x80000008) (sp 0x80000008 0 0))).live = 2 := by decide
theorem test_waitt_past : spReg (sp0 (exec (.waitt 0 0 0xB0221800) (sp 0xB0221800 5000000 0))) 1 = 0 := by decide

theorem wit_SpireRegisterFile : (7 : Nat) < 8 ∧ (23 : Nat) < 24 ∧ ({} : Spire).cwp < 8 := by decide
theorem wit_SpireIntegerOps : spireIssues (sp 0x04221800 5 7) 0 0 0x04221800 .add = true := by decide
theorem wit_SpireDivision : spireIssues (sp 0x0422180D 5 0) 0 0 0x0422180D .div = true := by decide
theorem wit_SpireImmediateOps : spireIssues (sp 0x10220005 5 0) 0 0 0x10220005 .addi = true := by decide
theorem wit_SpireFloatOps : spireIssues (sp 0x08221800 0x3F800000 0x3F800000) 0 0 0x08221800 .fadd = true := by decide
theorem wit_Binary32SpecialCases : isNaN b32 0x7FC00000 = true ∧ isNaN b32 0 = false ∧ unpack b32 0x7F800000 = .inf false ∧
    unpack b32 0xFF800000 = .inf true ∧ isZero b32 0x80000000 = true := by decide
theorem wit_LongFormatsExact : unpack b32 1 = .fin false 1 (-149) ∧ unpack b16 1 = .fin false 1 (-24) := by decide
theorem wit_SpireLocalLoads : spireIssues (sp 0x40220000 0xFFFC 0) 0 0 0x40220000 .lw = true ∧
    (spReg (spire (sp 0x40220000 0xFFFC 0) 0 0) 2 + iSimm 0x40220000).toNat + 4 = 0x10000 := by decide
theorem wit_SpireLocalStores : spireIssues (sp 0x54620000 0xFFFC 0) 0 0 0x54620000 .sw = true ∧
    (spReg (spire (sp 0x54620000 0xFFFC 0) 0 0) 2 + iSimm 0x54620000).toNat + 4 = 0x10000 := by decide
theorem wit_ByteMemoryReadAfterWrite : memWf 0 [(7, 1)] = true := by decide
/-- Spire 0 about to load the word at a, with no ADDR_ERROR record of it yet. -/
def loads (a : Word) : Prop :=
  spireIssues (sp 0x40220000 a 0) 0 0 0x40220000 .lw = true ∧ spReg (spire (sp 0x40220000 a 0) 0 0) 2 + iSimm 0x40220000 = a
/-- Misaligned; the first and last addresses that nothing occupies below 0x2180_0000; the first after the two windows. -/
theorem wit_SpireAccessPlaces : loads 0x101 ∧ loads 0x10000 ∧ loads 0x1FFFFFFC ∧ loads 0x21800000 ∧ loads 0x31000000 ∧
    t0.faults.addrLimits = [] ∧ ({} : Spire).cwp ≠ 7 := by unfold loads; decide
/-- The first addresses of the two windows and of the far segment. -/
theorem wit_SpireAccessPlaces_2 : loads 0x20000000 ∧ loads 0x30000000 ∧ loads 0x80000000 := by unfold loads; decide
/-- The Vault of die 0 can be read and written. -/
theorem wit_SpireAccessPlaces_3 : (cd (sp 0x40220000 0x20000000 0) 0).vaultClearing = false ∧ (cd (sp 0x40220000 0x20000000 0) 0).vaultErr = [] := by
  decide
/-- 08 R187: a load of the die's own Vault brings the word there. -/
theorem test_load_own_vault :
    let s := sp 0x40220000 0x20000008 0
    ((sp0 (exec (.lw 0 0 0x40220000) { s with c0 := { s.c0 with vault := [(8, 3)] } })).mesh.map (·.answer)) = some (some (0, 3)) := by decide
/-- A load of Spire 0 in window k under way, answered with a status and the word 9. -/
def spMesh (st : Byte) (k : Nat := 0) : State :=
  let m : MeshAcc := { rd := 1, isStore := false, signed := false, size := 4, addr := 0x20000000, dev := 0, value := 0, held := false, answer := some (st, 9) }
  spv 0x40220000 { cwp := k, mesh := some m }
theorem wit_SpireAccessAnswered : (spire (spMesh 0) 0 0).mesh.isSome = true ∧ ∀ k : Fin 4, let st := BitVec.ofNat 8 k
    (cd (spMesh st) 0).slewed = false ∧ (spire (spMesh st) 0 0).st = .running ∧ (spire (spMesh st) 0 0).runBit = true ∧
    (spire (spMesh st) 0 0).cwp ≠ 7 ∧ ((spire (spMesh st) 0 0).mesh.map (·.answer)) = some (some (st, 9)) := by decide
theorem wit_SpireAccessAnswered_2 : ∀ k : Fin 3, let st := BitVec.ofNat 8 (k + 1)
    (spire (spMesh st 7) 0 0).st = .running ∧ (spire (spMesh st 7) 0 0).cwp = 7 ∧
    ((spire (spMesh st 7) 0 0).mesh.map (·.answer)) = some (some (st, 9)) := by decide
/-- 08 R186: an ISOLATED answer in window 7 is a nested trap fault. -/
theorem test_answer_nested : (sp0 (exec (.meshAccessComplete 0 0) (spMesh 3 7))).hcause = 4 := by decide
theorem test_load_data : spReg (sp0 (exec (.meshAccessComplete 0 0) (spMesh 0))) 1 = 9 := by decide
theorem wit_SpireJumps : spireIssues (sp 0x60430003 9 9) 0 0 0x60430003 .beq = true ∧
    spireIssues (sp 0x78000002 0 0) 0 0 0x78000002 .call = true ∧ spireIssues (sp 0x7C220000 8 0) 0 0 0x7C220000 .jalr = true := by
  decide
theorem wit_SpireEnterLeave : spireIssues (sp 0x80000008 0 0) 0 0 0x80000008 .enter = true ∧
    (spire (sp 0x80000008 0 0) 0 0).cwp < 7 ∧ (spire (sp 0x80000008 0 0) 0 0).live < 7 ∧
    spireIssues (spv 0x84000008 { live := 2 }) 0 0 0x84000008 .leave = true := by decide
theorem wit_SpireWindowTraps : spireIssues (spv 0x80000008 { live := 7 }) 0 0 0x80000008 .enter = true ∧
    spireIssues (sp 0x84000008 0 0) 0 0 0x84000008 .leave = true ∧ (spire (sp 0x84000008 0 0) 0 0).live = 1 ∧
    spireIssues (sp 0x80000001 0 0) 0 0 0x80000001 .enter = true ∧
    spireIssues (spv 0x80000008 { cwp := 7 }) 0 0 0x80000008 .enter = true ∧ t0.faults.fesc = false := by decide
theorem wit_SpireWindowTraps_2 : (let s := { spv 0x80000008 { cwp := 7 } with faults := { t0.faults with fesc := true } }
    spireIssues s 0 0 0x80000008 .enter = true ∧ (spire s 0 0).cwp = 7 ∧ s.faults.fesc = true) := by decide
theorem wit_SpireWindowMoves : spireIssues (spv 0x98020000 { cwp := 7, live := 7, xwin := 6, regs := [(2, 0xFFC0)] }) 0 0 0x98020000 .wspill = true ∧
    spireIssues (spv 0x9C020000 { cwp := 7, live := 1, xwin := 0, regs := [(2, 0xFFC0)] }) 0 0 0x9C020000 .wfill = true ∧
    (spReg { cwp := 7, regs := [(2, 0xFFC0)] } 2).toNat + 64 = 0x10000 := by decide
theorem wit_SpireWindowMoves_2 : spireIssues (spv 0x98020000 { cwp := 7, live := 1 }) 0 0 0x98020000 .wspill = true ∧
    spireIssues (spv 0x9C020000 { cwp := 7, live := 7 }) 0 0 0x9C020000 .wfill = true ∧
    spireIssues (sp 0x98020000 0 0) 0 0 0x98020000 .wspill = true ∧ spireIssues (sp 0x9C020000 0 0) 0 0 0x9C020000 .wfill = true ∧
    (spire (sp 0x98020000 0 0) 0 0).cwp ≠ 7 := by decide
theorem wit_SpireSystemInstructions : spireIssues (sp 0x88000000 0 0) 0 0 0x88000000 .nop = true ∧
    spireIssues (sp 0x88000001 0 0) 0 0 0x88000001 .iflush = true ∧ spireIssues (sp 0x88000006 0 0) 0 0 0x88000006 .halt = true ∧
    spireIssues (spv 0x88000004 { cwp := 7 }) 0 0 0x88000004 .rftR = true ∧
    spireIssues (spv 0x88000005 { cwp := 7 }) 0 0 0x88000005 .rftN = true := by decide
theorem wit_SpireTrapOrder : (spire (spv 0 { ie := true, tcmp := 5000000 }) 0 0).ie = true ∧
    (spire (spv 0 { ie := true, tcmp := 5000000 }) 0 0).tcmp.toNat ≤ (spv 0 {}).tb.toNat ∧ (spire (spv 0 { pc := 0x10000 }) 0 0).cwp ≠ 7 ∧
    spireAtBoundary (sp 0 0 0) 0 0 = true ∧ spireHolds (sp 0 0 0) 0 0 0 = true ∧
    spireAtBoundary (spv 0 { cwp := 7 }) 0 0 = true ∧ spireIssues (sp 0x94000003 0 0) 0 0 0x94000003 .trap = true := by decide
/-- Spire 0 in window 7 about to issue w, with x in g2, y in g3, and windows that WSPILL and WFILL may move. -/
def sp7 (w x y : Word) : State := spv w (spSet (spSet { cwp := 7, live := 3, xwin := 2 } 2 x) 3 y)
theorem wit_SpireTrapOrder_2 : spireIssues (sp7 0x94000003 0 0) 0 0 0x94000003 .trap = true ∧
    spireIssues (sp7 0x40220000 0x101 0) 0 0 0x40220000 .lw = true ∧ spireIssues (sp7 0x40220000 0x10000 0) 0 0 0x40220000 .lw = true ∧
    (spReg (spire (sp7 0x40220000 0x101 0) 0 0) 2 + iSimm 0x40220000).toNat % 4 ≠ 0 ∧
    (spReg (spire (sp7 0x40220000 0x10000 0) 0 0) 2 + iSimm 0x40220000).toNat = 0x10000 ∧
    spireIssues (sp7 0x98020000 2 0) 0 0 0x98020000 .wspill = true ∧ spireIssues (sp7 0x98020000 0xFFC4 0) 0 0 0x98020000 .wspill = true ∧
    spireIssues (sp7 0x9C020000 2 0) 0 0 0x9C020000 .wfill = true ∧ spireIssues (sp7 0x9C020000 0xFFC4 0) 0 0 0x9C020000 .wfill = true ∧
    iRs1 0x98020000 = 2 ∧ iRs1 0x9C020000 = 2 ∧ (spire (sp7 0 0 0) 0 0).xwin ≠ 7 ∧ (spire (sp7 0 0 0) 0 0).live ≠ 1 := by decide
theorem wit_SpireTrapOrder_3 : spireIssues (sp7 0x8C200007 0 0) 0 0 0x8C200007 .rds = true ∧
    spireIssues (sp7 0xA0221800 0 0x21) 0 0 0xA0221800 .qpush = true ∧ spireIssues (sp7 0xA0221800 0 0xFFE0) 0 0 0xA0221800 .qpush = true ∧
    spireIssues (sp7 0xA4221800 0 0x20) 0 0 0xA4221800 .qpop = true ∧ spireIssues (sp7 0xA4221800 0 0x10000) 0 0 0xA4221800 .qpop = true ∧
    (let s := spv 0 { cwp := 7, pc := 0x10000 }
     s.mstate = .run ∧ (cd s 0).slewed = false ∧ (spire s 0 0).st = .running ∧ (spire s 0 0).mesh = none ∧ (spire s 0 0).wait = none) ∧
    spireHolds (spv 0 { cwp := 7 }) 0 0 0 = true := by decide
/-- 08 R186: TRAP in window 7 halts the Spire with HCAUSE 4. -/
theorem test_trap_nested : (sp0 (exec (.trap 0 0 0x94000003) (sp7 0x94000003 0 0))).hcause = 4 := by decide
theorem test_illegal_word : (sp0 (exec (.add 0 0 0) (sp 0 0 0))).xcode = 2 := by decide
theorem wit_SpireSpecialRegisters : spireIssues (sp 0x8C200010 0 0) 0 0 0x8C200010 .rds = true ∧ iImm 0x8C200010 = 0x10 ∧
    spireIssues (sp 0x90200006 0 0) 0 0 0x90200006 .wrs = true ∧ iImm 0x90200006 = 6 ∧
    spireIssues (sp 0x8C200007 0 0) 0 0 0x8C200007 .rds = true := by decide
/-- Queue 0 of die 0 enabled with 8 entries of 32 bytes at Vault 0, n of them held. -/
def withQ (s : State) (n : Nat) : State :=
  setQueue s 0 0 { en := true, ldepth := 3, occ := n, seq := BitVec.ofNat 32 n }
theorem wit_SpireQueueOperations : spireIssues (withQ (sp 0xA0221800 0 0x20) 7) 0 0 0xA0221800 .qpush = true ∧
    nameHere (withQ (sp 0xA0221800 0 0x20) 7) 0 0 7 = true ∧ (queue (withQ (sp 0xA0221800 0 0x20) 7) 0 0).occ < 2 ^ 3 ∧
    2 ^ 3 ≤ (queue (withQ (sp 0xA0221800 0 0x20) 8) 0 0).occ ∧
    spireIssues (withQ (sp 0xA4221800 0 0x40) 1) 0 0 0xA4221800 .qpop = true ∧
    (popEntry (withQ (sp 0xA4221800 0 0x40) 1) 0 0).toOption.isSome = true ∧ nameBad t0 0x80 7 = true ∧
    spireIssues (sp 0xA0221801 0 0x20) 0 0 0xA0221801 .qpush = true := by decide
/-- A name of die 1 (0x205) seen from die 0, whose link to die 1 is UP or not. -/
theorem wit_SpireQueueOperations_2 : (let s := setEndp (sp 0xA0221800 0x205 0x20) 2 { st := .up }
     spireIssues s 0 0 0xA0221800 .qpush = true ∧ nameFar s 0 0x205 7 = true ∧ nameEp s 0 0x205 = 2 ∧ epOpen s 2 = true) ∧
    (let s := sp 0xA4221800 0x205 0x40
     spireIssues s 0 0 0xA4221800 .qpop = true ∧ nameFar s 0 0x205 7 = true ∧ epOpen s 2 = false) ∧
    (let s := withQ (sp 0xA0221800 0 0x20) 7
     let u := { s with c0 := { s.c0 with vaultClearing := true } }
     spireIssues u 0 0 0xA0221800 .qpush = true ∧ (cd u 0).vaultClearing = true ∧ (queue u 0 0).en = true ∧ nameHere u 0 0 7 = true) := by
  decide
theorem wit_SpireBellOperations : spireIssues (sp 0xA8221800 5 1) 0 0 0xA8221800 .badd = true ∧
    spireIssues (sp 0xAC221800 5 1) 0 0 0xAC221800 .bwait = true ∧ spireIssues (sp 0xAC221801 5 1) 0 0 0xAC221801 .bwait = true ∧
    nameHere t0 0 5 8 = true ∧ nameBad t0 0x100 8 = true := by decide
theorem wit_SpireBellOperations_2 : (let s := setEndp (sp 0xA8221800 0x205 1) 2 { st := .up }
     spireIssues s 0 0 0xA8221800 .badd = true ∧ nameFar s 0 0x205 8 = true ∧ epOpen s (nameEp s 0 0x205) = true) ∧
    (let s := sp 0xAC221800 0x205 1
     spireIssues s 0 0 0xAC221800 .bwait = true ∧ nameFar s 0 0x205 8 = true ∧ epOpen s (nameEp s 0 0x205) = false) := by decide
/-- 08 R193, 10 R230: a BADD to die 1 goes out over the link, and the Spire waits for its answer. -/
theorem test_badd_far :
    let t := after (exec (.badd 0 0 0xA8221800) (setEndp (sp 0xA8221800 0x205 1) 2 { st := .up }))
    (endp t 2).txq.map (fun f => wordAt f.body 5) = [1] ∧ (spire t 0 0).wait.isSome = true := by decide
theorem test_badd : (bell (after (exec (.badd 0 0 0xA8221800) (sp 0xA8221800 5 1))) 0 5).count = 1 := by decide
theorem test_qpush : (queue (after (exec (.qpush 0 0 0xA0221800) (withQ (sp 0xA0221800 0 0x20) 7))) 0 0).occ = 8 := by decide
theorem wit_SpireWaitsEnd : spireIssues (sp 0xB0221800 5000001 0) 0 0 0xB0221800 .waitt = true ∧
    spireIssues (sp 0xB0221800 5000000 0) 0 0 0xB0221800 .waitt = true ∧ (cd t0 0).slewed = false ∧
    (let s := setSpire t0 0 0 { st := .waiting, ie := true, tcmp := 1, wait := some ⟨.waitt, 1, 0, 0, 5000000, some 5000000, false, 0⟩ }
     (spire s 0 0).st = .waiting ∧ (spire s 0 0).cwp ≠ 7 ∧ (spire s 0 0).tcmp.toNat ≤ s.tb.toNat) := by decide
/-- Spire 0 in a wait of kind k with its deadline past and a TIMER due. -/
def waitS (k : SpWaitKind) (far : Bool) : State :=
  setSpire t0 0 0 { st := .waiting, ie := true, tcmp := 1, wait := some ⟨k, 1, 0, 0, 0, some 5000000, far, 0⟩ }
theorem wit_SpireWaitsEnd_2 : (∀ k ∈ [SpWaitKind.qpush, .qpop, .bwait], let s := waitS k false
     (spire s 0 0).st = .waiting ∧ (cd s 0).slewed = false ∧ ((spire s 0 0).wait.map (·.kind)) = some k ∧
      (5000000 : Time).toNat ≤ s.tb.toNat) ∧
    queTakes (waitS .qpush false) 0 0 = false ∧
    (let s := setQueue (waitS .qpush false) 0 0 { en := true, ldepth := 3, pushes := [⟨.spire 0 0, 0, 0, []⟩] }
     (spire (admitAll s 0 0) 0 0).wait = none) := by decide
theorem wit_SpireWaitsEnd_3 : (let s := setBell (waitS .bwait false) 0 0 { waiters := [⟨.spire 0 0, 1, false⟩] }
     heldBy s (.spire 0 0) = true ∧ s.mstate = .run ∧ (spire s 0 0).mesh = none ∧ (spire s 0 0).cwp ≠ 7 ∧
      heldMet s (.spire 0 0) = false) ∧
    (let s := setParty (waitS .bwait true) 10 { outst := [⟨3, 0, .spire 0 0, ⟨[], []⟩, true, 2, 1⟩] }
     heldBy s (.spire 0 0) = false ∧ (findAsk s (.spire 0 0)).map (fun e => (e.1, e.2.sent)) = some (10, true)) := by decide
/-- 08 R193: the deadline of a QPUSH that still waits. -/
theorem test_push_deadline : spReg (sp0 (exec (.deadlineTimeout 0 0) (waitS .qpush false))) 1 = 3 := by decide
theorem wit_SpireStartStop : (cd t0 0).slewed = false ∧ t0.mstate = .run ∧ (spire t0 0 0).st = .held ∧
    (spire (sp 0 0 0) 0 0).st = .running := by decide
theorem wit_SpireStartStop_2 : regsUp t0 = true ∧ ({ t0 with mstate := .halt } : State).mstate ≠ .run ∧
    (spire (waitS .waitt false) 0 0).st = .waiting ∧ (spire (spMesh 0) 0 0).mesh ≠ none ∧
    (let s := setBell (waitS .bwait false) 0 0 { waiters := [⟨.spire 0 0, 1, false⟩] }
     heldBy s (.spire 0 0) = true ∧ heldMet s (.spire 0 0) = false) := by decide
theorem wit_SpireStartStop_3 : (let s := { t0 with mstate := .boot, boot := { t0.boot with rel := 2 } }
    s.mstate = .boot ∧ s.boot.rel = 2 ∧ (spire s 0 0).st = .held) ∧ ¬ (State.reset.mstate = .boot ∧ State.reset.boot.rel = 2) := by decide
theorem wit_SpireWordsRoundTrip : spArgsOk .add { rd := 1, rs1 := 2, rs2 := 3 } = true ∧
    spEncode .add { rd := 1, rs1 := 2, rs2 := 3 } = 0x04221800 := by decide

/-! ### Time, supplies, registers, faults (chapters 2, 16, 17) -/

theorem wit_StepRunsFrontCommand : ({ t0 with pending := [.timeBaseStart] } : State).pending = .timeBaseStart :: [] ∧ t0.pending = [] := by
  decide
theorem test_step_idle : (after (step t0)).tb = 5000010 := by decide
theorem test_step_front : (after (step { t0 with pending := [.bellAdd 0 5 3] })).pending = [] ∧
    (bell (after (step { t0 with pending := [.bellAdd 0 5 3] })) 0 5).count = 3 := by decide
theorem wit_TimeBase : t0.pending = [] ∧ tbRuns t0 = true ∧ (∀ d : Fin 4, (cd t0 d).slewed = false) ∧
    ({ t0 with tbStarted := false } : State).tbStarted = false ∧ State.reset.mstate = .reset := by decide
/-- A listed endpoint of a die whose VCORE has moved too fast, as the die idles. -/
theorem wit_TimeBase_2 : (let s := setEndp t0 3 { st := .up }
    let u := { s with c1 := { s.c1 with slewed := true } }
    (cd u 1).slewed = true ∧ tabFind? u.nld.eps 3 ≠ none ∧ u.pending = [] ∧ u.tbStarted = true ∧ u.refclk = true ∧ u.mstate ≠ .reset) := by decide
/-- 02 R47: the count passes from its last value to 0. -/
theorem test_tb_wraps : (after (step { t0 with tb := 0xFFFF_FFFF_FFFF_FFFA })).tb = 0 := by decide
/-- 02 R53: the window of 4 us to 5 us reports once. -/
theorem test_speed_window : (after (exec (.speedWindowEnd 4 100) t0)).hsys.rate = 100 ∧
    (after (exec (.speedWindowEnd 4 99) (after (exec (.speedWindowEnd 4 100) t0)))).hsys.rate = 100 := by decide
theorem wit_TimeBaseReads : reqReaches (sp 0 0 0) (.spire 0 0) 1 = true ∧ reqReaches t0 .host 4 = true := by decide
theorem wit_TimeBaseReads_2 : reqReaches t0 (.spire 0 0) 1 = false ∧ (Requester.host : Requester) ≠ .spire 0 0 ∧
    (fabRead t0 (reqCode .host) 4 0x104).isSome = true ∧
    (let s := { t0 with c1 := { t0.c1 with slewed := true } }
     (cd s 1).slewed = true ∧ reqReaches s .host 1 = true) := by decide
/-- 02 R49: the high word is the one captured with the low word. -/
theorem test_tb_shadow : (fabRead { after (exec (.sysTbLoRead .host 4) { t0 with tb := 0x1_FFFF_FFF0 }) with tb := 0x2_0000_0000 }
    (reqCode .host) 4 0x104).map Prod.fst = some 1 := by decide
theorem wit_SuppliesAndReset : State.reset.boot.updBusy = none ∧ State.reset.power.powered = false ∧
    (let s := { t0 with power := { t0.power with powered := true, good := true, rstN := true } }
     s.boot.updBusy = none ∧ s.power.powered = true ∧ s.power.rstN = true ∧ s.mstate ≠ .reset) ∧
    (let s := { State.reset with power := { State.reset.power with powered := true, rstN := true } }
     s.mstate = .reset ∧ s.power.good = false) := by decide
/-- A CHECK, and a WRITE to slot B, under way. -/
theorem wit_SuppliesAndReset_2 : (let s := { t0 with boot := { t0.boot with updBusy := some (3, true) } }
    s.boot.updBusy = some (3, true) ∧ memWf 0xFF s.flash = true) ∧
    (let s := { t0 with boot := { t0.boot with updBusy := some (2, true) }, flash := [(5, 1)] }
     s.boot.updBusy = some (2, true) ∧ memWf 0xFF s.flash = true ∧ slotBase s true ≤ slotBase s true + 1) := by decide
theorem test_power_good : (after (exec (.powerGood 0) { State.reset with power := { State.reset.power with powered := true, rstN := true } })).mstate
    = .boot := by decide
theorem test_power_good_test : (after (exec (.powerGood 1) { State.reset with power := { State.reset.power with powered := true, rstN := true } })).mstate
    = .reset := by decide
theorem wit_GovernorSensorsAndStalls : tbRuns t0 = true ∧ t0.power.capE.length = 4 ∧ t0.boot.paused = false ∧
    t0.power.vapp.all (fun v => decide (v = 0)) = false ∧ (sysDie { t0 with hsys := { stallEn := true } } 4).stallEn = true ∧
    (({ samples := [1, 2, 3, 4, 5, 6, 7] } : Sensor).samples.length = 7) ∧ (0 : BitVec 16) ∉ (sysDie t0 4).episodes := by decide
/-- Sensor 0 with samples x, 16 of them at or above each threshold that x reaches, so that one more sets the flag; and the codes at 0
with the power above the limit. -/
def hotS (x : BitVec 12) : State :=
  let th : Int → Thresh := fun t => { above := if t ≤ x.toInt then 16 else 0 }
  { t0 with power := { t0.power with sensors :=
    [(0, { samples := List.replicate 7 x, valid := true, warn := th 380, slow := th 420, halt := th 472 })] } }
theorem wit_GovernorSensorsAndStalls_2 : (∀ e ∈ [((385 : BitVec 12), 1), (430, 2), (480, 3)], let s := hotS e.1
    let u := thermalCounts (sampleAll s [e.1])
    tbRuns s = true ∧ s.boot.paused = false ∧ dieThermal s 0 < dieThermal u 0 ∧ dieThermal u 0 = e.2 ∧
      ∀ k : Fin 6, k ≠ 0 → dieThermal u k ≤ dieThermal s k) ∧
    (let s := { t0 with power := { t0.power with vapp := [0, 0, 0, 0], capE := [0, 0, 0, 0] } }
     tbRuns s = true ∧ s.power.vapp.all (fun v => decide (v = 0)) = true ∧ 10 * max 15 (min 60 s.power.limit.toNat) < (700 : BitVec 16).toNat ∧
      s.power.unmet = false) := by decide +kernel
/-- 16 R384: the step to HALT writes THM_HALT and halts the machine. -/
theorem test_thermal_halt : (after (exec (.sensorSample [480]) (hotS 480))).mstate = .halt := by decide +kernel
/-- 16 R378: in RUN the rails move one step per tick toward the requested code. -/
theorem test_governor : (after (exec (.governorTick 0) { t0 with power := { t0.power with vreq := [40, 30, 20, 30], limit := 60 } })).power.vapp
    = [31, 30, 29, 30] := by decide
theorem wit_RegisterWrites : (spire (sp 0 0 0) 0 0).st = .running ∧ dieAnswers (sp 0 0 0) (reqAgent (.spire 0 0)) 0 = true ∧
    (regRead (sp 0 0 0) (reqAgent (.spire 0 0)).req 0 0x120).isSome = true ∧ (0x120 : Nat) % 4 = 0 := by decide +kernel
theorem wit_RegisterWrites_2 : (let s := { t0 with host := { t0.host with perst := false } }
    s.host.perst = false ∧ dieAnswers s (reqAgent .host) 4 = true ∧ (regRead s (reqAgent .host).req 4 0x100000).isSome = true) ∧
    wdOver t0 = false ∧ (cd t0 0).slewed = false ∧ t0.mstate ≠ .reset := by decide +kernel
/-- 00 R8: SYS_STALL_CTL keeps EN and LIMIT alone. -/
theorem test_reserved_bits : (regRead (regWrite t0 0 0x120 0xFFFFFFFF) 0 0 0x120).map Prod.fst = some 0x8000FFFF := by decide
theorem wit_FaultLog : t0.mstate ≠ .reset ∧ (t0.faults.tail - t0.faults.head).toNat < 256 ∧
    256 ≤ ({ t0.faults with tail := 256 }.tail - ({ t0.faults with tail := 256 } : Faults).head).toNat ∧
    firstOfSource [⟨[0, 1, 2, 3, 4, 5, 6, 7]⟩] 0 = true := by decide
/-- One record in the log, to go to queue 0 of die 0, which holds n entries. -/
def logS (n : Nat) : State := { withQ t0 n with faults := { qEn := true, tail := 1, log := [(0, [1, 2, 0, 4, 5, 6, 7, 8])] } }
theorem wit_FaultLog_2 : (let s := logS 7
     s.mstate ≠ .reset ∧ s.faults.qNext ≠ s.faults.tail ∧ diesJoined s 4 0 = true ∧ (cd s 0).slewed = false ∧
      s.faults.qEn = true ∧ faultAsked s = false ∧ wordAt (logRecord s 0) 2 = 0 ∧ s.faults.auto = false) ∧
    (let s := setParty (logS 7) 20 { outst := [⟨0, 0, .faultQueue, ⟨body16 [0x50000000], []⟩, false, 12, 1⟩] }
     faultAsked s = true ∧ txnKind ⟨body16 [0x50000000], []⟩ = 5) ∧ epOpen (setEndp t0 12 { st := .up }) 12 = true ∧
    field (wordAt [1, 2, 3, 4, 5, 6, 7, 8] 1) 12 9 = 0 ∧ epOpen t0 12 = false := by decide
/-- The record's QPUSH as a request. -/
theorem wit_FaultLog_3 : (let o : Outst := ⟨0, 0, .faultQueue, ⟨body16 [0x50000000], []⟩, true, 12, 1⟩
    o.who = .faultQueue ∧ txnKind o.txn = 5) := by decide
/-- 17 R400, 10 R230: the record goes as a QPUSH over the link to the fault queue's die, once. -/
theorem test_fault_push :
    let t := after (exec .faultQueueDeliver (setEndp (logS 7) 12 { st := .up }))
    (endp t 12).txq.map (fun f => (wordAt f.body 0, wordAt f.body 8)) = [(0x50000000, 1)] ∧ t.faults.qNext = 0 ∧
      after (exec .faultQueueDeliver t) = t := by decide
/-- 17 R398: a record takes the number TAIL, and the tail moves on. -/
theorem test_raise : (raise t0 [1, 2, 3, 4, 5, 6, 7, 8]).faults.tail = 1 ∧
    (raise t0 [1, 2, 3, 4, 5, 6, 7, 8]).faults.log = [(0, [1, 2, 0, 4, 5, 6, 7, 8])] := by decide
theorem wit_WatchdogAndRecovery : wdOver t0 = false ∧
    (let s := { t0 with faults := { t0.faults with wdPeriod := 5, wdAct := 2 } }
     wdOver s = true ∧ s.faults.wdPeriod.toNat * 1000000 ≤ (s.tb - s.faults.wdFrom).toNat) ∧
    resumeOk { t0 with mstate := .halt, faults := { t0.faults with hmask := 16 } } = true ∧
    ({ t0 with power := { t0.power with good := true, rstN := true } } : State).power.good = true := by decide
/-- In HALT by bits 0 and 1 of HMASK, with the temperatures and the clock in order, and nothing held at a front-end. -/
theorem wit_WatchdogAndRecovery_2 :
    let s := { t0 with mstate := .halt, faults := { t0.faults with hmask := 3 }, power := { t0.power with sensors := [(0, { valid := true })] } }
    s.mstate = .halt ∧ s.faults.hmask.getLsbD 2 = false ∧ s.faults.hmask.getLsbD 3 = false ∧ haltClear s = true ∧ tbRuns s = true ∧
      (∀ d : Fin 4, (cd s d).queues = []) := by decide
/-- The watchdog's write to the field die, with the link to it open and closed. -/
theorem wit_WatchdogAndRecovery_3 :
    let s := { setEndp t0 16 { st := .up } with faults := { t0.faults with wdPeriod := 5, wdAct := 1 } }
    wdOver s = true ∧ s.faults.wdAct = 1 ∧ epOpen s 16 = true ∧ epOpen t0 16 = false := by decide
theorem test_wdog_halts : (after (exec .machineWdogExpiry { t0 with faults := { t0.faults with wdPeriod := 5, wdAct := 2 } })).mstate = .halt := by
  decide +kernel

/-! ### Domes, Towers, Plinths (chapters 4, 5) -/

/-- A command whose first words are w and the others 0. -/
def cmd (w : List Word) : UnitCmd := ⟨w ++ List.replicate (8 - w.length) 0, 7, 0, 0⟩
/-- Dome 0 of die 0 with bank 1 in STANDBY and the command w0. -/
def domeS (w0 : Word) : State := setDome t0 0 0 { b1 := { st := .standby }, cmd := some (cmd [w0]) }
theorem wit_DomeCommands : (cd (domeS 0x40000000) 0).vaultErr = [] ∧ (dome (domeS 0x40000000) 0 0).cmd = some (cmd [0x40000000]) ∧
    (dome (domeS 0x40000000) 0 0).b1.st = .standby ∧ (dome (domeS 0x40000000) 0 0).b0.job = none ∧
    masksOk [0xF800_0000, 0, 0, 0, 0, 0xFFFF_FFFF, 0, 0] (cmd [0x40000000]).w = true := by decide
/-- PROGRAM with its areas at the Vault's end, and a PASS of one pair. -/
theorem wit_DomeCommands_2 : masksOk [0xF800_0000, 0x01FF_FFFF, 0x01FF_FFFF, 0, 0, 0xFFFF_FFFF, 0, 0] (cmd [0x20000000, 0x17F0000, 0x17FFFE0]).w = true ∧
    field (wordAt (cmd [0x20000000, 0x17F0000, 0x17FFFE0]).w 1) 24 0 + 65536 ≤ 0x180_0000 ∧
    passOk (cmd [0x10100000]) (passFields (cmd [0x10100000])) = true := by decide
theorem wit_DomeCommands_3 : ({ t0 with tokenWait := [(0, 0, true)] } : State).tokenHeld.length < 32 := by decide
/-- 04 R98: SWAP makes the bank in STANDBY the active one, with bit 27 for good. -/
theorem test_swap : (dome (after (exec (.swap 0 0) (domeS 0x48000000))) 0 0).b1.st = .active ∧
    (dome (after (exec (.swap 0 0) (domeS 0x48000000))) 0 0).sel = true := by decide
theorem test_program_token : (dome (after (exec .programTokenGrant { setDome t0 0 0 { b1 := { job := some {} } } with tokenWait := [(0, 0, true)] })) 0 0).b1
    = { st := .prog, count := 1, job := some {} } := by decide
/-- Tower 0 and Plinth 0 of die 0 with a command each, and a pair at the port from the Tower. -/
def plS (p : Plinth) : State := setPlinth t0 0 0 p
theorem wit_TowerAndIntake : (mulFields (cmd [0x10030000])).map (mulOk (cmd [0x10030000])) = some true ∧
    (mulFields (cmd [0x1A004000])).isSome = true ∧
    (let p : Plinth := { towerPort := [⟨0, 0, 1, 0, false, 0⟩] }
     portPairs p true = [⟨0, 0, 1, 0, false, 0⟩] ∧ rowsRead p 0 = false ∧ (acc p 0).next = 0 ∧ p.held.length < 4096) ∧
    (let p : Plinth := { towerPort := [⟨0, 1, 1, 0, false, 0⟩], cmd := some (cmd [0xB0000000]) }
     rowsRead p 0 = true) := by decide
/-- A pair whose twin is held, one below NEXT, one at NEXT with such a one held, and a MUL that clears rows under a DRAIN. -/
theorem wit_TowerAndIntake_2 :
    (let p : Plinth := { towerPort := [⟨0, 2, 1, 0, false, 0⟩], held := [⟨0, 2, 1, 0, false, 0⟩] }
     portPairs p true = [⟨0, 2, 1, 0, false, 0⟩] ∧ rowsRead p 0 = false ∧ (2 : BitVec 16) ≠ (acc p 0).next ∧ p.held.length < 4096) ∧
    (let p : Plinth := { acc := [(0, ⟨0, 0, 3, 1⟩)], held := [⟨0, 1, 1, 0, false, 0⟩] }
     (1 : BitVec 16).toNat < (acc p 0).next.toNat ∧ rowsRead p 0 = false ∧ ∀ y ∈ p.held, ¬ (y.idx = 0 ∧ y.seg = 4)) ∧
    (let p : Plinth := { cmd := some (cmd [0xA0000000]) }
     rowsRead p 0 = true ∧ (mulFields (cmd [0x10034000])).map (fun c => (mulOk (cmd [0x10034000]) c, c.clear, c.row, c.m))
      = some (true, true, 0, 1)) ∧
    (let p : Plinth := { intRows := [0] }
     rowIsInt p 0 = true ∧ ∀ r : Nat, 0 ≤ r → r < 1 → rowIsInt p r = true) := by
  refine ⟨by decide, by decide, by decide, by decide, ?_⟩
  intro r _ h
  rw [show r = 0 by omega]
  decide
/-- A tree of two finite products, one with a number that is none, and folds with a finite and with an infinite sum. -/
theorem wit_TowerAndIntake_3 :
    (let x : TOp := ⟨shortVal .v8 0x38, 127⟩
     let y : TOp := ⟨shortVal .g8 0x7F, 127⟩
     [(x, x), (x, x)].length ≤ 64 ∧ valIsNaN x.v = false ∧ valIsNaN y.v = true ∧ x.k ≠ 255 ∧ (0x38 : Nat) < 256) ∧
    (let big : TOp := ⟨shortVal .v8 0x38, 254⟩
     big.k < 256 ∧ big.k ≠ 255) ∧
    isFinite b32 (fAdd b32 0 0x3F800000 0x3F800000).1 = true ∧ isFinite b32 (fAdd b32 0 0x7F800000 0).1 = false := by decide +kernel
/-- 03 R62: 1.0 x 1.0 + 1.0 x 1.0 is 2.0 with no error, and a NaN gives the default one. -/
theorem test_tree : (let x : TOp := ⟨shortVal .v8 (7 * 2 ^ shortMant .v8), 127⟩
    ((treeSum [(x, x), (x, x)]).2.1, (treeSum [(x, ⟨shortVal .v8 0x7F, 127⟩)]).1) = (0, 0x7FC00000)) := by decide +kernel
/-- 04 R85, log entry 59: the second of two pairs of one segment leaves the contents unspecified. -/
theorem test_pair_again :
    (after (exec (.plinthPairIntake 0 0 true) (plS { towerPort := [⟨0, 2, 1, 0, false, 0⟩], held := [⟨0, 2, 1, 0, false, 0⟩] }))).free = 2 := by
  decide
/-- 05 R114: a pair (1.0, 0) folded into an empty accumulator. -/
theorem test_fold : acc (plinth (after (exec (.plinthPairIntake 0 0 true) (plS { towerPort := [⟨3, 0, 0x3F800000, 0, false, 0⟩] }))) 0 0) 3
    = ⟨0x3F800000, 0, 1, 1⟩ := by decide
theorem test_held : (plinth (after (exec (.plinthPairIntake 0 0 true) (plS { towerPort := [⟨3, 2, 0x3F800000, 0, false, 0⟩] }))) 0 0).held
    = [⟨3, 2, 0x3F800000, 0, false, 0⟩] := by decide
theorem wit_PlinthCommands : plOk (cmd [0x80000000]) 8 [0xF800_000E, 0x01FF_FF3F, 0, 0, 0, 0, 0, 0xFFFF_FFFF] = true ∧
    plOk (cmd [0x90000000]) 9 [0xFF00_000E, 0x01FF_FF3F, 0, 0x01FF_FFFF, 0, 0, 0, 0xFFFF_FFFF] = true ∧
    (dataFmt 0).isSome = true ∧
    plOk (cmd [0xC0000000]) 12 [0xF800_000E, 0x01FF_FF3F, 0, 0x01FF_FFFF, 0, 0, 0, 0xFFFF_FFFF] = true ∧
    plOk (cmd [0xB0000000]) 11 [0xF000_000E, 0x01FF_FF3F, 0, 0x01FF_FFFF, 0, 0, 0, 0xFFFF_FFFF] = true ∧
    (drainFields (cmd [0xA0000000])).map (drainOk (cmd [0xA0000000])) = some true ∧
    (plinth (plS { cmd := some (cmd [0x80000000]) }) 0 0).settling = false := by decide
/-- DRAIN in each mode, 0 to 5, with its y area behind its destination, of one row of one column. -/
theorem wit_PlinthCommands_2 : ∀ m : Fin 6, let u := cmd [0xA0000000 + BitVec.ofNat 32 (m * 2 ^ 22), 0, 0x3F800000, 0, 0x40]
    (drainFields u).map (fun c => (c.mode, drainOk u c, c.k)) = some (m.val, true, 1) ∧
    (drainFields u).any (fun c => decide (c.daddr + 1 * nfSize c.df ≤ c.yaddr)) = true := by decide
theorem wit_PlinthCommands_3 : (let p : Plinth := { cmd := some (cmd [0xB0000000]), settling := true }
     p.settling = true ∧ p.awaiting = false ∧ ∀ x ∈ p.held, ¬ (0 ≤ x.idx / 64 ∧ x.idx / 64 < 1)) ∧
    (let p : Plinth := { cmd := some (cmd [0xB0000000]), held := [⟨3, 2, 0, 0, false, 0⟩] }
     ∃ x ∈ p.held, 0 ≤ x.idx / 64 ∧ x.idx / 64 < 1) ∧
    (plinth (plS { cmd := some (cmd [0xA0000000]), reseed := true }) 0 0).reseed = true ∧
    memWf 0 (cd (plS {}) 0).vault = true ∧ regsUp (plS {}) = true ∧ (4 : BitVec 18).toNat % 4 = 0 ∧
    rowIsInt ({ intRows := [0] } : Plinth) 0 = true := by decide
/-- For each Plinth command words that it refuses: a reserved bit set, an area past the Vault's end, 65 rows in a chain. -/
theorem wit_PlinthCommands_4 :
    plOk (cmd [0x80000001]) 8 [0xF800_000E, 0x01FF_FF3F, 0, 0, 0, 0, 0, 0xFFFF_FFFF] = false ∧
    (∀ f ∈ [NFmt.v8, .g8, .b16, .b32, .i8, .i16, .i32], 0x180_0000 < field (wordAt (cmd [0x90000000, 0, 0, 0x17FFFFF]).w 3) 24 0 +
      preLen (cmd [0x90000000, 63, 0, 0x17FFFFF]) f) ∧
    (drainFields (cmd [0xA0000000])).map (drainOk (cmd [0xA0000000, 0, 0, 0, 0, 0, 1])) = some false ∧
    plOk (cmd [0xB0000001]) 11 [0xF000_000E, 0x01FF_FF3F, 0, 0x01FF_FFFF, 0, 0, 0, 0xFFFF_FFFF] = false ∧
    0x180_0000 < field (wordAt (cmd [0xC0000000, 0, 0, 0x17FFFFC]).w 3) 24 0 + 0 * 512 + 8 ∧
    64 < field (wordAt (cmd [0xD0000000, 0x4000]).w 1) 15 8 + 1 := by decide
/-- 05 R122: ROWMAX of one element 3.0 goes to YADDR as binary32. -/
theorem test_rowmax : (let u := cmd [0xA6400000, 0, 0x3F800000, 0, 0x40]
    memBytes 0 (after (exec (.drain 0 0) (plS { cmd := some u, acc := [(0, ⟨0x40400000, 0, 1, 1⟩)] }))).c0.vault 0x40 4)
    = [0, 0, 0x40, 0x40] := by decide +kernel
/-- 05 R129: CLEAR with N = 1 leaves column 1. -/
theorem test_clear : (plinth (after (exec (.clear 0 0) (plS { cmd := some (cmd [0x80000000]), acc := [(0, ⟨1, 2, 3, 4⟩), (1, ⟨1, 2, 3, 4⟩)] }))) 0 0).acc
    = [(1, ⟨1, 2, 3, 4⟩)] := by decide
theorem test_clear_done : (plinth (after (exec (.clear 0 0) (plS { cmd := some (cmd [0x80000000]) }))) 0 0).doneQ
    = [⟨8, 0, 0, 0, 0, 7, 0, 0, false⟩] := by decide
theorem wit_PlinthChains : (∀ k : Fin 4, (cd t0 k).slewed = false) ∧
    plOk (cmd [0xD8000000, 0, 0, 0x40]) 13 [0xFC00_000E, 0x01FF_FF3F, 0xFFFF_0000, 0xFFC0, 0xFFC0, 0, 0, 0xFFFF_FFFF] = true ∧
    plOk (cmd [0xD4000000]) 13 [0xFC00_000E, 0x01FF_FF3F, 0xFFFF_0000, 0xFFC0, 0xFFC0, 0, 0, 0xFFFF_FFFF] = true ∧
    settled ({} : Plinth) 0 1 = true ∧ diesJoined t0 0 0 = true ∧ chainBuf ({} : Plinth) 0 = none := by decide
/-- A position in the middle of a chain whose tile has come whole, with NEXT on die 1. -/
def chainS (w0 next : Word) : State :=
  plS { cmd := some (cmd [w0, 0, 0, next]), awaiting := true, read := some (0, 1), acc := [(0, ⟨5, 6, 1, 2⟩)],
        chainBufs := [⟨0, 1, 1, [(0, [(7, 8, 1)])], false⟩] }
theorem wit_PlinthChains_2 : (let p := plinth (chainS 0xD0000000 0x240) 0 0
     p.awaiting = true ∧ p.chainSent = 0 ∧ p.settling = false ∧ chainBuf p 0 = some ⟨0, 1, 1, [(0, [(7, 8, 1)])], false⟩ ∧
      (tabGet [] [(0, [((7 : Word), (8 : Word), 1)])] 0).length = 1) ∧
    plOk (cmd [0xD0000000, 0, 0, 0x240]) 13 [0xFC00_000E, 0x01FF_FF3F, 0xFFFF_0000, 0xFFC0, 0xFFC0, 0, 0, 0xFFFF_FFFF] = true ∧
    (∀ k : Fin 4, ∀ j : Fin 8, (plinth (chainS 0xD0000000 0x240) k j).outRows = []) ∧
    chainLost (chainS 0xD0000000 0x240) 0 0x240 = false ∧ chainLost (chainS 0xD0000000 0x240) 0 0 = false ∧
    epToward 0 1 = 2 ∧ epOpen (setEndp (chainS 0xD0000000 0x240) 2 { st := .up }) 2 = true ∧
    chainLost (chainS 0xD0000000 0x1E00) 0 0x1E00 = true := by decide
/-- NEXT and PREV lost, no input waiting at NEXT, and a tile whole though PREV is lost. -/
theorem wit_PlinthChains_3 : chainInputs (plS { cmd := some (cmd [0xD8000000, 0, 0, 0x40]) }) 0 1 = [] ∧
    (let s := { chainS 0xD0000000 0x40 with nld := { t0.nld with isoDies := 2 } }
     chainLost s 0 0x240 = true ∧ chainLost s 0 0x40 = false ∧
      chainBuf (plinth s 0 0) 0 = some ⟨0, 1, 1, [(0, [(7, 8, 1)])], false⟩ ∧ (plinth s 0 0).awaiting = true) ∧
    isFinite b32 (fAdd b32 0 0x3F800000 0).1 = true ∧ isFinite b32 (fAdd b32 0 0xFF800000 0).1 = false := by decide +kernel
/-- One and two tiles that wait for a position, and a position that sends its row to die 1 while PREV on die 3 is lost: the row still
waits to be sent, or the link has taken it. -/
def sendS (l : List Outst) : State :=
  let s := { plS { cmd := some (cmd [0xD0000000, 0, 0, 0x240, 0x600]), awaiting := true, chainSent := 1 } with
    nld := { t0.nld with isoDies := 8 } }
  setParty s 10 { outst := l }
theorem wit_PlinthChains_4 :
    (let p : Plinth := { chainBufs := [⟨0, 1, 1, [(0, [(7, 8, 1)])], false⟩] }
     let q : Plinth := { chainBufs := p.chainBufs ++ [⟨0, 0, 0, [], true⟩, ⟨0, 1, 1, [(0, [(9, 8, 1)])], false⟩] }
     (∀ x ∈ p.chainBufs, x.chid = 0 → x.m ≤ x.rows.length) ∧ (∀ x ∈ q.chainBufs, x.chid = 0 → x.m ≤ x.rows.length) ∧
      (p.chainBufs.filter (fun x => !x.broken || decide (x.rows ≠ []))).length = 1 ∧
      (q.chainBufs.filter (fun x => !x.broken || decide (x.rows ≠ []))).length = 2) ∧
    (∀ x ∈ allAsks (chainS 0xD0000000 0x240), x.2.who ≠ .unit (.plinth 0 0)) ∧
    (∀ b : Bool, let o : Outst := ⟨2, 0, .unit (.plinth 0 0), ⟨body16 [0x80000000], []⟩, b, 2, 1⟩
     let s := sendS [o]
     (∀ k : Fin 4, (cd s k).slewed = false) ∧ (plinth s 0 0).outRows = [] ∧ (plinth s 0 0).chainSent ≠ 0 ∧
      chainLost s 0 0x240 = false ∧ chainLost s 0 0x600 = true ∧ (s.nld.parties.map Prod.fst).Pairwise (· < ·) ∧
      allAsks s = [(10, o)] ∧ txnKind o.txn = 8 ∧ askWaits s o = false) := by decide
/-- 10 R241: the row goes to die 1 as one CHN of 768 bytes: a header and six pairs. -/
theorem test_chain_middle :
    let t := after (exec (.chainCombine 0 0) (setEndp (chainS 0xD0000000 0x240) 2 { st := .up }))
    (endp t 2).txq.map (·.fk) = [2, 3, 4, 3, 4, 3, 4, 3, 4, 3, 4, 3, 4] ∧ (plinth t 0 0).chainSent = 1 ∧ (plinth t 0 0).chainBufs = [] := by
  decide +kernel
/-- 05 R124: FIRST hands its tile to NEXT, Plinth 1 of the die. -/
theorem test_chain_first : (plinth (after (exec (.chain 0 0) (plS { cmd := some (cmd [0xD8000000, 0, 0, 0x40]), acc := [(0, ⟨5, 6, 1, 2⟩)] }))) 0 1).chainBufs
    = [⟨0, 1, 1, [(0, [(5, 6, 2)])], false⟩] := by decide
theorem wit_TopKSelectsLargest : ∀ e ∈ ([⟨1, none, none⟩, ⟨0x3F800000, none, none⟩] : List DElem), e.cmp = none ∧ e.v < 2 ^ 32 := by decide
theorem test_topk : (topK 1 [⟨1, none, none⟩, ⟨0x3F800000, none, none⟩, ⟨0x7FC00000, none, none⟩]).map (·.1) = [1] := by decide

/-! ### Lanterns (chapter 6) -/

/-- A RUN at its first instruction. -/
def run0 : LnRun := ⟨0, 0, [0, 0, 0, 0, 0], 0, 0, 0, false, false, none⟩
/-- Lantern 0 of die 0 in that RUN, with the instruction x, 2.0 in word 0 of t1 and 3.0 in word 0 of t2. -/
def lnS (x : Nat) : State :=
  let v : Lantern := { tile := [(256, 0x40000000), (512, 0x40400000)], cmd := some (cmd [0x10000000]), run := some run0 }
  setLantern { t0 with c0 := { t0.c0 with lnPmem := memPut 0 [] 0 (natLe 8 x) } } 0 0 v
def ln0 (o : Host.Outcome State Fault Refusal) : Lantern := lantern (after o) 0 0
/-- The word of an instruction from its fields (06 Table 6-3): OPC, TD, TA, TB, FMT. -/
def lnW (opc td ta tb fmt : Nat) : Nat := opc * 2 ^ 57 + td * 2 ^ 52 + ta * 2 ^ 47 + tb * 2 ^ 42 + fmt * 2 ^ 39

theorem wit_LanternRuns : lnIssues (lnS (lnW 1 0 0 0 0)) 0 0 run0 (lnDecode (lnW 1 0 0 0 0)) ∧
    (lantern (lnS (lnW 1 0 0 0 0)) 0 0).cmd = some (cmd [0x10000000]) := by unfold lnIssues; decide
theorem wit_LanternRuns_2 : lnLegal (lnS 0) 0 0 run0 = false ∧ (lantern (lnS 0) 0 0).run = some run0 ∧
    lnIssues (lnS (lnW 2 0 0 0 0)) 0 0 run0 (lnDecode (lnW 2 0 0 0 0)) := by unfold lnIssues; decide
theorem wit_LanternRuns_3 : (let s := setLantern (sp 0 0 0) 0 0 { held := [{ who := .spire 0 0 }] }
     let m : MeshAcc := ⟨1, false, false, 4, 0, BitVec.ofNat 48 0x300000000, 0, true, none⟩
     let u := setSpire s 0 0 { spire s 0 0 with mesh := some m }
     (lantern u 0 0).run = none ∧ (lantern u 0 0).held = [{ who := .spire 0 0 }] ∧ (spire u 0 0).mesh = some m ∧ m.held = true ∧
      m.dev.toNat = u.nld.chip.toNat * 2 ^ 45 + 0 * 2 ^ 41 + 0x300000000 + 0 * 0x8000 + 0) ∧
    (lantern (setLantern t0 0 0 { cmd := some (cmd [0x10000000]), held := [{ who := .boot }] }) 0 0).held ≠ [] ∧
    (∀ x ∈ lanternRows 0 0, x.1 ≠ 0) ∧ lnIssues (lnS (lnW 3 0 0 0 0)) 0 0 run0 (lnDecode (lnW 3 0 0 0 0)) := by
  unfold lnIssues; decide
/-- Two accesses that wait: the turn goes past the input served last, then to the lowest. -/
theorem wit_LanternRuns_4 : (let v : Lantern := { held := [{ who := .spire 0 5 }, { who := .spire 0 1 }], heldRr := 1001 }
    v.held ≠ [] ∧ nextHeld 0 v = some { who := .spire 0 5 } ∧ v.heldRr < heldInput 0 { who := .spire 0 5 }) ∧
    (let v : Lantern := { held := [{ who := .spire 0 5 }, { who := .spire 0 1 }], heldRr := 1005 }
     nextHeld 0 v = some { who := .spire 0 1 } ∧ ∀ x ∈ v.held, heldInput 0 x ≤ v.heldRr) := by decide
/-- 06 R158: the load that waited gets its word, and the access leaves the list. -/
theorem test_lantern_access :
    let s := setLantern (sp 0 0 0) 0 0 { tile := [(0, 7)], held := [{ who := .spire 0 0 }] }
    let m : MeshAcc := ⟨1, false, false, 4, 0, BitVec.ofNat 48 0x300000000, 0, true, none⟩
    let t := after (exec (.lanternMemAccess 0 0) (setSpire s 0 0 { spire s 0 0 with mesh := some m }))
    ((spire t 0 0).mesh.map (·.answer)) = some (some (0, 7)) ∧ (lantern t 0 0).held = [] := by decide
theorem test_end : (ln0 (exec (.lntEnd 0 0) (lnS (lnW 2 0 0 0 0)))).doneQ.length = 1 := by decide
theorem wit_LanternArithmetic : lnIssues (lnS (lnW 0x20 3 1 2 3)) 0 0 run0 (lnDecode (lnW 0x20 3 1 2 3)) := by
  unfold lnIssues; decide
theorem wit_LanternReductions : lnIssues (lnS (lnW 0x50 3 1 0 3)) 0 0 run0 (lnDecode (lnW 0x50 3 1 0 3)) ∧
    lnIssues (lnS (lnW 0x58 3 1 2 0)) 0 0 run0 (lnDecode (lnW 0x58 3 1 2 0)) := by unfold lnIssues; decide
theorem wit_LanternReductions_2 : 0x7F80_0000 < (0x7FC0_0000 : Word).toNat % 2 ^ 31 := by decide
/-- 1.0, 2.0 and -1.0 as operands, inside the ranges of the bounds. -/
theorem wit_LanternReductions_3 : unpack b32 0x40000000 = .fin false (2 ^ 23) (-22) ∧ unpack b32 0xBF800000 = .fin true (2 ^ 23) (-23) ∧
    aboveDec (2 ^ 23) (-22) 887228 10000 = false ∧ (0x40000000 : Nat) ≠ fOne b32 ∧ aboveDec (2 ^ 23) (-22) 87 1 = false ∧
    scaledLe 1 (-12) (2 ^ 23) (-22) = true ∧ fLt b32 0x3F800000 0x40000000 = true := by decide +kernel
/-- LD at the highest place that 16 rows of binary32 fit, and one byte off it. -/
theorem wit_LanternMemory : lnIssues (lnS (lnW 8 3 0 31 3 + 0x17FFC00)) 0 0 run0 (lnDecode (lnW 8 3 0 31 3 + 0x17FFC00)) ∧
    (dataFmt 3).isSome = true ∧ 0x17FFC00 + 15 * 64 + 16 * 4 = 0x180_0000 ∧
    lnIssues (lnS (lnW 0x0C 3 0 0 0)) 0 0 run0 (lnDecode (lnW 0x0C 3 0 0 0)) := by unfold lnIssues; decide
theorem wit_LanternMemory_2 : (cd (lnS 0) 0).vaultErr = [] ∧ (plinth (lnS 0) 0 0).held = [] ∧ rowsRead (plinth (lnS 0) 0 0) 0 = false := by
  decide

/-! ### Bells and queues (chapter 9) -/

theorem wit_Bells : (cd t0 0).slewed = false ∧ (bell t0 0 5).poisoned = false ∧
    (let s := setBell t0 0 5 { waiters := [⟨.spire 1 2, 9, false⟩, ⟨.spire 0 0, 0, true⟩] }
     (bell s 0 5).waiters = [⟨.spire 1 2, 9, false⟩] ++ ⟨.spire 0 0, 0, true⟩ :: []) ∧
    (bell (setBell t0 0 5 { poisoned := true }) 0 5).poisoned = true := by decide
theorem wit_Bells_2 : regsUp t0 = true ∧ regsUp { t0 with mstate := .safe } = false ∧
    ((spire (waitS .bwait false) 0 0).wait.map (fun x => (x.kind, x.abandon))) = some (.bwait, 0) ∧
    (let h : FeHold := ⟨[0xF0000000, 0, 0, 0, 0, 0, 0, 0], 0, 1, none⟩
     (queue (setQueue t0 0 0 { fe := some h }) 0 0).fe = some h ∧ field (wordAt h.w 0) 31 28 = 15) ∧
    nameHere t0 0 5 8 = true ∧ nameBad t0 0x105 8 = true ∧ nameFar t0 0 0x205 8 = true ∧ epOpen t0 (nameEp t0 0 0x205) = false ∧
    epOpen (setEndp t0 2 { st := .up }) (nameEp t0 0 0x205) = true ∧
    (let s := { t0 with nld := { t0.nld with isoDies := 2, farIso := [(3, 1)] } }
     targetIsolated s 0 (nameChip 0x205) (nameDie 0x205) = true ∧
      (let b := bell (setBell s 0 5 { chips := 8, dies := 2 }) 0 5
       b.dies &&& s.nld.isoDies ≠ 0 ∧ ∃ p ∈ s.nld.farIso, b.chips.getLsbD p.1 = true ∧ b.dies.getLsbD p.2 = true)) := by decide
/-- A front-end that holds a WAIT, in HALT. -/
theorem wit_Bells_3 : (let h : FeHold := ⟨[0xF0000000, 0, 0, 0, 0, 0, 0, 0], 0, 1, none⟩
    let u := setQueue { t0 with mstate := .halt } 0 0 { fe := some h }
    (queue u 0 0).fe = some h ∧ field (wordAt h.w 0) 31 28 = 15 ∧ u.mstate ≠ .run) := by decide
/-- 09 R227: a Spire that waits at a Bell gets POISONED in rd. -/
theorem test_poison_waiter : spReg (sp0 (exec (.bellPoison 0 5) (setBell (waitS .bwait false) 0 5
    { waiters := [⟨.spire 0 0, 9, false⟩] }))) 1 = 4 := by decide
/-- 09 R206: the comparison is signed, so that 0 has reached 0xFFFF_FFFF. -/
theorem test_bell_wraps : (bell (after (exec (.bellAdd 0 5 1) (setBell t0 0 5
    { count := 0xFFFF_FFFF, waiters := [⟨.spire 0 0, 0, false⟩] }))) 0 5) = { waiters := [⟨.spire 0 0, 0, true⟩] } := by decide
theorem wit_QueueEntries : (queue (withQ t0 8) 0 0).en = true ∧ (cd t0 0).vaultErr = [] ∧ 2 ^ 3 ≤ (queue (withQ t0 8) 0 0).occ ∧
    nextInput 5 [3, 9, 7] = 7 ∧ nextInput 9 [3, 9, 7] = 3 := by decide

theorem test_enter_entry : (enterEntry (withQ t0 7) 0 0 1 2 [3, 0, 0, 0, 0, 0, 0, 0]).c0.vault = [(224, 3)] ∧
    (queue (enterEntry (withQ t0 7) 0 0 1 2 [3, 0, 0, 0, 0, 0, 0, 0]) 0 0).seq = 8 := by decide
theorem wit_QueueControl : t0.mstate ≠ .reset ∧ (queue (withQ t0 2) 0 0).pops = [] ∧ (queue (withQ t0 2) 0 0).fe = none ∧
    field (0x8C000000 : Word) 27 24 = 12 ∧ field (0x82000000 : Word) 27 24 < 3 := by decide
theorem wit_QueueControl_2 : (let v : Queue := { en := true, ldepth := 3, occ := 2, pops := [.spire 1 2, .spire 0 0], base := 4 }
     ∀ w ∈ v.pops, ∃ (k : Fin 4) (j : Fin 32), w = .spire k j) ∧
    (let x : Word := 0xC3000000
     field x 27 24 = 3 ∧ ¬ ((queue (withQ t0 2) 0 0).esize = x.getLsbD 30) ∧ (queue (withQ t0 2) 0 0).occ ≠ 0) ∧
    (0 : Nat) * 64 + 2 ^ 3 * 64 ≤ 0x180_0000 ∧ ¬ (0x17FFFC0 + 2 ^ 3 * 32 ≤ 0x180_0000) ∧
    field (0x017FFFC0 : Word) 24 6 * 64 = 0x17FFFC0 := by
  refine ⟨?_, by decide, by decide, by decide, by decide⟩
  intro v w h
  rcases List.mem_cons.mp h with h | h
  · exact ⟨1, 2, h⟩
  · exact ⟨0, 0, by simpa using h⟩
theorem test_flush : (queue (after (exec (.queFlush 0 0) (withQ t0 2))) 0 0).disc = 2 := by decide
/-- Queue 0 feeds Plinth 0, and its head is a CLEAR. -/
def feS : State := { withQ t0 1 with c0 := { (withQ t0 1).c0 with vault := memPut 0 [] 0 (wordLe 0x80000000) } }
theorem wit_QueueFrontEnd : (queue feS 0 0).occ ≠ 0 ∧ (plinth feS 0 0).cmdq.toNat = 0 ∧ unitCmd feS (.plinth 0 0) = none ∧
    unitDones feS (.plinth 0 0) = [] ∧
    (queue (setQueue t0 0 0 { fe := some ⟨[0xF0000000, 0, 0, 0, 0, 0, 0, 0], 0, 0, none⟩ }) 0 0).fe.isSome = true ∧
    unitDones (plS { doneQ := [{}] }) (.plinth 0 0) = [{}] := by decide
/-- The entry w0 with the name x in phase k at the front-end of queue 0, which holds n other entries open. -/
def feHeld (w0 x : Word) (k : Nat) (open_ : List Word := []) : State :=
  setQueue t0 0 0 { en := true, ldepth := 3, fe := some ⟨[w0, x, 1, 0, 0, 0, 0, 0], 0, k, none⟩, open_ := open_ }
theorem wit_QueueFrontEnd_2 : (let s := feHeld 0xF0000000 5 0
     s.mstate = .run ∧ (queue s 0 0).fe.isSome = true ∧ nameHere s 0 5 8 = true ∧ (bell s 0 5).poisoned = false ∧
      ¬ ((bell s 0 5).count - 1).toNat < 2 ^ 31) ∧
    (let s := feHeld 0xF0000000 0x205 0
     nameFar s 0 0x205 8 = true ∧ epOpen (setEndp s 2 { st := .up }) (nameEp s 0 0x205) = true ∧ epOpen s (nameEp s 0 0x205) = false ∧
      nameBad s 0x205 8 = false) ∧
    field (0xE0000000 : Word) 31 28 = 14 ∧ (queue (feHeld 0xE0000000 0x205 1) 0 0).open_ = [] ∧
    (queue (feHeld 0xE0000000 5 1 [7]) 0 0).open_ ≠ [] ∧ field (0xE0000001 : Word) 26 0 ≠ 0 ∧
    (queue (withQ t0 8) 0 0).pushes = [] ∧ (queue (withQ t0 7) 0 0).pops = [] := by decide
/-- Plinth 0 at work with its queue register written meanwhile: queue 0 still feeds it, and queue 5 not yet. -/
theorem wit_QueueFrontEnd_3 : (let s := setPlinth feS 0 0 { cmd := some (cmd [0x80000000]), cmdq := 5, cmdqWas := some 0 }
    (plinth s 0 0).cmd ≠ none ∧ ((plinth s 0 0).cmdqWas.getD (plinth s 0 0).cmdq).toNat = 0 ∧ (plinth s 0 0).cmdq.toNat ≠ 0 ∧
      s.mstate = .run ∧ (queue s 0 0).en = true ∧ (queue s 0 0).occ ≠ 0) := by decide
/-- 09 R213: a WAIT at a Bell of die 1 goes there as a request. -/
theorem test_wait_far : (endp (after (exec (.waitEntry 0 0) (setEndp (feHeld 0xF0000000 0x205 0) 2 { st := .up }))) 2).txq.map
    (fun f => (wordAt f.body 0, wordAt f.body 5)) = [(0x40000000, 1)] := by decide
theorem test_take : (plinth (after (exec (.queueFrontEndTake 0 0 (.plinth 0)) feS)) 0 0).cmd = some ⟨[0x80000000, 0, 0, 0, 0, 0, 0, 0], 0, 0, 0⟩ := by
  decide

/-! ### Links (chapter 10) -/

/-- Endpoint k UP, with one flit to send, 4 credits per channel and the endpoint otherwise as at reset. -/
def upS (k : Nat) (v : Endp) : State := setEndp t0 k { v with st := .up, wasUp := true, credits := [4, 4, 4, 4] }
theorem wit_LinkFlits : (endp (upS 17 {}) (epCode (.ext 0))).st = .up ∧ flitGood ⟨List.replicate 16 0, 1⟩ = false ∧
    (let f := mkFlit {} 2 0 0 false 0 (body16 [0x30000001])
     flFK f = 2 ∧ (flACK f + 1 - ((0 : Byte) - 0)).toNat = 0 ∧ kindListed (field (wordAt f.body 0) 31 28) = true) ∧
    (endp t0 17).st ≠ .up ∧ (endp (upS 12 { sinceAck := 1 }) 12).sinceAck ≠ 0 := by decide +kernel
theorem wit_LinkFlits_2 : (let v : Endp := { neighbour := some 2, txq := [⟨2, 0, 0, body16 [0x30000001], 0⟩] }
     v.ctrl = 0 ∧ midPair v = false ∧ withinLimit (upS 17 v) 17 ⟨2, 0, 0, body16 [0x30000001], 0⟩ = true ∧
      1 ≤ (endp (upS 17 v) 17).credits.getD 0 0 ∧ (endp (upS 17 v) 17).sent.length < 64) ∧
    (let v : Endp := { sseq := 1, sent := [(0, ⟨2, 0, 0, body16 [0x30000001], 0⟩)] }
     ((0 : Byte) + 1 - (v.sseq - BitVec.ofNat 8 v.sent.length)).toNat = 1 ∧ ((255 : Byte) + 1 - (v.sseq - BitVec.ofNat 8 v.sent.length)).toNat = 0) ∧
    (let h : TxFlit := ⟨3, 0, 0, body16 [1], 0⟩
     let v : Endp := { pair1 := some h, partials := [⟨0, body16 [0x20000001], [], 1⟩] }
     v.pair1 = some h ∧ v.partials = [⟨0, body16 [0x20000001], [], 1⟩] ∧ (1 : Nat) ≠ 0 ∧ h.vc = 0) ∧
    (epCode (.h 4) = 16 ∧ midPair (endp (upS 16 {}) 16) = false ∧ ({ sinceAck := 0 } : Endp).owe = [0, 0, 0, 0]) := by decide
/-- 64 requests on channel 0 to chip 2 outstanding: the next waits. -/
theorem wit_LinkFlits_3 : withinLimit (setParty (upS 17 { neighbour := some 2 }) 2
    { outst := List.replicate 64 ⟨0, 0, .boot, ⟨[], []⟩, true, 17, 1⟩ }) 17 ⟨2, 0, 0, body16 [0x30000001], 65⟩ = false := by decide +kernel
/-- A flit that is no request, a request not sent before, and one that goes again. -/
theorem wit_LinkFlits_4 : (∀ a : Fin 2, let f : TxFlit := ⟨2, 0, 0, body16 [0x30000000], a⟩
    let s := upS 17 { neighbour := some 2, txq := [f] }
    epSlewed s 17 = false ∧ (endp s 17).txq = [f] ∧ f.body.length = 16 ∧ partyOf s 17 = some 2 ∧ withinLimit s 17 f = true ∧
      field (wordAt f.body 0) 31 28 ≠ 0xA ∧ f.ask = a.val ∧ sentBefore (party s 2) f = false) ∧
    sentBefore { outst := [⟨0, 5, .boot, ⟨body16 [0x30000005], []⟩, true, 17, 1⟩] } ⟨2, 0, 0, body16 [0x30000005], 1⟩ = true := by decide
/-- The turn of two inputs, and a request that has been called off. -/
theorem wit_LinkFlits_5 :
    (let f := fun (die : Nat) => (⟨2, 0, 0, body16 [0x30000000, w32 (die * 512)], 0⟩ : TxFlit)
     let s := upS 3 { txq := [f 3, f 2] }
     (pickFlit s 3 (endp s 3)).map Prod.fst = some (f 2) ∧ (endp s 3).ctrl = 0) ∧
    (let f : TxFlit := ⟨2, 0, 0, body16 [0x40000000], 1⟩
     let o : Outst := ⟨0, 0, .boot, ⟨body16 [0x40000000], []⟩, false, 17, 1⟩
     let s := setParty (upS 17 { neighbour := some 2, txq := [f] }) 2 { outst := [o], calledOff := [1] }
     f.ask ∈ (party s 2).calledOff ∧ sentBefore (party s 2) f = false ∧ (party s 2).outst = [] ++ o :: [] ∧ o.ep = 17 ∧
      withinLimit s 17 f = true ∧ partyOf s 17 = some 2) := by decide
/-- 10 R240, 13 R313: a request that was called off before it left is followed by its CANCEL. -/
theorem test_called_off : (endp (after (exec (.flitSend (.ext 0)) (setParty
    (upS 17 { neighbour := some 2, txq := [⟨2, 0, 0, body16 [0x40000000], 1⟩] }) 2
    { outst := [⟨0, 0, .boot, ⟨body16 [0x40000000], []⟩, false, 17, 1⟩], calledOff := [1] }))) 17).txq.map (fun f => field (wordAt f.body 0) 31 28)
    = [7] := by decide
/-- 10 R233: a flit that goes carries its CRC. -/
theorem test_flit_crc : flitGood (mkFlit {} 2 0 5 false 0 (body16 [0x30000001])) = true := by decide +kernel
theorem test_flit_send : (endp (after (exec (.flitSend (.ext 0)) (upS 17 { neighbour := some 2, txq := [⟨2, 0, 0, body16 [0xF0000001], 0⟩] }))) 17).credits = [3, 4, 4, 4] := by
  decide
/-- 10 R235: inside the package a PAIR1 leaves only with the credits of both halves. -/
theorem test_pair_credits : (endp (after (exec (.flitSend (.h 0)) (setEndp t0 12 { st := .up, credits := [1, 4, 4, 4], txq := [⟨3, 0, 0, body16 [1], 0⟩, ⟨4, 0, 0, body16 [1], 0⟩] }))) 12).txq.length
    = 2 := by decide
theorem wit_LinkTraining : (endp (upS 17 {}) 17).st = .up ∧
    (let v : Endp := { st := .training, wasUp := true, fails := 2 }
     (endp (setEndp t0 17 v) 17).fails = 2 ∧ (endp (setEndp t0 12 v) 12).st = .training) ∧
    (endp (setEndp t0 17 { st := .training, locked := true }) 17).locked = true ∧
    ({ t0 with nld := { t0.nld with tmaster := true } } : State).nld.tmaster = true ∧ nextTxn (endp (upS 17 {}) 17) 10 = none := by decide
theorem test_resume : (endp (after (exec (.nldResumeFlit (.ext 0) ⟨0, [9, 9, 9, 9], 3, true⟩) (setEndp t0 17 { st := .training, locked := true }))) 17).neighbour
    = some 3 := by decide
/-- The final leg of an exchange of chip 1 through port 0, in the receive buffer of endpoint 17: T1 1000, T2 and T3 100, T4 1200. -/
def leg : TsyncMsg := ⟨.final, 1000, 100, 100, 1200, 1, 0⟩
def tsS : State :=
  let u := upS 17 { neighbour := some 1, rx := [mkTxn t0 (tsyncAsk 1 leg) 3 1] }
  { u with nld := { u.nld with chip := 5, tsOpen := some (0, 1000, 100, 100) } }
/-- 10 R247: the offset is half of (1000 - 100) + (1200 - 100). -/
theorem test_tsync : (after (exec (.nldTsync 0 leg) tsS)).nld.tofs = 1000 ∧ (after (exec (.nldTsync 0 leg) tsS)).nld.tvalid = true := by
  decide
theorem wit_LinkTraining_2 : (endp tsS 17).rx = [mkTxn t0 (tsyncAsk 1 leg) 3 1] ∧ tsyncMsg (mkTxn t0 (tsyncAsk 1 leg) 3 1) = some leg ∧
    leg.master ≠ tsS.nld.chip ∧ tsS.nld.isoChips.getLsbD leg.master.toNat = false ∧ tsS.nld.tmaster = false ∧ tsS.nld.tvalid = false ∧
    (∀ q : Fin 4, q.val ≠ 0 → (endp tsS (17 + q)).st ≠ .up) ∧ nextTxn (endp (upS 17 {}) 17) 10 = none ∧ regsUp tsS = true := by decide
/-- The first leg as it leaves port 0, and a reply at chip 5 for the first leg that it has sent. -/
theorem wit_LinkTraining_3 :
    (let f : TxFlit := ⟨2, 3, 0, (mkTxn t0 (tsyncAsk 1 ⟨.first, 0, 0, 0, 0, 0, 0⟩) 0 1).hdr, 1⟩
     let s := upS 17 { neighbour := some 1, txq := [f] }
     (endp s 17).txq = [f] ∧ f.body.length = 16 ∧ withinLimit s 17 f = true ∧ field (wordAt f.body 0) 31 28 = 10 ∧
      tsyncMsg ⟨f.body, []⟩ = some ⟨.first, 0, 0, 0, 0, 0, 0⟩ ∧ s.mstate ≠ .reset) ∧
    replyEp tsS 17 = some 17 ∧
    (let m : TsyncMsg := ⟨.reply, 1000, 100, 100, 0, 5, 0⟩
     let o : Outst := ⟨3, 3, .boot, mkTxn t0 (tsyncAsk 1 ⟨.first, 1000, 0, 0, 0, 5, 0⟩) 3 1, true, 17, 1⟩
     let u := upS 17 { neighbour := some 1, rx := [mkTxn t0 (tsyncAsk 1 m) 3 1] }
     let s := setParty { u with nld := { u.nld with chip := 5, tmaster := true } } 1 { outst := [o] }
     tsyncMsg (mkTxn t0 (tsyncAsk 1 m) 3 1) = some m ∧ (party s 1).outst = [] ++ o :: [] ∧ o.sent = true ∧
      o.tid = txnTid (mkTxn t0 (tsyncAsk 1 m) 3 1) ∧ txnKind o.txn = 10 ∧ (txnOperand o.txn).toNat / 64 = 0) := by decide
/-- A further leg, of a longer way, heeded two milliseconds after the last one and not before. -/
theorem wit_LinkTraining_4 : (let s := fun (t : Time) => { tsS with nld := { tsS.nld with tvalid := true, master := 1, hops := 0, tsAt := t } }
    2000000 ≤ ((s 3000000).tb - (s 3000000).nld.tsAt).toNat ∧ ¬ 2000000 ≤ ((s 3000001).tb - (s 3000001).nld.tsAt).toNat) := by decide
/-- A transaction of kind k from die 0, for Bell 5 of die 1. -/
def txn (k : Nat) (a : Nat) (x : Word) : Txn := ⟨body16 [w32 (k * 2 ^ 28 + 1), 0, w32 a, w32 (a / 2 ^ 32), 0, x], []⟩
def bell5 : Nat := 2 ^ 41 + 0x500000000 + 5 * 0x100
def txS (k : Nat) : State := upS 3 { rx := [txn k bell5 3] }
theorem wit_LinkTransactions : (endp (txS 3) (epCode (.c 1 0))).rx = txn 3 bell5 3 :: [] ∧ (endp (txS 3) (epCode (.c 1 0))).st = .up ∧
    partyOf (txS 3) (epCode (.c 1 0)) = some 11 ∧ epDie (epCode (.c 1 0)) = 1 ∧
    txnAddr (txn 3 bell5 3) = bell5 ∧ bell5 / 2 ^ 41 % 16 = 1 ∧ bell5 % 2 ^ 41 = 0x500000000 + 5 * 0x100 ∧
    chipIsolated (txS 3) (field (wordAt (txn 3 bell5 3).hdr 1) 15 13) = false ∧
    (party (txS 3) 11).window = [] ∧ (party (txS 3) 11).void = [] := by decide
/-- A request of kind k from die 0 to address a, at endpoint 3 of die 1. -/
def txnS (k a : Nat) (x : Word) : State := upS 3 { rx := [txn k a x] }
def queue0 : Nat := 2 ^ 41 + 0x600000000
theorem wit_LinkTransactions_2 :
    (let s := setQueue (txnS 5 queue0 0) 1 0 { en := true, ldepth := 3 }
     (endp s 3).rx = [txn 5 queue0 0] ∧ queue0 % 2 ^ 41 = 0x600000000 + 0 * 0x200 ∧ s.nld.holds = [] ∧ (cd s 1).vaultErr = [] ∧
      (cd s 1).vaultClearing = false ∧ (queue s 1 0).pushes = [] ∧ (queue s 1 0).occ < 2 ^ 3) ∧
    (txnAddr (txn 1 (2 ^ 41 + 0x17FFFFF) 0) % 2 ^ 41 < 0x180_0000) ∧
    (let a := 2 ^ 41 + 0x200000000
     a % 2 ^ 41 = 0x200000000 + 0 * 0x40000 ∧ chainBuf (plinth (txnS 8 a 0) 1 0) 0 = none) ∧
    (let s := setParty (txnS 3 bell5 3) 11 { window := [⟨0, 1, none, 0⟩] }
     (party s 11).window.find? (fun y => decide (y.ch = 0) && decide (y.tid = 1)) = some ⟨0, 1, none, 0⟩) ∧
    (let s := setParty (txnS 3 bell5 3) 11 { void := [(0, 1)] }
     (0, (1 : BitVec 16)) ∈ (party s 11).void ∧ (party s 11).window = []) := by decide
/-- Die 0 lost to die 1, the turn of a link at a Plinth's buffers with no other input, and an endpoint whose die is sound. -/
theorem wit_LinkTransactions_8 : epSlewed (txS 3) 3 = false ∧
    (let s := { txS 3 with nld := { (txS 3).nld with isoDies := 1 } }
     field (wordAt (txn 3 bell5 3).hdr 1) 15 13 = s.nld.chip.toNat ∧ diesJoined s (epDie 3) (field (wordAt (txn 3 bell5 3).hdr 1) 12 9) = false) ∧
    diesJoined (txS 3) (epDie 3) (field (wordAt (txn 3 bell5 3).hdr 1) 12 9) = true ∧
    (let s := txnS 8 (2 ^ 41 + 0x200000000) 0
     nextInput (plinth s 1 0).chainRr (chainInputs s 1 0) = 8 + 3 ∧ ∀ j : Fin 8, chainWants s 1 0 j = false) ∧
    (let s := setPlinth (txnS 8 (2 ^ 41 + 0x200000000) 0) 1 5 { cmd := some (cmd [0xD8000000, 0, 0, 0x200]), outRows := [(0, [])] }
     nextInput (plinth s 1 0).chainRr (chainInputs s 1 0) ≠ 8 + 3) := by decide
/-- Relayed: at endpoint 12 of H a request of die 0 to die 2, with the link to die 2 UP or not. -/
theorem wit_LinkTransactions_3 :
    (let a := 2 * 2 ^ 41 + 0x500000000
     let s := upS 12 { rx := [txn 3 a 1] }
     partyOf s 12 = some 20 ∧ epDie 12 = 4 ∧ relayStop s (txn 3 a 1) = none ∧ nextEp s 4 0 a = none ∧
      nextEp (setEndp s 14 { st := .up }) 4 0 a = some 14 ∧ partyOf s 14 = some 22 ∧ txnRecorded (txn 3 a 1) = true ∧
      relayStop { s with nld := { s.nld with isoDies := 4 } } (txn 3 a 1) = some 3) ∧
    chipIsolated { t0 with nld := { t0.nld with isoChips := 4 } } 2 = true := by decide
/-- A wait held here under a deadline, its CANCEL, and answers to a Spire's BADD. -/
theorem wit_LinkTransactions_4 :
    (let who : Origin := .remote 3 3 1 0 bell5
     let s := setBell { txS 3 with nld := { (txS 3).nld with holds := [(who, 5000001)] } } 1 5 { waiters := [⟨who, 3, false⟩] }
     s.tb.toNat < (5000001 : Time).toNat ∧ heldBy s who = true ∧ heldMet s who = false ∧
      (∀ j : Fin 4, ∀ q ∈ (cd s j).queues, ∀ z ∈ q.2.pushes, z.who ≠ who)) ∧
    (let w : SpWait := ⟨.badd, 1, 0, 0, 0, none, true, 0⟩
     let o : Outst := ⟨0, 1, .spire 0 0, txn 3 bell5 3, true, 2, 1⟩
     let s := setParty (setSpire (upS 2 { rx := [⟨(mkRsp 1 0 bell5 0 []).hdr, []⟩] }) 0 0 { st := .running, wait := some w }) 10 { outst := [o] }
     (party s 10).outst = [o] ∧ txnKind o.txn = 3 ∧ txnAddr (mkRsp 1 0 bell5 0 []) = bell5 ∧
      field (wordAt (mkRsp 1 0 bell5 0 []).hdr 0) 31 28 = 15 ∧ (spire s 0 0).wait = some w ∧ wordAt o.txn.hdr 1 = 0) := by decide
/-- A CANCEL of the wait that die 0 has held at Bell 5 of die 1, and one of a request relayed on to die 2. -/
theorem wit_LinkTransactions_5 :
    (let who : Origin := .remote 3 3 1 0 bell5
     let s := setBell (txnS 7 bell5 3) 1 5 { waiters := [⟨who, 3, false⟩] }
     s.nld.parties = [] ∧ (bell s 1 5).waiters = [⟨who, 3, false⟩] ∧ heldMet s who = false ∧
      (∀ j : Fin 4, ∀ o ∈ heldOrigins (cd s j), cancelNames s 3 (txn 7 bell5 3) o = true → o = who)) ∧
    (let a := 2 * 2 ^ 41 + 0x500000000
     let o : Outst := ⟨3, 9, .remote 12 3 1 0 a, txn 4 a 1, true, 14, 1⟩
     let s := setParty (upS 12 { rx := [txn 7 a 0] }) 22 { outst := [o] }
     (everyOrigin s).find? (cancelNames s 12 (txn 7 a 0)) = some o.who ∧ heldBy s o.who = false ∧ findAsk s o.who = some (22, o)) ∧
    (everyOrigin (txnS 7 bell5 3)).find? (cancelNames (txnS 7 bell5 3) 3 (txn 7 bell5 3)) = none := by decide
/-- A row for a Plinth with no buffer, two tiles that wait, one that lacks it; and tiles under way and whole that a CHBRK meets. -/
theorem wit_LinkTransactions_9 :
    (let p := fun (l : List ChainBuf) => ({ chainBufs := l } : Plinth)
     let b : ChainBuf := ⟨0, 2, 1, [(1, [(7, 8, 1)])], false⟩
     let w : ChainBuf := ⟨0, 1, 1, [(0, [(7, 8, 1)])], false⟩
     chainOpens (p []) 0 0 = true ∧ chainOpens (p [w, w]) 0 0 = true ∧ bufLacks 0 0 w = false ∧ bufLacks 0 0 b = true ∧
      (p [w, w]).chainBufs.length = 2 ∧ (b.rows.length < b.m ∧ b.broken = false) ∧ ¬ w.rows.length < w.m) ∧
    (∀ j : Fin 8, (plinth (txnS 8 (2 ^ 41 + 0x200000000) 0) 1 j).outRows = []) ∧
    (∀ y ∈ [(⟨0, 2, .boot, txn 3 bell5 3, true, 2, 2⟩ : Outst)], sameAsk ⟨0, 1, .spire 0 0, txn 3 bell5 3, true, 2, 1⟩ y = false) := by decide
/-- 10 R230, R237: H sends a request of die 0 on to die 2; as it leaves it gets a TID of that link. -/
theorem test_relay :
    let t := after (exec (.nldBadd (.h 0)) (setParty (setEndp (upS 12 { rx := [txn 3 (2 * 2 ^ 41 + 0x500000000) 1] }) 14
      { st := .up, credits := [4, 4, 4, 4] }) 22 { nextTid := [6, 0, 0, 0] }))
    (endp t 14).txq.map (fun f => (wordAt f.body 0, f.ask)) = [(0x30000000, 1)] ∧
      (endp (after (exec (.flitSend (.h 2)) t)) 14).sent.map (fun e => wordAt e.2.body 0) = [0x30000006] := by decide
/-- An ISOLATED answer about die 1 of chip 2, and an ISO of chip 3 by a neighbour through which the way to it leads. -/
theorem wit_LinkTransactions_7 :
    (let a := 2 * 2 ^ 45 + bell5
     let r := mkRsp 1 0 a 3 []
     field (txnOperand r) 7 0 = 3 ∧ txnAddr r / 2 ^ 45 % 8 = 2 ∧ t0.nld.chip.toNat ≠ 2 ∧ t0.nld.isoChips.getLsbD 2 = false ∧
      (2, 1) ∉ t0.nld.farIso ∧ (let b := bell (setBell t0 0 5 { chips := 4, dies := 2 }) 0 5
       b.chips.getLsbD 2 = true ∧ b.dies.getLsbD 1 = true)) ∧
    (let s := setEndp { t0 with nld := { t0.nld with route := 0x1000 } } 17 { st := .up, neighbour := some 3, rx := [txn 11 0 3] }
     0 ∈ maskPorts (routeMask s 3) ∧ (endp s 17).neighbour = some 3 ∧ partyOf s 17 = some 3 ∧
      field (wordAt (txn 11 0 3).hdr 0) 31 28 = 11) := by decide
/-- To another chip: port 0 leads to chip 2. -/
theorem wit_LinkTransactions_6 :
    (let s := setEndp { t0 with nld := { t0.nld with route := 0x100 } } 17 { st := .up, neighbour := some 2 }
     let q : Ask := { kind := 3, addr := 2 * 2 ^ 45 + 0x500000000 }
     flowPort s q.src q.addr (addrChip q.addr) = some 0 ∧ (endp s 17).neighbour = some 2 ∧ q.die = 4 ∧
      flowPort t0 q.src q.addr (addrChip q.addr) = none ∧ addrChip q.addr ≠ s.nld.chip.toNat) ∧
    addrDie (2 ^ 41) < 4 ∧ addrChip (2 ^ 41) = t0.nld.chip.toNat := by decide
theorem test_nld_badd : (bell (after (exec (.nldBadd (.c 1 0)) (txS 3))) 1 5).count = 3 := by decide
theorem test_nld_other_kind : after (exec (.nldBadd (.c 1 0)) (txS 4)) = txS 4 := by decide

/-! ### Memory and engines (chapter 11) -/

/-- The example of 11 R259: 16 GiB of LPDDR5X with one rank. -/
def lp16 : MemCtl := { cfg := 0x01010000, st := .ready, psize := 3 }
theorem wit_MemoryAndEngines : (let s := { t0 with mem := lp16 }
    diesJoined s (⟨0, 0, 0⟩ : Agent).die 4 = true ∧ s.refclk = true ∧ lpSize s.mem = 0x400000000 ∧ 0x3FFFFFFC0 + 64 ≤ lpSize s.mem) ∧
    lp16.cfg.getLsbD 17 = false ∧ t0.mem.st = .off := by decide
/-- COPY of one row of one byte (n = 1) between the Vaults of dies 0 and 1. -/
def mvS : State := { t0 with mem := { movers := [(0, { en := true, cmd := some (cmd [0x10000000, 0, 0, 0, 0x200]) })] },
                             c0 := { t0.c0 with vault := [(0, 9)] } }
theorem wit_MemoryAndEngines_2 : (mover mvS 0).cmd = some (cmd [0x10000000, 0, 0, 0, 0x200]) ∧ (mover mvS 0).run = none ∧
    (0x200 * 2 ^ 32 + 0) / 2 ^ 41 % 16 = 1 ∧ diesJoined mvS 4 1 = true ∧ mvS.boot.updBusy = none ∧ mvS.mstate = .run := by decide
/-- A row's answer at endpoint 12, a row read and waiting to be written, and the update engine at work. -/
theorem wit_MemoryAndEngines_3 :
    (let o : Outst := ⟨0, 1, .unit (.mover 0), txn 1 0 0, true, 12, 1⟩
     let s := setParty (setEndp mvS 12 { st := .up, rx := [mkRsp 1 0 0 0 [9]] }) 20 { outst := [o] }
     answersTo (mkRsp 1 0 0 0 [9]) o = true ∧ (party s 20).outst = [o] ∧ field (wordAt (mkRsp 1 0 0 0 [9]).hdr 0) 31 28 = 15 ∧
      (mover s 0).cmd.isSome = true) ∧
    (let s := setMover (setEndp mvS 13 { st := .up }) 0 { mover mvS 0 with run := some ⟨0, 0, some [9], 0⟩ }
     (mover s 0).run = some ⟨0, 0, some [9], 0⟩ ∧ epOpen s 13 = true ∧ ((0 : Nat) + 1 ≤ 2 ^ 41)) ∧
    epOpen (setEndp mvS 12 { st := .up }) 12 = true ∧ epOpen mvS 12 = false ∧ lpSize lp16 = 0x400000000 ∧
    diesJoined { mvS with nld := { mvS.nld with isoDies := 2 } } 4 1 = false := by decide
/-- A mover with a record to send, and that record's QPUSH and its Bell's BADD. -/
theorem wit_MemoryAndEngines_5 :
    (let e : Done := ⟨1, 0, 0, 0, 0x80000000, 7, 0, 0, false⟩
     (mover (setMover mvS 0 { doneQ := [e] }) 0).doneQ = [e] ∧ e.die < 4 ∧ e.posted = false ∧ ({ e with posted := true } : Done).posted = true ∧
      (0x80000000 : Word).getLsbD 23 = false ∧ (0x800000 : Word).getLsbD 23 = true) ∧
    (∀ k ∈ [3, 5], txnKind ⟨body16 [w32 (k * 2 ^ 28)], []⟩ = k) ∧ epOpen (setEndp mvS 12 { st := .up }) 12 = true ∧ t0.mstate = .run ∧
    txnKind (txn 1 0 0) = 1 := by decide
/-- A WRITE to slot B under way, of n bytes, with those of bs read. -/
def updS (n : Word) (bs : List Byte) : State :=
  { t0 with boot := { t0.boot with updBusy := some (2, true), updLen := n, updBuf := bs }, flashDev := { present := true, dens := 24 } }
theorem wit_MemoryAndEngines_4 :
    (let s := updS 0x100 []
     s.mstate = .run ∧ s.boot.updBellEn = false ∧ s.boot.updAsk = false ∧ s.boot.updBad = false ∧ s.boot.updBuf.length < 0x100 ∧
      s.boot.updOfs.toNat + s.boot.updLen.toNat ≤ slotSize s ∧ s.boot.updSrc.toNat / 2 ^ 45 = s.nld.chip.toNat ∧
      epOpen (setEndp s 12 { st := .up }) 12 = true) ∧
    (let s := updS 1 [7]
     s.boot.updLen.toNat ≤ s.boot.updBuf.length ∧ ∀ x ∈ slotBytes s true s.boot.updOfs.toNat 1, x = 0xFF) ∧
    (t0.boot.updBusy = none ∧ decide (t0.boot.updOfs.toNat % 256 = 0 ∧ t0.boot.updLen.toNat % 256 = 0) = true) ∧
    ({ t0 with boot := { t0.boot with updBusy := some (3, true) } } : State).boot.updBusy = some (3, true) := by decide +kernel
/-- 11 R265: the first row is read from die 0 by an RD over the link to it. -/
theorem test_copy : (endp (after (exec (.moverCopy 0) (setEndp mvS 12 { st := .up }))) 12).txq.map (fun f => (f.fk, wordAt f.body 0, wordAt f.body 4))
    = [(2, 0x10000000, 1)] := by decide
/-- 11 R265, 10 R239: the answer of the row's read brings its bytes. -/
theorem test_copy_read :
    let u := after (exec (.moverCopy 0) (setEndp mvS 12 { st := .up }))
    ((findAsk u (.unit (.mover 0))).map (fun o => (mover (askDone u o.2 0 [9]) 0).run)) = some (some ⟨0, 0, some [9], 0⟩) := by decide
theorem test_lpddr_map : (lpChannel 0x3456789C0, lpLocal 0x3456789C0, lpBank lp16 0x3456789C0, lpRow lp16 0x3456789C0) =
    (14, 0x345678C0, 3, 0x68AC) := by decide
/-- 11 R263: a single-bit error is corrected and counted; a read that fails four times halts the machine. -/
theorem test_link_single : (dieRead { t0 with mem := { lp16 with cfg := 0x81010000, linkErrs := [.single] } } ⟨0, 0, 0⟩ 4 0 4).2.mem.lecc = 1 := by
  decide +kernel
theorem test_link_lost : (dieRead { t0 with mem := { lp16 with cfg := 0x81010000, linkErrs := [.failing 4] } } ⟨0, 0, 0⟩ 4 0 4).2.mstate = .halt := by
  decide +kernel

/-! ### Boot (chapter 12) -/

/-- The slot attempt of slot A at the phase p, with nothing of a C-die clearing, and a flash with quad reads of 16 MiB. -/
def bootS (p : BitVec 4) : State :=
  { t0 with mstate := .boot, flashDev := { present := true, dens := 24, quad := true }, boot := { phase := p, attemptAt := 5000000 } }
theorem wit_Boot : (∀ d : Fin 4, (cd (bootS 0) d).slewed = false ∧ (cd (bootS 0) d).vaultClearing = false) ∧
    (bootS 0).refclk = true ∧ (bootS 0).boot.phase.toNat ≤ 1 ∧ 1000000 ≤ (bootS 0).tb.toNat ∧
    (let v : FlashDev := { present := true, dens := 29, profile1 := true, octalSeq := true, rates := [100, 200] }
     (200 : Nat) ∈ v.rates ∧ v.densPow2 = true ∧ v.dens ≤ 29) := by decide
theorem wit_Boot_2 : (bootS 2).boot.flashMode = 0 ∧ headerOk (bootS 2) false = false ∧ (∀ x ∈ (bootS 3).boot.sections, 3 ≤ x.kind) ∧
    field (bootS 3).mem.cfg 27 24 = 0 ∧ (bootS 3).host.csi = [] ∧ bootJobs (bootS 4) = [] ∧
    nextDome (bootS 4).boot.sections (bootS 4).boot.domeAt = none ∧ (bootS 5).boot.todo = [] ∧ (bootS 6).mem.st = .off ∧
    (bootS 7).boot.recorded = [] ∧ ((bootS 1).tb - (bootS 1).boot.attemptAt).toNat < 10000000000 := by decide +kernel
/-- The sequencer at the phase p with other fields of its own. -/
def bootB (p : BitVec 4) (f : Boot → Boot) : State := { bootS p with boot := f (bootS p).boot }
/-- A section of the kind k, of no bytes, with its digest, and a write of one byte at 0x100 of die 0. -/
def sec (k : Nat) : Section := ⟨k, 0, 0, 0, 0, digest32 []⟩
def bootW (good : Bool := true) : BootWrite := { addr := 0x100, data := [7], good := good }
theorem wit_Boot_3 :
    (let s := { bootS 7 with c2 := {} }
     s.mstate = .boot ∧ s.refclk = true ∧ s.boot.phase = 7 ∧ s.boot.rel = 0 ∧ (cd s 2).vaultClearing = true) ∧
    ((bootS 6).nld.isoDies = 0 ∧ (bootS 6).nld.isoChips = 0 ∧ (bootS 6).nld.farIso = []) ∧
    (let s := (upTo 22).foldl (fun t k => setEndp t k { st := .up }) (bootS 6)
     ∀ k : Fin 22, (endp s k).st = .up) ∧
    (∀ r ∈ (bootS 7).boot.recorded, r.1 < 4) ∧ ((bootS 7).boot.recorded.map (fun r => (r.1, r.2.1))).Nodup ∧
    (t0.mstate = .run ∧ t0.boot.updBusy = none) ∧
    (bootB 7 (fun v => { v with rel := 1 })).boot.rel = 1 ∧ (bootB 7 (fun v => { v with rel := 2, wrBad := some (0, 3) })).boot.rel = 2 ∧
    (∀ p : Fin 8, let v := (bootS (BitVec.ofNat 4 p)).boot
     v.wrAsk = false ∧ v.wrBad = none ∧ v.writes = [] ∧ v.staged = [] ∧ v.now = none ∧ v.todo = []) := by decide +kernel
/-- Writes of the sequencer: one that is not allowed, one to make, one under way, one that has failed; and a section of 16 bytes. -/
theorem wit_Boot_5 : ∀ p : Fin 8, let q := BitVec.ofNat 4 p
    ((bootB q (fun v => { v with writes := [bootW false] })).boot.writes = [bootW false] ∧ (bootW false).good = false) ∧
    (let s := setEndp (bootB q (fun v => { v with writes := [bootW] })) 12 { st := .up }
     s.boot.writes = [bootW] ∧ (bootW).good = true ∧ (bootW).addr / 2 ^ 41 % 16 = 0 ∧ diesJoined s 4 0 = true ∧ epOpen s 12 = true) ∧
    (bootB q (fun v => { v with wrAsk := true })).boot.wrAsk = true ∧ (bootB q (fun v => { v with wrBad := some (0, 3) })).boot.wrBad ≠ none ∧
    16 * (0 + 1) ≤ 16 ∧ 4096 * 1 < 4097 := by decide +kernel
/-- Sections that wait and that are written, with the digest of their bytes and without. -/
theorem wit_Boot_6 :
    (bootB 3 (fun v => { v with todo := [sec 1] })).boot.todo = [sec 1] ∧ (bootB 5 (fun v => { v with todo := [sec 5] })).boot.todo = [sec 5] ∧
    (bootB 5 (fun v => { v with now := some (sec 5) })).boot.now = some (sec 5) ∧
    digest32 (slotBytes (bootS 5) false (sec 5).ofs (sec 5).len) = (sec 5).digest ∧
    digest32 (slotBytes (bootS 5) false 0 0) ≠ ({ sec 5 with digest := [] } : Section).digest := by decide +kernel
/-- Domes: a block staged; one to program again; an entry that selects none; one of a BLANK bank to be programmed from block 0. -/
theorem wit_Boot_7 :
    (bootB 4 (fun v => { v with staged := [(0, 0, true)] })).boot.staged ≠ [] ∧
    (let j : PgmJob := { boot := true }
     let s := setDome (bootS 4) 0 0 { b1 := { job := some j } }
     bootJobs s = [((0, 0, true), { job := some j }, j)] ∧ (bankAt s 0 0 true).st ≠ .prog ∧ (0, 0, true) ∉ s.tokenWait ∧ j.tries < 2 ∧
      2 ≤ ({ j with tries := 2 } : PgmJob).tries) ∧
    (let s := bootB 4 (fun v => { v with sections := [sec 3] })
     nextDome s.boot.sections s.boot.domeAt = some (0, 0, sec 3) ∧ (domeEntry s false (sec 3) 0).sel = 3 ∧
      digest32 (slotBytes s false (sec 3).ofs (sec 3).len) = (sec 3).digest ∧ bootJobs s = []) ∧
    (let s := { bootB 4 (fun v => { v with sections := [sec 3] }) with flash := memPut flashFill [] 0 (List.replicate 80 0) }
     let e := domeEntry s false (sec 3) 0
     e.sel < 2 ∧ e.oth = false ∧ diesJoined s 4 0 = true ∧ (bankAt s 0 0 false).st = .blank ∧ entryWb e false ≠ 0xFFFF_FFFF ∧
      (bankAt s 0 0 false).count < 100000 ∧ (bankAt (setDome s 0 0 { b0 := { st := .prog } }) 0 0 false).st = .prog) := by
  decide +kernel
/-- The staging of a die to clear and of none, an ACTIVE bank, and a register of H that the sequencer writes. -/
theorem wit_Boot_8 :
    ((bootS 4).boot.wiped ≤ 0 ∧ diesJoined (bootS 4) 4 0 = true ∧ (∀ d : Fin 4, ¬ (bootB 4 (fun v => { v with wiped := 4 })).boot.wiped ≤ d.val)) ∧
    (bankAt (setDome (bootS 4) 0 0 { b0 := { st := .active } }) 0 0 false).st = .active ∧
    (let w : BootWrite := { addr := 4 * 2 ^ 41 + 0xF0010108C, data := [1, 2, 3, 4] }
     (bootS 5).boot.undo = [] ∧ w.data.length = 4 ∧ (bootMake (bootS 5) w).isSome = true) := by decide +kernel
/-- 12 R291: a register of H that slot A has written reads as before in the attempt of slot B. -/
theorem test_restore_host : let t := restoreImage ((bootMake (bootS 5) { addr := 4 * 2 ^ 41 + 0xF0010108C, data := [1, 2, 3, 4] }).getD t0) false
    (session t 2).cqBase = 0 := by decide +kernel
/-- 10 R230: a section of one byte goes to die 0 as a WR over the link; a digest of other bytes then ends the attempt with cause 5. -/
theorem test_section_write :
    let t := after (exec .sectionLoad (setEndp (bootB 5 (fun v => { v with todo := [⟨5, 0, 0, 1, 0, []⟩] })) 12 { st := .up }))
    (endp t 12).txq.map (fun f => (wordAt f.body 0, wordAt f.body 4)) = [(0x20000000, 1)] ∧ t.boot.wrAsk = true ∧
      ((findAsk t .bootWrite).map (fun e => (after (exec .sectionLoad (askDone t e.2 0 []))).boot.causeA)) = some 5 := by
  decide +kernel
theorem test_discovery_quad : (after (exec .flashDiscovery (bootS 0))).boot.flashMHz = 50 := by decide +kernel
theorem test_discovery_octal : (after (exec .flashDiscovery { bootS 0 with flashDev :=
    { present := true, dens := 24, profile1 := true, octalSeq := true, rates := [100, 166] } })).boot.flashMHz = 166 := by decide +kernel
theorem test_slot_retry : (after (exec .flashReadTimeout (bootS 2))).boot.causeA = 8 ∧
    (after (exec .flashReadTimeout (bootS 2))).boot.slot = true := by decide +kernel
/-- 12 R290: the release ends after the last of its steps. -/
theorem test_release : (after (exec .bootRelease (bootB 7 (fun v => { v with rel := 2 })))).mstate = .run ∧
    (after (exec .bootRelease (bootB 7 (fun v => { v with rel := 1 })))).nld.lock = true := by decide +kernel

/-- The identity of the curve as a public key, and a signature under it of any message (RFC 8032 5.1.7): R the identity, S 0. -/
def idKey : List Byte := 1 :: List.replicate 31 0
/-- An image of slot A with that key: MAGIC, version 1, one section, of 0x140 bytes, SEED 9; its section is DATA of no bytes. -/
def imgS (svn : Word) : State :=
  let head := wordLe 0x47534E31 ++ wordLe 1 ++ wordLe svn ++ wordLe 0 ++ wordLe 0x140 ++ wordLe 1 ++ wordLe 9 ++ wordLe 0
  let img := head ++ idKey ++ List.replicate 64 0 ++ idKey ++ List.replicate 96 0 ++ wordLe 0x07000000 ++ List.replicate 60 0
  let s := bootS 2
  { s with flash := memPut flashFill [] 0 img, boot := { s.boot with flashMode := 1 } }
/-- The header passes; with a higher roll-back count it fails with cause 4, and with MAGIC gone with cause 2. -/
theorem wit_Boot_4 : headerCheck (imgS 3) false = 0 ∧ headerOk (imgS 3) false = true ∧
    headerCheck { imgS 0 with otp := { (imgS 0).otp with rbcnt := 1 } } false = 4 ∧ slotWord (bootS 2) false 0 ≠ 0x47534E31 ∧
    (imgS 3).boot.phase = 2 ∧ (imgS 3).boot.flashMode ≠ 0 ∧ (imgS 3).mstate = .boot ∧ (imgS 3).refclk = true := by decide +kernel
theorem test_auth : (after (exec .imageAuth (imgS 3))).boot.phase = 3 ∧ (after (exec .imageAuth (imgS 3))).boot.svn = 3 := by
  decide +kernel

/-! ### Host and sensors (chapter 13) -/

/-- Session 2 held over PCI Express, and a request of the kind k for Bell 5 of die 1, 3 to add, in the inbox. -/
def hostFrame (k : Nat) : Frame := ⟨[w32 (2 * 2 ^ 24 + k * 2 ^ 16 + 0x10000000), 77, 0x500, 0x205, 3, 0, 0, 0], []⟩
def hostS (k : Nat) : State :=
  { t0 with host := { t0.host with perst := false, sessEn := 4, sessions := [(2, { owner := some .pcie })], inbox := [⟨.pcie, hostFrame k, 4000000⟩] } }
theorem wit_HostRequests : (hostS 0x12).host.inbox = [⟨.pcie, hostFrame 0x12, 4000000⟩] ∧ (∀ m : Fin 2, (mac (hostS 0x12) m).txq = []) ∧
    field (wordAt (hostFrame 0x12).h 0) 23 16 = 0x12 ∧ (session (hostS 0x12) (field (wordAt (hostFrame 0x12).h 0) 27 24)).owner = some .pcie ∧
    farPending (hostS 0x12) 2 = false ∧
    ((wordAt (hostFrame 0x12).h 2).toNat + 2 ^ 32 * field (wordAt (hostFrame 0x12).h 3) 15 0) = 0x205_0000_0500 ∧
    0x205_0000_0500 / 2 ^ 41 % 16 = 1 ∧ 0x205_0000_0500 % 2 ^ 41 = 0x500000000 + 5 * 0x100 := by decide
/-- 13 R315: BADD goes as a request over the link to die 1, and ends ISOLATED while that link is DOWN. -/
theorem test_host_badd : (endp (after (exec .hostBadd (setEndp (hostS 0x12) 13 { st := .up }))) 13).txq.map (fun f => wordAt f.body 5) = [3] ∧
    (session (after (exec .hostBadd (hostS 0x12))) 2).toSend.map (fun o => field (wordAt o.f.h 5) 31 24) = [3] := by decide
/-- A frame of the kind k for an address of hi and lo, with the first word's flags. -/
def frameTo (k flags : Nat) (hi lo : Word) : Frame := ⟨[w32 (0x12000000 + k * 2 ^ 16 + flags), 77, lo, hi, 0, 0, 0, 0], []⟩
def inboxS (f : Frame) : State := { hostS 0 with host := { (hostS 0).host with inbox := [⟨.pcie, f, 4000000⟩] } }
/-- RD of 8 bytes of the LPDDR, which lies on H, and of the Vault of die 1 over its link. -/
theorem wit_HostRequests_2 :
    (let s := { inboxS (frameTo 0x10 8 0x800 0) with mem := lp16 }
     field (wordAt (frameTo 0x10 8 0x800 0).h 0) 23 16 = 0x10 ∧ 0x800_0000_0000 / 2 ^ 41 % 16 = 4 ∧ 0 + 8 ≤ lpSize s.mem ∧
      s.mem.linkErrs = [] ∧ s.refclk = true ∧ (session s 2).closing = none ∧ farPending s 2 = false) ∧
    (let s := setEndp (inboxS (frameTo 0x10 8 0x200 0)) 13 { st := .up }
     dieAnswers s hostAgent 1 = true ∧
      (sendAsk s { kind := 1, src := 0x401, addr := 2 ^ 41, len := 8 } (.host 2 77)).isSome = true ∧
      (sendAsk (inboxS (frameTo 0x10 8 0x200 0)) { kind := 1, src := 0x401, addr := 2 ^ 41, len := 8 } (.host 2 77)).isNone = true) ∧
    chipPresent t0 3 = false ∧ (∀ e ∈ (hostS 0).host.sessions, ∀ o ∈ e.2.outst, o.stalled = false) := by decide
/-- A frame with DL = 1 and TMO 1,000 us that came 1,000 us ago is past its deadline, one of TMO 1,001 us is not. -/
theorem wit_HostRequests_3 :
    (let f := frameTo 0x10 0x4008 0x03E80200 0
     (wordAt f.h 0).getLsbD 14 = true ∧ field (wordAt f.h 3) 31 16 * 1000 ≤ ((inboxS f).tb - 4000000).toNat ∧
      (inboxS f).host.inbox = [⟨.pcie, f, 4000000⟩] ∧ (∀ o ∈ (session (inboxS f) 2).outst, o.reqid ≠ 77) ∧
      (session (inboxS f) 2).closing = none) ∧
    ¬ field (wordAt (frameTo 0x10 0x4008 0x03E90200 0).h 3) 31 16 * 1000 ≤ (t0.tb - 4000000).toNat := by decide
/-- 13 R312: such a request ends TIMEOUT before the engine has taken it. -/
theorem test_deadline_inbox :
    let t := after (exec (.hostDeadline 2 77) (inboxS (frameTo 0x10 0x4008 0x03E80200 0)))
    t.host.inbox = [] ∧ (session t 2).toSend.map (fun o => field (wordAt o.f.h 5) 31 24) = [7] := by decide
/-- Session 2 with one request in progress, past its deadline: a BWAIT, at Bell 5 of die 1, or a WUPD. -/
def busyS (k : Nat) : State :=
  { t0 with host := { t0.host with perst := false, sessions := [(2, { owner := some .pcie, outst := [⟨77, frameTo k 0x4000 0x03E80205 0x500, 4000000, 0, 0, false⟩] })] } }
theorem wit_HostRequests_4 :
    (session (busyS 0x13) 2).outst = [⟨77, frameTo 0x13 0x4000 0x03E80205 0x500, 4000000, 0, 0, false⟩] ∧
    (session (busyS 0x13) 2).owner = some .pcie ∧ (session (busyS 0x13) 2).closing = none ∧
    (let s := setBell (busyS 0x13) 1 5 { waiters := [⟨.host 2 77, 9, false⟩] }
     (∃ w ∈ (bell s 1 5).waiters, w.who = .host 2 77) ∧ heldMet s (.host 2 77) = false) ∧
    (let o : Outst := ⟨3, 0, .host 2 77, txn 4 bell5 9, true, 13, 1⟩
     let s := setParty (busyS 0x13) 21 { outst := [o] }
     heldBy s (.host 2 77) = false ∧ findAsk s (.host 2 77) = some (21, o)) ∧
    ((2, 77) ∈ ({ (busyS 0x20).host with wupds := [(1, 3), (2, 77)] } : HostIf).wupds.drop 1) ∧
    (let g := frameTo 2 0x4000 0x03E80000 0
     let s := setSession t0 2 { owner := some .pcie, closing := some (some g), closeAt := 4000000 }
     (session s 2).closing = some (some g) ∧ field (wordAt g.h 3) 31 16 * 1000 ≤ (s.tb - (session s 2).closeAt).toNat) := by decide
/-- WUPD of a bundle with only 0x7F bytes of its region left, and with 0x80. -/
theorem wit_HostRequests_5 : (regionRest 1 0x17FFF81).getD 0 < 0x80 ∧ 0x80 ≤ (regionRest 1 0x17FFF80).getD 0 ∧
    (let s := { inboxS (frameTo 0x20 0 0x800 0) with mem := lp16 }
     0 + 0x80 ≤ lpSize s.mem ∧ s.host.wupds = [] ∧ s.host.wupdPush = false ∧
      leWord ((lpBytes { lp16 with lpddr := [(0, 0xFF), (1, 0), (2, 0), (3, 0)] } 0 0x80).take 4) ≠ 0x47575031) := by decide +kernel

/-- The header of a bundle of one block, SEQNO 1, and its entry up to the digest. -/
def wuHeader : List Byte := wordLe 0x47575031 ++ wordLe 1 ++ wordLe 1 ++ List.replicate 52 0 ++ idKey ++ List.replicate 32 0
def wuEntryHead : List Byte := List.replicate 32 0
/-- A WUPD of session 2 under way, with these bytes of the bundle at the Vault of die 1 read, for queue 0 of die 0. -/
def wuS (buf : List Byte) (last : Word) : State :=
  let s := busyS 0x20
  { s with
    boot := { s.boot with pubkey := idKey },
    host := { s.host with wupds := [(2, 77)], wupdBuf := buf, wupdLast := last, wupdQ := 0x80000000, sessions := [(2, { owner := some .pcie, outst := [⟨77, frameTo 0x20 0 0x200 0, 4000000, 0, 0, false⟩] })] } }
/-- The first 0xC0 bytes: header and entry are right, the signature verifies, SEQNO is above the last, or is not. -/
theorem wit_HostRequests_6 :
    let s := wuS (wuHeader ++ wuEntryHead ++ List.replicate 32 0) 0
    let buf := s.host.wupdBuf
    let at_ := fun (i n : Nat) => (buf.drop i).take n
    s.mstate = .run ∧ s.host.wupdAsk = false ∧ s.host.wupdBad = none ∧ buf.length = 0x80 + 64 ∧
      leWord (at_ 0 4) = 0x47575031 ∧ (leWord (at_ 8 4)).toNat = 1 ∧ (∀ b ∈ at_ 0x0C 52, b = 0) ∧
      0x80 + 64 + 65536 ≤ (regionRest 1 0).getD 0 ∧ (∀ b ∈ at_ (0x80 + 4) 28, b = 0) ∧
      edVerify s.boot.pubkey (sha512 (at_ 0 0x40 ++ at_ 0x80 64)) (at_ 0x40 64) = true ∧
      s.host.wupdLast.toNat < (leWord (at_ 4 4)).toNat ∧ (leWord (at_ 4 4)).toNat ≤ (wuS buf 1).host.wupdLast.toNat := by
  decide +kernel

theorem sha512_length (bs : List Byte) : (sha512 bs).length = 64 := by
  have block : ∀ (n : Nat) (h : List W64) (l : List Byte), h.length = 8 → (shaBlocks n h l).length = 8 := by
    intro n
    induction n with
    | zero => intro h l e; exact e
    | succ n ih => intro h l _; exact ih _ _ rfl
  have eight : ∀ k : Nat, (natBe 8 k).length = 8 := fun _ => rfl
  have flat : ∀ l : List W64, (l.flatMap (fun w => natBe 8 w.toNat)).length = 8 * l.length := by
    intro l
    induction l with
    | nil => rfl
    | cons x l ih => simp only [List.flatMap_cons, List.length_append, eight, ih, List.length_cons]; omega
  show ((shaBlocks _ shaInit _).flatMap (fun w => natBe 8 w.toNat)).length = 64
  rw [flat, block _ _ _ rfl]

/-- A bundle read whole whose digests agree: one block of zeros. -/
def wuBlock : List Byte := List.replicate 65536 0
def wuWhole : List Byte := wuHeader ++ wuEntryHead ++ digest32 wuBlock ++ wuBlock
theorem wit_HostRequests_7 :
    let s := withQ (wuS wuWhole 0) 7
    let buf := s.host.wupdBuf
    let at_ := fun (i n : Nat) => (buf.drop i).take n
    leWord (at_ 0 4) = 0x47575031 ∧ (leWord (at_ 8 4)).toNat = 1 ∧ (∀ b ∈ at_ 0x0C 52, b = 0) ∧ buf.length = 0x80 + 64 + 65536 ∧
      (∀ i : Nat, i < 1 → digest32 (at_ (0x80 + 64 + 65536 * i) 65536) = at_ (0x80 + 64 * i + 32) 32) := by
  have d : (digest32 wuBlock).length = 32 := by simp [digest32, sha512_length]
  have z : wuBlock.length = 65536 := List.length_replicate
  generalize hz : wuBlock = Z at d z
  generalize hd : digest32 Z = D at d
  have b : (withQ (wuS wuWhole 0) 7).host.wupdBuf = wuHeader ++ wuEntryHead ++ (D ++ Z) := by
    show wuWhole = _
    rw [wuWhole, hz, hd, List.append_assoc]
  simp only [b]
  have h : wuHeader.length = 0x80 := rfl
  have e : wuEntryHead.length = 32 := rfl
  have n : (wuHeader ++ wuEntryHead).length = 0xA0 := rfl
  refine ⟨rfl, rfl, ?_, by simp only [List.length_append, h, e, d, z], ?_⟩
  · show ∀ b ∈ List.replicate 52 (0 : Byte), b = 0
    intro b hb
    exact List.eq_of_mem_replicate hb
  · intro i hi
    obtain rfl : i = 0 := by omega
    have c2 : (wuHeader ++ wuEntryHead ++ (D ++ Z)).drop 0xA0 = D ++ Z := List.drop_left' n
    have c1 : (wuHeader ++ wuEntryHead ++ (D ++ Z)).drop (0xA0 + 32) = Z := by
      rw [← List.drop_drop, c2, List.drop_left' d]
    show digest32 (((wuHeader ++ wuEntryHead ++ (D ++ Z)).drop (0xA0 + 32)).take 65536)
      = ((wuHeader ++ wuEntryHead ++ (D ++ Z)).drop 0xA0).take 32
    rw [c1, c2, List.take_of_length_le (by omega), List.take_left' d, hd]
/-- The hand-over to queue 0 of die 0: its QPUSH to make over the link, and under way, unanswered and answered NONAME. -/
theorem wit_HostRequests_8 :
    (let s := setEndp (wuS [] 0) 12 { st := .up }
     let q : Ask := { kind := 5, src := 0x401, addr := 0x600000000, len := 32, payload := [] }
     diesJoined s 4 0 = true ∧ s.host.wupdQ.getLsbD 31 = true ∧ field s.host.wupdQ 10 9 = 0 ∧ (session s 2).outst.length = 1 ∧
      (sendAsk s q (.wupd 2 77)).isSome = true ∧ (sendAsk (wuS [] 0) q (.wupd 2 77)).isNone = true) ∧
    (sendAsk (setEndp (wuS [] 0) 13 { st := .up }) { kind := 1, src := 0x401, addr := 2 ^ 41, len := 0x80 } (.wupd 2 77)).isSome = true ∧
    (let o : Outst := ⟨0, 0, .wupd 2 77, ⟨body16 [0x50000000], []⟩, true, 12, 1⟩
     let s := setParty { wuS [] 0 with host := { (wuS [] 0).host with wupdAsk := true, wupdPush := true } } 20 { outst := [o] }
     s.host.wupdPush = true ∧ s.host.wupdAsk = true ∧ s.host.wupds.head? = some (2, 77) ∧ heldBy s (.wupd 2 77) = false ∧
      findAsk s (.wupd 2 77) = some (20, o) ∧ txnKind o.txn = 5) ∧
    ({ (wuS [] 0).host with wupdPush := true } : HostIf).wupdAsk = false := by decide
/-- CLOSE of session 2 with one request in progress: an RD, and a BWAIT that die 1 has been sent. -/
theorem wit_HostRequests_9 :
    (let s := { busyS 0x10 with host := { (busyS 0x10).host with inbox := [⟨.pcie, frameTo 2 0 0 0, 4000000⟩] } }
     s.host.inbox = [⟨.pcie, frameTo 2 0 0 0, 4000000⟩] ∧ field (wordAt (frameTo 2 0 0 0).h 0) 23 16 = 2 ∧ (session s 2).owner = some .pcie ∧
      (session s 2).outst = [⟨77, frameTo 0x10 0x4000 0x03E80205 0x500, 4000000, 0, 0, false⟩] ∧ (session s 2).closing = none ∧
      field (wordAt (frameTo 0x10 0x4000 0x03E80205 0x500).h 0) 23 16 = 0x10) ∧
    (let q : Outst := ⟨3, 0, .host 2 77, txn 4 bell5 9, true, 13, 1⟩
     let s := setParty (busyS 0x13) 21 { outst := [q] }
     heldBy s (.host 2 77) = false ∧ findAsk s (.host 2 77) = some (21, q) ∧ q.sent = true ∧
      field (wordAt (frameTo 0x13 0x4000 0x03E80205 0x500).h 0) 23 16 = 0x13) := by decide
/-- CLOSE with a BWAIT that has not left H. -/
theorem wit_HostRequests_10 :
    let q : Outst := ⟨3, 0, .host 2 77, txn 4 bell5 9, false, 13, 1⟩
    let s := setParty (busyS 0x13) 21 { outst := [q] }
    heldBy s (.host 2 77) = false ∧ findAsk s (.host 2 77) = some (21, q) ∧ partySlewed s 21 = false ∧
      (∀ m : Fin 16, m ≠ 2 → (session s m).owner ≠ some .pcie) ∧ ((session s 2).outst.map (·.cancel)) = [0] := by decide
/-- 13 R327: the reset of the endpoint leaves such a request outstanding, with a CANCEL to follow it. -/
theorem test_reset_unsent : let t := after (exec .functionLevelReset (setParty (busyS 0x13) 21 { outst := [⟨3, 0, .host 2 77, txn 4 bell5 9, false, 13, 1⟩] }))
    (session t 2).outst.length = 1 ∧ (party t 21).outst.length = 1 ∧ (party t 21).calledOff = [1] := by decide
theorem test_host_open_busy : (session (after (exec .openSession { hostS 1 with host := { (hostS 1).host with
    sessions := [(2, { owner := some (.eth 0 1 none) })] } })) 2).owner = some (.eth 0 1 none) := by decide
theorem wit_PciExpress : (t0.mstate = .run ∧ (hostS 1).host.perst = false ∧ hostOn (hostS 1) = false) ∧
    (∀ m : Fin 2, (mac (hostS 1) m).txq = []) ∧
    (let v : Session := { owner := some .pcie, liveLsize := 16, toSend := [⟨⟨[0x20000000, 0, 0, 0, 0, 0, 0, 0], []⟩, none⟩] }
     v.owner = some .pcie ∧ 16 ≤ v.liveLsize.toNat ∧ v.toSend.length = 1 ∧ 0 + 1 < 2 ^ (16 - 6)) ∧
    field (17 : Word) 5 0 = 17 := by decide
theorem wit_PciExpress_2 :
    (let s := setSession (hostS 1) 2 { owner := some (.eth 0 1 none), imodRun := true, msixDue := true, toSend := [⟨⟨[0x20000000, 0, 0, 0, 0, 0, 0, 0], []⟩, none⟩] }
     onEthernet (session s 2) = true ∧ (∀ j : Fin 2, (mac s j).txq = []) ∧ (∀ e ∈ s.host.sessions, subscribed e.2 = false) ∧
      (session s 2).toSend.length = 1) ∧
    (session t0 3).owner = none ∧ (session (hostS 1) 2).owner ≠ none ∧ (hostS 1).mstate ≠ .safe ∧
    (let s := setSession (hostS 1) 2 { owner := some .pcie, imodRun := true, msixDue := true }
     onEthernet (session s 2) = false ∧ (session s 2).imodRun = true) := by decide
/-- The event queue's pop to make and under way, a vector that is pending, and a request that outlasts a reset of the function. -/
theorem wit_PciExpress_3 :
    (let s := setEndp { setSession t0 2 { sub := true } with host := { t0.host with evq := 0x80000000, sessions := [(2, { sub := true })] } } 12 { st := .up }
     s.host.evq.getLsbD 31 = true ∧ (session s 2).sub = true ∧ diesJoined s 4 0 = true ∧ eventAsked s = false ∧ epOpen s 12 = true) ∧
    (eventAsked (setParty t0 20 { outst := [⟨0, 0, .eventQueue, ⟨body16 [0x60000000], []⟩, true, 12, 1⟩] }) = true ∧
      t0.faults.hostNext = t0.faults.tail ∧ t0.faults.auto = false) ∧
    (let s := { hostS 1 with host := { (hostS 1).host with pba := 0x20004 } }
     s.host.pba.getLsbD 17 = true ∧ s.host.pba.getLsbD 2 = true ∧ (0 : Word).getLsbD 0 = false ∧ s.host.perst = false ∧
      onEthernet (session s 2) = false ∧ onEthernet (session (setSession s 2 { owner := some (.eth 0 1 none) }) 2) = true) ∧
    ({ t0 with mstate := .safe } : State).mstate = .safe ∧
    ((session (busyS 0x10) 2).owner = some .pcie ∧ (session (busyS 0x10) 2).outst.length = 1 ∧ (session (busyS 0x10) 2).closing = none) := by decide
/-- 13 R323: half a base address written while the session is open takes effect when it next opens. -/
theorem test_cq_half : (session (regWrite (setSession t0 2 { owner := some .pcie, liveBase := 0x1000 }) 4 0x10108C 5) 2).liveBase = 0x1000 ∧
    (session (regWrite (setSession t0 2 { owner := some .pcie }) 4 0x10108C 5) 2).cqBase = 0x500000000 := by decide +kernel
/-- 13 R321: a vector that is masked becomes pending, one that is not is sent; in reset neither happens. -/
theorem test_msix : (after (exec (.pciMsixSwWrite 17) (hostS 1))).host.pba = 0x20000 ∧
    (after (exec (.pciMsixSwWrite 17) { hostS 1 with host := { (hostS 1).host with msixTab := [(71, 0)] } })).outputs = [.msix 17] ∧
    after (exec (.pciMsixSwWrite 17) { hostS 1 with host := { (hostS 1).host with perst := true } })
      = { hostS 1 with host := { (hostS 1).host with perst := true } } := by decide
/-- MAC 0 on and its link up, for EtherType 0x88B5 and the address 2. -/
def macS : State := setMac t0 0 { liveCfg := 0x80000000, liveMac := 2, liveEtype := 0x88B5, link := true }
theorem wit_Ethernet : (mac macS 0).liveCfg.getLsbD 31 = true ∧ (mac macS 0).link = true ∧ hostOn macS = false ∧
    (∀ j : Fin 2, (mac macS j).txq = []) ∧ macFill macS 0 = 0 ∧ (2 : BitVec 48).getLsbD 40 = false ∧ (mac macS 0).mdio.getLsbD 31 = false ∧
    (mac macS 1).liveCfg.getLsbD 31 = false := by decide
/-- The buffer of MAC 0 with a frame of 150,000 bytes of data: less than a quarter is left. -/
theorem wit_Ethernet_2 (l : List Byte) (h : l.length = 150000) :
    let s := { macS with host := { macS.host with inbox := [⟨.eth 0 2 none, ⟨[], l⟩, 0⟩] } }
    196608 - macFill s 0 < 49152 := by
  show 196608 - (0 + 32 + l.length) < 49152
  rw [h]
  decide
/-- A PING, an empty buffer, and a link that is down with the MAC disabled and a session on it. -/
theorem wit_Ethernet_3 :
    (let e : InFrame := ⟨.eth 0 2 none, ⟨[0x10030000], []⟩, 0⟩
     let s := { macS with host := { macS.host with inbox := [e] } }
     s.host.inbox = [e] ∧ field (wordAt e.f.h 0) 23 16 = 3 ∧ s.mstate = .run) ∧
    macS.host.inbox = [] ∧ 98304 ≤ 196608 - macFill macS 0 ∧ (mac (setMac macS 0 { mac macS 0 with pauseSent := true }) 0).pauseSent = true ∧
    (let s := setSession t0 2 { owner := some (.eth 0 1 none) }
     (mac s 0).link = false ∧ (mac s 0).liveCfg.getLsbD 31 = false ∧ (session s 2).owner = some (.eth 0 1 none) ∧ (session s 2).outst = [] ∧
      s.faults.hostNext = s.faults.tail) := by decide +kernel
theorem test_eth_other : (mac (after (exec (.ethFrameReceive 0 ⟨2, 1, none, 0x88B6, true, List.replicate 46 0⟩) macS)) 0).other = 1 := by
  decide +kernel
theorem test_mdio_busy : (after (exec (.mdioFrame 0 0x80000001) macS)).outputs.length = 1 ∧
    (after (exec (.mdioFrame 0 2) (after (exec (.mdioFrame 0 0x80000001) macS)))).outputs.length = 1 := by decide
/-- Receiver 0 with stream 1 on virtual channel 2, RAW10, 4 slots of one page at Vault 0 of die 0, a frame in progress. -/
def csiS (cur : Option CsiCur) : State :=
  setCsiRx t0 0 { live := some {}, streams := [(1, { cur := cur, live := some { scfg := 0x822B0000, sslot := 0x04000001, slstr := 64, sbell := 0x00050000 } })] }
theorem wit_CsiReceivers : ((csiRx (csiS none) 0).streams.map (·.1)) = [1] ∧ (csiRx (csiS none) 0).live = some {} ∧
    field (0x822B0000 : Word) 27 24 = 2 ∧ field (0x822B0000 : Word) 21 16 = 0x2B ∧ nameBad (csiS none) 0 8 = false ∧
    targetIsolated (csiS none) 4 0 0 = false ∧ field (0x04000001 : Word) 30 24 = 4 := by decide
/-- The trigger: stream 1 with a FREE Bell of its own, or on chip 1; the way to die 0 up and not; writes of a frame under way. -/
theorem wit_CsiReceivers_2 :
    (let s := setBell (csiS none) 0 5 { count := 0xFFFFFFFD }
     s.mstate = .run ∧ (csiRx s 0).lastPulse = none ∧ nameBad s 5 8 = false ∧ targetIsolated s 4 0 0 = false ∧
      ((bell s 0 5).count - (w32 (0 + 0 + 1) - w32 4)).toNat < 2 ^ 31) ∧
    (diesJoined (csiS none) 4 0 = true ∧ epOpen (setEndp (csiS none) 12 { st := .up }) 12 = true ∧ epOpen (csiS none) 12 = false) ∧
    (∃ p ∈ (setParty (csiS none) 20 { outst := [⟨0, 0, .camera 0 1 0 none, ⟨[], []⟩, false, 12, 1⟩] }).nld.parties,
      ∃ o ∈ p.2.outst, o.who = .camera 0 1 0 none) ∧
    (csiS none).nld.parties = [] ∧ 4096 * 0 < 1 ∧
    ((csiStream (csiRx (csiS none) 0) 1).live.isSome = true ∧ (3 : Nat) ≠ field (0x822B0000 : Word) 27 24) ∧
    (0x2005 : Nat) / 8192 ≠ (csiS none).nld.chip.toNat := by decide
/-- 13 R306: READY is added to once the status has been written, with no write of the frame under way. -/
theorem test_csi_ready : (bell (cameraDone (csiS none) 0 1 0 (some 6)) 0 6).count = 0 ∧
    (endp (cameraDone (setEndp (csiS none) 12 { st := .up }) 0 1 0 (some 6)) 12).txq.map (fun f => wordAt f.body 5) = [1] := by decide
/-- 13 R305: RAW10 is listed and RAW14 (0x2D) is not; a line goes to its place in the slot as a WR over the link. -/
theorem test_csi_line : (endp (after (exec (.csiLongPacket 0 ⟨2, 0x2B, 0, .good⟩ true [7])
    (setEndp (csiS (some ⟨true, 1, 0, 0, 0, 0, false, 0⟩)) 12 { st := .up }))) 12).txq.map (fun f => (wordAt f.body 0, wordAt f.body 2))
    = [(0x20000000, 64)] := by decide
theorem test_csi_unlisted : after (exec (.csiLongPacket 0 ⟨2, 0x2D, 0, .good⟩ true [7]) (csiS (some ⟨true, 1, 0, 0, 0, 0, false, 0⟩)))
    = csiS (some ⟨true, 1, 0, 0, 0, 0, false, 0⟩) := by decide

/-! ### Serial ports and the field die (chapters 14, 15) -/

/-- UART 0 with 8 data bits, no parity, 115,200 baud, rings of 64 entries. -/
def uaS (v : Uart) : State :=
  setUart t0 0 { v with cfg := 0x88000000, baud := 833, rxring := 0x18000000, txring := 0x18000400, rxbell := 0x00070006,
                        txbell := 0x00090008, wake := 0x0000000A, st := .active, driven := true }
/-- The character e as it lies on the line, 16 ticks a bit. -/
def chars (e : Nat) : RxChar := ⟨(txLine (uart (uaS {}) 0) e).flatMap (List.replicate 16), []⟩
theorem wit_SerialPorts : (uart (uaS {}) 0).st = .active ∧ field (uart (uaS {}) 0).cfg 30 29 = 0 ∧ field (uart (uaS {}) 0).cfg 27 24 = 8 ∧
    (uart (uaS {}) 0).held = none ∧ rxWhole (uart (uaS {}) 0) (chars 0x55) = true ∧ (rxBits (uart (uaS {}) 0) (chars 0x55)).start = false ∧
    diesJoined t0 4 0 = true ∧ (cd t0 0).vaultErr = [] := by decide +kernel
theorem wit_SerialPorts_2 : uartOk t0 { cfg := 0x88000000, baud := 833, rxring := 0x18000000, txring := 0x18000400 } = true ∧
    (uart (uaS { txBusy := true }) 0).txBusy = true ∧ (uart t0 1).cfg.getLsbD 31 = false := by decide +kernel
/-- IrDA at 115,200 baud: two bits, 0 then 1, as one pulse of 1,302 cycles and a short one that is no bit. -/
theorem wit_SerialPorts_3 :
    (let v : Uart := { cfg := 0xC8000000, baud := 834 }
     field v.cfg 30 29 = 2 ∧ v.cfg.getLsbD 28 = false ∧ 16 ≤ field v.baud 19 0 ∧ (List.replicate 32 false).length = 16 * 2 ∧ 48 ≤ 1302) ∧
    (let v : Uart := { cfg := 0xE8000000, baud := 833 }
     uartOk t0 v = false ∧ field v.cfg 30 29 = 3) ∧
    (let v : Uart := { cfg := 0x88000000, driven := true, live := { cfg := 0xA8008000 } }
     let s := setUart t0 0 v
     (uart s 0).driven = true ∧ field (uart s 0).live.cfg 30 29 = 1 ∧ (uart s 0).live.cfg.getLsbD 15 = true ∧ s.mstate = .run) ∧
    (regsUp t0 = true ∧ (uart (uaS { txBusy := true }) 0).cfg.getLsbD 31 = true ∧ (uart (uaS { held := some 5 }) 0).held ≠ none ∧
      (uart (uaS { waking := true }) 0).waking = true) ∧
    (let s := setBell (uaS { held := some 5 }) 0 6 { count := 1 }
     ((bell s 0 6).count - (uart s 0).freeFrom - (w32 (0 + 1) - w32 64)).toNat < 2 ^ 31) := by decide +kernel
/-- The way to the rings open; an entry asked for, one that has come; requests of the port; and a port in HALT. -/
theorem wit_SerialPorts_4 :
    (let s := setEndp (uaS {}) 12 { st := .up }
     diesJoined s 4 (field (uart s 0).rxring 31 30) = true ∧ epOpen s (12 + field (uart s 0).rxring 31 30) = true) ∧
    epOpen (uaS {}) 12 = false ∧ (uart (uaS { txAsk := true }) 0).txAsk = true ∧ (uart (uaS { txGot := some 5 }) 0).txGot = some 5 ∧
    (let s := setBell (uaS {}) 0 9 { count := 1 }
     field (uart s 0).cfg 18 18 = 0 ∧ ((bell s 0 8).count - (uart s 0).availFrom - w32 (0 + 1)).toNat ≥ 0) ∧
    ((⟨0, 0, .serialIn 0 7, ⟨[], []⟩, true, 12, 1⟩ : Outst).who = .serialIn 0 7 ∧
      (⟨0, 0, .serialOut 0 1, ⟨[], []⟩, true, 12, 1⟩ : Outst).who = .serialOut 0 1 ∧ (uart (uaS { gen := 1 }) 0).gen = 1) ∧
    (let s := { setUart t0 0 {} with mstate := .halt }
     (uart s 0).cfg.getLsbD 31 = false ∧ s.mstate = .halt) := by decide +kernel
/-- A port that stops while it sends, with an EN = 1 that waits, and one that has looked for start bits since 5 ms. -/
theorem wit_SerialPorts_5 :
    (let s := uaS { txBusy := true, stopping := true, enWait := true, live := { txbell := 0x00090008 } }
     (uart s 0).stopping = true ∧ (uart s 0).txBusy = true ∧
      (let u := addNamed (setUart s 0 { uart s 0 with txBusy := false }) 4 0x410 8 1 .boot
       (uart u 0).enWait = true ∧ u.mstate = .run)) ∧
    (let v : Uart := { txBusy := true, stopping := true, st := .active }
     v.cfg.getLsbD 31 = false ∧ (t0.mstate = .run ∧ (uart (setUart t0 0 v) 0).stopping = true)) ∧
    (let v := uart (uaS { hearFrom := some 5000000 }) 0
     v.hearFrom = some 5000000 ∧ ¬ rxTime v (chars 0x55) ≤ (t0.tb - 5000000).toNat) := by decide +kernel
/-- 14 R347: EN cleared while a character is sent puts the port OFF at the end of that character, which sends a BADD to DONE. -/
theorem test_uart_stop :
    let s := after (exec (.uartDisable 0) (setEndp (uaS { txBusy := true, live := { txbell := 0x00090008 } }) 12 { st := .up }))
    let t := after (exec (.uartTxDone 0) s)
    ((uart s 0).st, (endp s 12).txq.length, (uart t 0).st, (endp t 12).txq.map (fun f => (wordAt f.body 0, wordAt f.body 2)))
      = (.active, 0, .off, [(0x30000000, 0x800)]) := by decide +kernel
/-- 14 R343: a character whose start edge came before a deep wake ended is lost. -/
theorem test_uart_wake_edge : (uart (after (exec (.uartCharReceived 0 (chars 0x55)) (uaS { hearFrom := some 5000000 }))) 0).held = none := by
  decide +kernel
/-- 14 R336, 10 R230: the held character goes to its slot in the ring by a WR over the link. -/
theorem test_uart_ring : (endp (after (exec (.uartRxEngineTake 0) (setEndp (uaS { held := some 5 }) 12 { st := .up }))) 12).txq.map
    (fun f => (wordAt f.body 0, wordAt f.body 4)) = [(0x20000000, 2)] := by decide +kernel
/-- 14 R340: a pulse shorter than half a microsecond is no bit. -/
theorem test_irda_short : rxLine { cfg := 0xC8000000, baud := 834 } ⟨List.replicate 32 false, [(0, 1302), (900, 40)]⟩ = [false, true] := by
  decide +kernel
/-- 14 R337: BRK in synchronous mode holds Un_TX at 0 for the character and one bit more. -/
theorem test_sync_break : (syncHalves { cfg := 0xA8000000, baud := 832 } 0x8FF).map (·.2) = List.replicate 18 false ++ [true, true] := by
  decide
theorem test_uart_char : (uart (after (exec (.uartCharReceived 0 (chars 0x55)) (uaS {}))) 0).held = some 0x55 := by decide +kernel
/-- 14 R332: an edge that comes one tick late does not change a bit. -/
theorem test_uart_late_edge : (rxBits (uart (uaS {}) 0) ⟨(chars 0x55).ticks.set 32 true, []⟩).data = 0x55 := by decide +kernel
/-- The field die reached over a link that has come up, LIVE. -/
def fS : State :=
  { setEndp (setEndp t0 16 { st := .up, wasUp := true }) 21 { st := .up, wasUp := true } with f := { st := .live, report := .run, wd := 3 } }
theorem wit_FieldDie : fReached fS = true ∧ fS.f.powered = true ∧ fS.f.lone = false ∧ fS.f.st = .live ∧ fS.f.reports = [] ∧
    fReached t0 = false ∧ fS.f.wd.toNat * 1020000 ≤ (fS.tb - fS.f.wdFrom).toNat ∧ (doCh fS 0).on = false ∧
    ({ fS with f := { fS.f with st := .fsafe, pend := 8 } } : State).f.pend.getLsbD 5 = false := by decide +kernel
/-- In BOOT: F in RSAFE with H in BOOT; commands of software while H is in SAFE. -/
theorem wit_FieldDie_2 :
    (let s := { fS with mstate := .boot, f := { fS.f with st := .rsafe, report := .boot } }
     s.f.st = .rsafe ∧ s.f.report = .boot ∧ s.f.powered = true ∧ s.mstate ≠ .reset ∧ s.f.lone = false ∧ fReached s = true ∧
      regsUp s = true) ∧
    ¬ (fReached { fS with mstate := .safe } = true ∧ regsUp { fS with mstate := .safe } = true) ∧
    (let s := { fS with f := { fS.f with st := .rsafe, report := .boot, reports := [.run], pend := 0x20 } }
     s.f.reports = [.run] ∧ s.f.pend &&& 0x34 = 0x20 ∧ s.f.lone = false) ∧
    (let s := { fS with f := { fS.f with evt := 0x00050001 } }
     s.f.evt.getLsbD 0 = true ∧ field s.f.evt 31 16 / 8192 = s.nld.chip.toNat ∧ (diCh s 0).state = false) ∧
    ({ fS with f := { fS.f with reports := [.halt] } } : State).f.reports = [.halt] := by decide +kernel
/-- F cut off before H was in RUN, a CMD kept until then, a CMD in BOOT, and inputs whose last change is and is not long enough ago. -/
theorem wit_FieldDie_3 :
    (let s := { t0 with f := { t0.f with pend := 8, reports := [.run] } }
     s.f.pend.getLsbD 3 = true ∧ s.f.st = .rsafe ∧ fReached s = false ∧ s.f.powered = true ∧ s.f.lone = false ∧ s.mstate = .run) ∧
    (let s := { fS with f := { fS.f with st := .rsafe, report := .boot, reports := [.run], cmdDue := true } }
     s.f.cmdDue = true ∧ s.mstate = .run ∧ s.f.st ≠ .fsafe ∧ fReached s = true ∧ s.f.lone = false) ∧
    (let s := { fS with mstate := .boot, f := { fS.f with st := .rsafe } }
     fReached s = true ∧ regsUp s = true ∧ s.f.st = .rsafe ∧ s.f.lone = false) ∧
    (1 * 98000 ≤ (fS.tb - (diCh fS 0).changed).toNat ∧ (diCh fS 0).filt = 0 ∧ fS.refclk = true ∧ fS.f.diLoose = 0) ∧
    (let s := setDiCh fS 0 { changed := fS.tb }
     ¬ 1 * 98000 ≤ (s.tb - (diCh s 0).changed).toNat) := by decide +kernel
/-- 15 R362: a change cannot come before FILT has passed since the last. -/
theorem test_filt : after (exec (.diFilteredChange 0) (setDiCh fS 0 { changed := fS.tb })) = setDiCh fS 0 { changed := fS.tb } := by
  decide +kernel
/-- 12 R291: in BOOT a safe cause only stands in PEND. -/
theorem test_boot_fuv : (let s := { fS with mstate := .boot, f := { fS.f with st := .rsafe, report := .boot } }
    ((after (exec .fuvTimeout s)).f.st, (after (exec .fuvTimeout s)).f.pend)) = (.rsafe, 0x20) := by decide +kernel
/-- 15 R351: REARM is taken once nothing but the LINK that it ends itself is pending. -/
theorem test_rearm : (after (exec .fioRearm { fS with f := { fS.f with st := .fsafe, pend := 8 } })).f.st = .live ∧
    (after (exec .fioRearm { fS with f := { fS.f with st := .fsafe, pend := 16 } })).f.st = .fsafe := by decide +kernel
theorem test_late_kick : (after (exec (.fioWdKick 1) fS)).f.st = .fsafe := by decide +kernel
theorem test_ao_limit : (ao (after (exec (.aoCmdWrite 2 0xFFFF) (setAo fS 2 { en := true }))) 2).out = 48000 := by decide +kernel

/-! ### Further witnesses: clauses at the ends of their ranges -/

/-- 1.0 and -1.0, whose sum is 0; 2.0 as a divisor; -1.0 below 0. -/
theorem wit_LongFormatsExact_2 : (isFinite b32 0x3F800000 = true ∧ isFinite b32 0xBF800000 = true ∧ isFinite b16 0x3C00 = true ∧
      isFinite b16 0x7BFF = true) ∧
    finVal b32 0x3F800000 + finVal b32 0xBF800000 = 0 ∧ finVal b32 0x3F800000 - finVal b32 0x3F800000 = 0 ∧
    finVal b32 0x3F800000 * finVal b32 0xBF800000 + finVal b32 0x3F800000 = 0 ∧ finVal b32 0x40000000 ≠ 0 ∧
    0 ≤ finVal b32 0x40000000 ∧ finVal b32 0xBF800000 < 0 ∧ finVal b32 0x80000000 = 0 := by
  have h1 : unpack b32 0x3F800000 = .fin false 8388608 (-23) := by decide
  have h2 : unpack b32 0xBF800000 = .fin true 8388608 (-23) := by decide
  have h3 : unpack b32 0x40000000 = .fin false 8388608 (-22) := by decide
  have h4 : unpack b32 0x80000000 = .fin true 0 (-149) := by decide
  refine ⟨by decide, ?_⟩
  simp only [finVal, h1, h2, h3, h4]
  norm_num
/-- 03 R65: a third up, down and in binary16; the largest numbers overflow; the product of the least ones is tiny and inexact. -/
theorem test_rounds : fDiv b32 0 0x3F800000 0x40400000 = (0x3EAAAAAB, { nx := true }) ∧
    fDiv b32 3 0x3F800000 0x40400000 = (0x3EAAAAAA, { nx := true }) ∧ fDiv b16 0 0x3C00 0x4200 = (0x3555, { nx := true }) ∧
    fAdd b32 0 0x7F7FFFFF 0x7F7FFFFF = (0x7F800000, { ov := true, nx := true }) ∧
    fAdd b32 4 0x7F7FFFFF 0x7F7FFFFF = (0x7F7FFFFF, { ov := true, nx := true }) ∧
    fMul b32 2 1 1 = (1, { uf := true, nx := true }) := by decide
/-- NOP in a word that was written over with 0 since the last IFLUSH: a fetch may return either, and no third word. -/
theorem wit_SpireSystemInstructions_2 : (let s := spv 0 { stale := [(0, 0x88000000)] }
    spireIssues s 0 0 0x88000000 .nop = true ∧ spireHolds s 0 0 0 = true ∧ spireAtBoundary s 0 0 = true ∧
      locWord (cd s 0) 0 0 ≠ 0x88000001 ∧ (0, (0x88000001 : Word)) ∉ (spire s 0 0).stale) := by decide
/-- A queue that is STOPPED with an entry, one at which another pop waits, and one with one free slot and a push waiting for it. -/
theorem wit_SpireQueueOperations_3 :
    (let s := setQueue (sp 0xA4221801 0 0x40) 0 0 { en := true, ldepth := 3, occ := 1, seq := 1, stopped := true }
     spireIssues s 0 0 0xA4221801 .qpop = true ∧ nameHere s 0 0 7 = true ∧ (queue s 0 0).stopped = true) ∧
    (let s := setQueue (sp 0xA4221800 0 0x40) 0 0 { en := true, ldepth := 3, pops := [.spire 0 1] }
     spireIssues s 0 0 0xA4221800 .qpop = true ∧ (queue s 0 0).pops ≠ []) ∧
    (let p : Push := ⟨.spire 0 1, 0x10000000, 0, []⟩
     let s := setQueue (sp 0xA0221801 0 0x20) 0 0 { en := true, ldepth := 3, occ := 7, seq := 7, pushes := [p] }
     spireIssues s 0 0 0xA0221801 .qpush = true ∧ (queue s 0 0).pushes = [p] ∧ (queue s 0 0).occ + 1 = 2 ^ 3 ∧
      (queue (after (exec (.queuePushAdmit 0 0) s)) 0 0).pushes = []) := by decide
/-- 09 R219: TRY at a STOPPED queue that holds an entry answers NOTREADY. -/
theorem test_try_stopped : spReg (sp0 (exec (.qpop 0 0 0xA4221801)
    (setQueue (sp 0xA4221801 0 0x40) 0 0 { en := true, ldepth := 3, occ := 1, seq := 1, stopped := true }))) 1 = 2 := by decide
theorem wit_SpireWaitsEnd_4 : (let s := setSpire t0 0 0 { st := .waiting, wait := some ⟨.bwait, 1, 0, 0, 0, none, true, 3⟩ }
    (cd s 0).slewed = false ∧ ((spire s 0 0).wait.map (·.abandon)) = some 3) := by decide
/-- 08 R201: HALT ends a wait at a chip that answers ISOLATED with no effect. -/
theorem test_halt_wait_lost : (let v := spire (spireDone (setSpire t0 0 0
      { st := .waiting, pc := 8, wait := some ⟨.bwait, 1, 0, 0, 0, none, true, 3⟩ }) 0 0 3 []) 0 0
    (spReg v 1, v.pc, v.hcause)) = (0, 8, 5) := by decide
theorem wit_SpireStartStop_4 : (∀ m ∈ [MState.boot, .halt], let s := { t0 with mstate := m }
    regsUp s = true ∧ (spire s 0 0).st = .held ∧ (cd s 0).slewed = false) ∧ regsUp State.reset = false := by decide
/-- 00 R7: RUN = 1 written in HALT reads back. -/
theorem test_run_bit : (spire (after (exec (.sprRunStart 0 0) { t0 with mstate := .halt })) 0 0).runBit = true := by decide
/-- A read of the LPDDR that waits for REFCLK_IN. -/
def stallS : State :=
  { t0 with
    refclk := false, mem := lp16,
    host := { t0.host with
      stallQ := [(2, 77)],
      sessions := [(2, { owner := some .pcie, outst := [⟨77, frameTo 0x10 8 0x800 0, 4000000, 0, 0, true⟩] })] } }
theorem wit_TimeBase_3 : stallS.host.stallQ = [(2, 77)] ∧ stallS.refclk = false := by decide
theorem wit_HostRequests_11 :
    (let s := { stallS with refclk := true }
     (session s 2).outst = [⟨77, frameTo 0x10 8 0x800 0, 4000000, 0, 0, true⟩] ∧ s.mem.linkErrs = [] ∧ 0 + 8 ≤ lpSize s.mem ∧
      0x800_0000_0000 / 2 ^ 41 % 16 = 4 ∧ field (wordAt (frameTo 0x10 8 0x800 0).h 0) 27 24 = 2) ∧
    (let o : Outst := ⟨3, 0, .host 2 76, txn 4 bell5 9, false, 13, 1⟩
     let s := setParty (hostS 0x12) 21 { outst := [o] }
     farPending s 2 = true ∧ (session s 2).owner = some .pcie ∧ (session s 2).outst = [] ∧ (session s 2).closing = none) := by decide
/-- 11 R260: it completes as REFCLK_IN returns. -/
theorem test_stall_returns : (session (after (exec .refclkReturn stallS)) 2).outst = [] ∧ (after (exec .refclkReturn stallS)).host.stallQ = [] := by
  decide
/-- A request in the list past its deadline that could run, and one of a session that nobody holds. -/
theorem wit_HostRequests_12 : (let f := frameTo 0x10 0x4008 0x03E80200 0
    let s := inboxS f
    s.host.inbox = [⟨.pcie, f, 4000000⟩] ∧ s.mstate = .run ∧ (session s 2).owner = some .pcie ∧ (session s 2).cache = [] ∧
      (session s 2).outst.length < 64 ∧ (session { s with host := { s.host with sessions := [] } } 2).owner ≠ some .pcie) := by decide
/-- 02 R49: the shadow is the requester's, whichever die it reads the high word of. -/
theorem test_tb_shadow_die : (fabRead { after (exec (.sysTbLoRead .host 4) { t0 with tb := 0x1_FFFF_FFF0 }) with tb := 0x2_0000_0000 }
    (reqCode .host) 0 0x104).map Prod.fst = some 1 := by decide
theorem wit_TimeBaseReads_3 : (Requester.host ≠ .spire 0 0) ∧ spireIssues (sp 0x8C200010 0 0) 0 0 0x8C200010 .rds = true ∧
    (regRead t0 (reqCode (.spire 0 0)) 4 0x100).isSome = true ∧ reqCode (.spire 0 0) ≠ reqCode .host := by decide
/-- Sensors of two dies that pass T_warn in one sample; T_halt in BOOT; BOOT paused with every sensor cool, and with one at 110 degrees. -/
def hotTwo : State :=
  let v : Sensor := { samples := List.replicate 7 385, valid := true, warn := { above := 16 } }
  { t0 with power := { t0.power with sensors := [(0, v), (8, v)] } }
theorem wit_GovernorSensorsAndStalls_3 :
    (let u := thermalCounts (sampleAll hotTwo ((upTo 9).map (fun i => if i % 8 = 0 then 385 else 0)))
     tbRuns hotTwo = true ∧ (∀ d : Fin 4, toldFree hotTwo d = false) ∧ dieThermal hotTwo 0 < dieThermal u 0 ∧
      dieThermal hotTwo 1 < dieThermal u 1) ∧
    (fReached fS = true ∧ fReached t0 = false) ∧
    (∀ n : Fin 4, (t0.power.vreqOn.getD n 0).toNat = 30) ∧ t0.power.capE.getD 0 0 = t0.power.capT.getD 0 0 ∧
    (meshPort 0 0x302 = true ∧ meshPort 0 0x303 = false ∧ meshPort 4 0x433 = true ∧ meshPort 4 0x434 = false) := by decide +kernel
theorem wit_GovernorSensorsAndStalls_4 :
    (let s := { hotS 480 with mstate := .boot }
     let u := thermalCounts (sampleAll s [480])
     s.boot.paused = false ∧ dieThermal s 0 < dieThermal u 0 ∧ dieThermal u 0 = 3) ∧
    (let s := { t0 with mstate := .boot, boot := { t0.boot with paused := true } }
     s.boot.paused = true ∧ (∀ i : Fin 38, sensorOn s i = false)) ∧
    (let s := { hotS 440 with mstate := .boot, boot := { t0.boot with paused := true } }
     s.boot.paused = true ∧ sensorOn (sampleAll s [440]) 0 = true ∧ 420 < (sensor (sampleAll s [440]) 0).filt.toInt) := by decide +kernel
/-- 12 R299: T_halt in BOOT pauses programming; it goes on once every sensor is at T_slow or below. -/
theorem test_boot_pause : (after (exec (.sensorSample [480]) { hotS 480 with mstate := .boot })).boot.paused = true ∧
    (after (exec (.sensorSample [0]) { hotS 0 with mstate := .boot, boot := { t0.boot with paused := true } })).boot.paused = false := by
  decide +kernel
/-- 16 R395: LIM goes by the request of the last tick. -/
theorem test_lim : (let s := { t0 with power := { t0.power with capE := [50, 50, 50, 50], capT := [50, 50, 50, 50] } }
    (railLim s 0, railLim (after (exec (.vreqWrite 0 50) s)) 0)) = (0, 0) := by decide
/-- The named Bell of SYS_FLOG_BELL on die 1; a record of a die whose VCORE moved too fast; AUTO with the fault queue alone, and with a
session that has not got the record. -/
theorem wit_FaultLog_4 :
    (let s := { setEndp t0 13 { st := .up } with faults := { t0.faults with bellEn := true, bell := 0x205 } }
     s.faults.bellEn = true ∧ s.faults.bell.toNat = s.nld.chip.toNat * 2 ^ 13 + 1 * 2 ^ 9 + 5 ∧ diesJoined s 4 1 = true ∧ epOpen s 13 = true ∧
      nameBad s 0x105 8 = true) ∧
    (let s := { t0 with c0 := { t0.c0 with slewed := true } }
     toldFree s (field (wordAt [1, 2, 3, 4, 5, 6, 7, 8] 1) 12 9) = true) ∧
    (let s := { logS 7 with faults := { (logS 7).faults with auto := true } }
     s.faults.auto = true ∧ s.mstate ≠ .safe ∧ s.faults.qEn = true ∧ hostOn s = false ∧ (s.faults.tail - s.faults.head).toNat = 1 ∧
      (wordAt [0, 1, 0, 0, 0, 0, 0, 0] 2 + 1 - s.faults.head).toNat = 1) ∧
    (let s := { logS 7 with host := { (logS 7).host with sessions := [(2, { owner := some .pcie, sub := true })] } }
     hostOn s = true ∧ s.faults.hostNext = s.faults.head) := by decide
/-- 17 R401: the record's count goes to the Bell of SYS_FLOG_BELL. -/
theorem test_flog_bell : (endp (raise { setEndp t0 13 { st := .up } with faults := { t0.faults with bellEn := true, bell := 0x205 } }
    [0x0C000001, 4 * 2 ^ 9, 0, 0, 0, 0, 0, 0]) 13).txq.map (fun f => (wordAt f.body 0, wordAt f.body 2)) = [(0x30000000, 0x500)] := by decide
/-- 17 R400: AUTO frees the record that its only consumer has taken. -/
theorem test_auto_frees : (askDone { logS 7 with faults := { (logS 7).faults with auto := true } }
    ⟨0, 0, .faultQueue, ⟨body16 [0x50000000], []⟩, true, 12, 1⟩ 0 []).faults.head = 1 := by decide
/-- A RESUME that starts the Spire whose RUN was written in HALT. -/
theorem test_resume_arm : (let s := { setSpire t0 0 0 { runBit := true } with mstate := .halt, faults := { t0.faults with hmask := 16 } }
    (resumeOk s, (spire (after (exec (.resumeAction 0xA5C30001) s)) 0 0).st)) = (true, .running) := by decide +kernel
theorem wit_DomeCommands_4 : (∀ b : Bool, let s := { bootS 4 with tokenWait := [(0, 0, true)], boot := { (bootS 4).boot with paused := b } }
    s.mstate = .boot ∧ s.boot.paused = b ∧ s.tokenHeld.length < 32) := by decide
/-- 02 R39: after Dome 1 the pair of Dome 2 goes before the next one of Dome 1. -/
theorem test_dome_turn : (let x := fun (k : Nat) => (⟨0, 0, 1, 0, false, k⟩ : Pair)
    ((nextTurn 1 [x 1, x 1, x 2]).map (·.src), (nextTurn 2 [x 1, x 1, x 2]).map (·.src))) = ([2, 1, 1], [1, 1, 2]) := by decide
/-- 10 R226: PREV on a die that another chip has isolated. -/
theorem test_chain_far : chainLost { t0 with nld := { t0.nld with farIso := [(3, 1)], route := 0xFFFFFFFF } } 0 (3 * 2 ^ 13 + 2 ^ 9) = true := by decide
/-- CVT of binary32 into V8 with SR = 1, and into binary16; EXP below -87.3365. -/
theorem wit_LanternReductions_4 : lnIssues (lnS (lnW 0x38 3 1 0 0 + 4 * 2 ^ 35 + 3)) 0 0 run0 (lnDecode (lnW 0x38 3 1 0 0 + 4 * 2 ^ 35 + 3)) ∧
    dataFmt 3 = some .b32 ∧ dataFmt 0 = some .v8 ∧ (lnDecode (lnW 0x38 3 1 0 0 + 4 * 2 ^ 35 + 3)).nctl / 4 % 2 = 1 := by
  unfold lnIssues; decide
theorem wit_LanternReductions_5 : unpack b32 0xC2B00000 = .fin true (88 * 2 ^ 17) (-17) ∧ aboveDec (88 * 2 ^ 17) (-17) 873365 10000 = true := by decide
/-- 02 R43: a flit of a camera on H goes before one of the host engine, whose turn it is. -/
theorem test_reserved : (let f := fun (p : Nat) => (⟨2, 0, 0, body16 [0x20000000, w32 (4 * 512), 0, 0, w32 (p * 2 ^ 16)], 0⟩ : TxFlit)
    (reservedInput 12 (1000 + 0x408), reservedInput 12 (1000 + 0x401), reservedInput 0 (1000 + 0x408))) = (true, false, false) := by decide
/-- A report of the machine state at F's endpoint. -/
def reportS : State :=
  setEndp { fS with f := { fS.f with report := .boot, st := .rsafe } } 21
    { st := .up, wasUp := true, rx := [⟨body16 [0xC0000000, 2048, 0, 2560, 0, 2], []⟩] }
theorem wit_FieldDie_4 : ((nextTxn (endp reportS 21) 12).map (fun x => wordAt x.hdr 5)) = some 2 ∧ reportS.f.powered = true ∧
    nextTxn (endp fS 21) 12 = none ∧ fReached { fS with f := { fS.f with reports := [.run] } } = true := by decide
/-- 15 R350, 10 R230: H's report leaves over its SYS channel, and F, which takes it, goes LIVE. -/
theorem test_report : (endp (after (exec .mstateReport { fS with f := { fS.f with reports := [.run] } })) 16).txq.map
      (fun f => (f.vc, wordAt f.body 0, wordAt f.body 5)) = [(3, 0xC0000000, 2)] ∧
    (after (exec .mstateReport reportS)).f.st = .live := by decide +kernel
/-- Pulses at filtered inputs below, between and above the widths of Table 16-4. -/
def pulseS (s : State) (ns : Nat) : State := { s with power := { s.power with pulses := [ns] } }
theorem wit_pulses : (hostS 1).host.perst = false ∧ (pulseS (hostS 1) 99).power.pulses = 99 :: [] ∧ (hostS 1).power.pulses = [] ∧
    (pulseS t0 1).power.pulses = 1 :: [] ∧ (pulseS fS 4999).power.pulses = 4999 :: [] := by decide
/-- 16 R388: the filter rejects 99 ns at PCIE_PERST_N, 1 ns at U0_CTS_N and 999 ns at DI0, and passes 1 us, 5 ns and 5 us. -/
theorem test_pulses : ((after (exec .pciePerst (pulseS (hostS 1) 99))).host.perst, (after (exec .pciePerst (pulseS (hostS 1) 1000))).host.perst)
      = (false, true) ∧
    ((uart (after (exec (.uartCtsChange 0 true) (pulseS t0 1))) 0).ctsHigh, (uart (after (exec (.uartCtsChange 0 true) (pulseS t0 5))) 0).ctsHigh)
      = (false, true) ∧
    ((diCh (after (exec (.diFilteredChange 0) (pulseS fS 999))) 0).state, (diCh (after (exec (.diFilteredChange 0) (pulseS fS 5000))) 0).state)
      = (false, true) := by decide +kernel
/-- A submission ring whose last unit is a pad, with the tail at 0; a completion ring whose last unit is free but one; an event frame that
waits for another session. -/
theorem wit_PciExpress_4 :
    (let s := setSession (hostS 1) 2 { owner := some .pcie, sqHead := 1023 }
     frFT (frameOf (memBytes 0 s.host.rings (2 * 65536 + 1023 * 64) 64)) = 0 ∧ (0 : Word).toNat % 64 = 0 ∧ 0 < (session s 2).sqHead.toNat) ∧
    (let v : Session := { owner := some .pcie, liveLsize := 16, cqTail := 1023, cqHead := 1023,
                          toSend := [⟨⟨[0x30000000, 0, 0, 0, 0, 0, 0, 0], List.replicate 64 0⟩, none⟩] }
     let s := setSession (hostS 1) 2 v
     hostOn s = false ∧ maySend s ⟨[0x30000000, 0, 0, 0, 0, 0, 0, 0], List.replicate 64 0⟩ = true ∧
      2 ^ 10 < 1023 + (32 + 64 + 63) / 64 ∧ (v.cqTail + 1024 - v.cqHead.toNat % 1024) % 1024 + (1024 - 1023) + 2 < 1024) ∧
    (let e : OutFrame := ⟨⟨[0x30000000, 0, 0, 0, 0, 0, 0, 0], []⟩, none⟩
     let g : OutFrame := ⟨⟨[0x32000000, 0, 0, 0, 0, 0, 0, 0], []⟩, none⟩
     let s := { t0 with host := { t0.host with sessions :=
       [(0, { owner := some .pcie, sub := true, toSend := [e, e] }), (2, { owner := some .pcie, sub := true, toSend := [g] })] } }
     maySend s g.f = false ∧ maySend s e.f = true) := by decide
/-- 13 R321: such a frame goes to the start of the ring behind a pad. -/
theorem test_cq_wrap : (let f : Frame := ⟨[0x32000000, 0, 0, 0, 0, 0, 0, 0], List.replicate 64 0⟩
    (session (after (exec (.cqFrameWrite 2) (setSession (hostS 1) 2
      { owner := some .pcie, liveLsize := 16, cqTail := 1023, cqHead := 1023, toSend := [⟨f, none⟩] }))) 2).cqTail) = 2 := by decide
/-- 17 R399: a camera's line past the end of the Vault is recorded. -/
theorem test_csi_addr : (askDone (csiS none) ⟨0, 0, .camera 0 1 0 none, ⟨body16 [0x20000000], []⟩, true, 12, 1⟩ 1 []).faults.tail = 1 := by decide
/-- A port whose EN was written in HALT, with a sound configuration and with a broken one, and a RESUME. -/
theorem wit_SerialPorts_6 :
    (let s := { uaS {} with mstate := .halt, faults := { t0.faults with hmask := 16 } }
     let u := setUart s 0 { uart s 0 with st := .off, enWait := true }
     resumeOk u = true ∧ (uart u 0).enWait = true ∧ (uart u 0).stopping = false ∧ uartOk u (uart u 0) = true ∧
      (after (exec (.resumeAction 0xA5C30001) u)).mstate = .run) ∧
    (let s := { setUart t0 0 { baud := 15 } with mstate := .halt }
     (uart s 0).cfg.getLsbD 31 = false ∧ field (uart s 0).baud 19 0 < 16) := by decide +kernel
/-- 00 R7: EN = 1 written in HALT with a broken configuration sets CFGERR; one that is sound starts the port at RESUME. -/
theorem test_uart_halt : (uart (after (exec (.uartEnable 0 0x88000000) { setUart t0 0 {} with mstate := .halt })) 0).cfgerr = true ∧
    (let s := { uaS {} with mstate := .halt, faults := { t0.faults with hmask := 16 } }
     (uart (after (exec (.resumeAction 0xA5C30001) (setUart s 0 { uart s 0 with st := .off, enWait := true }))) 0).st) = .active := by
  decide +kernel
/-- 12 R290: a Spire whose RUN the image has written runs at the release. -/
theorem test_release_spire : (spire (after (exec .bootRelease (setSpire (bootB 7 (fun v => { v with rel := 2 })) 0 0 { runBit := true }))) 0 0).st
    = .running := by decide +kernel
/-- 12 R291: FIO_DI_EDGE holds its bits again in the attempt of slot B. -/
theorem test_undo_edge : (putBack t0 (5, 0x10324, 3)).f.edge = 3 ∧ undoOf t0 4 0xC1808 = [(4, 0xC1808, 0)] := by decide

/-! ### Invariants -/

theorem wit_StepKeepsTimeBase : t0.tbOk = true ∧ t0.tbStarted = true ∧ ({ t0 with tb := 0 } : State).tb = 0 := by decide
theorem wit_StepKeepsMemory : t0.memOk = true ∧ ({ t0 with c0 := { t0.c0 with vault := [(3, 1), (7, 9)] } } : State).memOk = true := by decide
theorem wit_StepKeepsMemory_2 : t0.queuesOk = true ∧ (withQ t0 8).queuesOk = true ∧ (withQ t0 9).queuesOk = false ∧ t0.logOk = true ∧
    ({ t0 with faults := { t0.faults with tail := 256 } } : State).logOk = true ∧ (spv 0 { cwp := 7, live := 7 }).windowsOk = true ∧
    (spv 0 { cwp := 8 }).windowsOk = false ∧ ({ t0 with tokenHeld := List.replicate 32 (0, 0, true) } : State).tokensOk = true := by decide

end Sys2Proof.Tests
end

section
/-! The byte memory read back after a write of many bytes (00 R428). -/

namespace Sys2Proof.Machine

/-! ### Reads of a memory put together from parts -/

/-- A read looks for the entry of its address in the lower part of a memory or in the upper one. -/
theorem memRead_append (f : Byte) {l r : Mem} {mid : Nat} (b : Nat) (hr : memWfFrom f mid r = true)
    (lt : ∀ c ∈ l, c.1 < mid) :
    memRead f (l ++ r) b = if b < mid then memRead f l b else memRead f r b := by
  induction l with
  | nil =>
    split
    · rename_i hb; exact memRead_low f hr hb
    · rfl
  | cons e t ih =>
    obtain ⟨c, v⟩ := e
    have hc : c < mid := lt (c, v) (by simp)
    have rest := ih (fun x hx => lt x (by simp [hx]))
    simp only [List.cons_append, memRead, rest]
    by_cases hb : b < mid
    · simp only [hb, if_true]
    · simp only [hb, if_false, show ¬ c = b by omega, show ¬ b < c by omega]

/-- Entries of other addresses taken out of a canonical memory do not change what an address reads. -/
theorem memRead_filter (f : Byte) {m : Mem} {lo : Nat} (p : Host.Cell → Bool) (b : Nat) (h : memWfFrom f lo m = true)
    (hp : ∀ v, p (b, v) = true) : memRead f (m.filter p) b = memRead f m b := by
  induction m generalizing lo with
  | nil => rfl
  | cons e t ih =>
    obtain ⟨c, v⟩ := e
    simp only [memWfFrom, Bool.and_eq_true, decide_eq_true_eq] at h
    obtain ⟨-, ht⟩ := h
    have rest := ih ht
    by_cases hc : c = b
    · subst hc; simp [hp, memRead]
    · by_cases kept : p (c, v) = true
      · rw [List.filter_cons_of_pos kept]
        simp only [memRead, hc, if_false, rest]
      · rw [List.filter_cons_of_neg kept, rest]
        simp only [memRead, hc, if_false]
        split
        · rename_i hb; exact memRead_low f ht (by omega)
        · rfl

theorem memRead_memCells (f : Byte) {a b : Nat} (bs : List Byte) (h : a ≤ b) :
    memRead f (memCells f a bs) b = bs.getD (b - a) f := by
  induction bs generalizing a with
  | nil => simp [memCells, memRead]
  | cons x xs ih =>
    obtain rfl | hab := Nat.eq_or_lt_of_le h
    · by_cases hx : x = f
      · simpa [memCells, hx] using memRead_low f (memCells_from f (a + 1) xs) (Nat.lt_succ_self a)
      · simp [memCells, hx, memRead]
    · have later : (x :: xs).getD (b - a) f = xs.getD (b - (a + 1)) f := by
        rw [show b - a = b - (a + 1) + 1 by omega]; rfl
      rw [later]
      by_cases hx : x = f
      · simp only [memCells, hx, if_true, ih hab]
      · simp only [memCells, hx, if_false, memRead, show ¬ a = b by omega, show ¬ b < a by omega, ih hab]

/-- The bytes put are read back, and every other byte is as it was. -/
theorem memRead_memPut (f : Byte) {m : Mem} (a b : Nat) (bs : List Byte) (h : memWf f m = true) :
    memRead f (memPut f m a bs) b =
      if a ≤ b ∧ b < a + bs.length then bs.getD (b - a) f else memRead f m b := by
  have above : memWfFrom f (a + bs.length) (memFrom m (a + bs.length)) = true := memFrom_from f _ h
  have upper : memWfFrom f a (memCells f a bs ++ memFrom m (a + bs.length)) = true :=
    memWfFrom_append f (memCells_from f a bs) above (memCells_lt f a bs) (by omega)
  have below : ∀ c ∈ memBelow m a, c.1 < a := fun c hc => by simp [memBelow] at hc; exact hc.2
  rw [memPut, List.append_assoc, memRead_append f b upper below, memRead_append f b above (memCells_lt f a bs)]
  by_cases h1 : b < a
  · rw [if_pos h1, if_neg (by omega)]
    exact memRead_filter f _ b h (fun v => by simpa using h1)
  · by_cases h2 : b < a + bs.length
    · rw [if_neg h1, if_pos h2, if_pos (by omega), memRead_memCells f bs (by omega)]
    · rw [if_neg h1, if_neg h2, if_neg (by omega)]
      exact memRead_filter f _ b h (fun v => by simpa using h2)

/-! ### Reads of many bytes -/

theorem memWalk_eq_map (f : Byte) {m : Mem} {a : Nat} (n : Nat) (h : memWfFrom f a m = true) :
    memWalk f m a n = (List.range n).map (fun i => memRead f m (a + i)) := by
  induction n generalizing m a with
  | zero => simp [memWalk]
  | succ n ih =>
    rw [List.range_succ_eq_map, List.map_cons, List.map_map]
    match m with
    | [] =>
      rw [memWalk, ih (m := []) rfl]
      rfl
    | (c, v) :: t =>
      simp only [memWfFrom, Bool.and_eq_true, decide_eq_true_eq] at h
      obtain ⟨⟨hc, hv⟩, ht⟩ := h
      by_cases hca : c = a
      · subst hca
        rw [memWalk, if_pos rfl, ih ht]
        congr 1
        · simp [memRead]
        · refine List.map_congr_left fun i _ => ?_
          simp only [Function.comp, memRead, show ¬ c = c + (i + 1) by omega, show ¬ c + (i + 1) < c by omega, if_false,
            show c + 1 + i = c + (i + 1) by omega, Nat.succ_eq_add_one]
      · rw [memWalk, if_neg hca, ih (m := (c, v) :: t) (by simp [memWfFrom, hv, ht]; omega)]
        congr 1
        · simp only [memRead, Nat.add_zero, hca, if_false, show a < c by omega, if_true]
        · refine List.map_congr_left fun i _ => ?_
          simp only [Function.comp, show a + 1 + i = a + (i + 1) by omega, Nat.succ_eq_add_one]

/-- A read of n bytes gives the n single bytes in rising order. -/
theorem memBytes_eq_map (f : Byte) {m : Mem} (a n : Nat) (h : memWf f m = true) :
    memBytes f m a n = (List.range n).map (fun i => memRead f m (a + i)) := by
  rw [memBytes, memWalk_eq_map f n (memFrom_from f a h)]
  exact List.map_congr_left fun i _ => memRead_filter f _ (a + i) h (fun v => by simp)

end Sys2Proof.Machine

open Sys2Proof.Machine in
/-- Settles O10: a write replaces the middle part of the canonical memory, and a read finds its entry in one of the three parts. -/
theorem byteMemoryReadAfterWrite : Obligations.ByteMemoryReadAfterWrite := by
  unfold Obligations.ByteMemoryReadAfterWrite
  intro fill m a b bs h
  exact ⟨memWf_memPut fill a bs h, memRead_memPut fill a b bs h, memBytes_eq_map fill a bs.length h⟩
end

section
/-! Reading a counter of access code RC (00 R7). -/

namespace Sys2Proof.Machine

/-- Where software reaches the registers, a command that stands for a register access has its effect. -/
theorem exec_of_regsUp {c : Instr} {s t u : State} (up : regsUp s = true)
    (h : exec c s = .next (if regsUp s then t else u)) : exec c s = .next t := by
  rw [h, if_pos up]

/-- A die whose contents are specified gives out what it holds. -/
theorem dieSays_whole {s : State} {d : Nat} (w : Word) (h : d < 4 → (cd s d).slewed = false) : dieSays s d w = (w, s) := by
  have : ¬ (d < 4 ∧ (cd s d).slewed = true) := fun ⟨hd, hs⟩ => by simp [h hd] at hs
  rw [dieSays, if_neg this]

/-- A counter of a link endpoint whose die's contents are specified (10 R250). -/
theorem nldEpCounterRead_whole {s : State} (e : Ep) (k : EpCounter) (up : regsUp s = true)
    (whole : epDie (epCode e) < 4 → (cd s (epDie (epCode e))).slewed = false) :
    exec (.nldEpCounterRead e k) s =
      .next (setEndp (outRead s (epCount (endp s (epCode e)) k)) (epCode e) (epCountClear (endp s (epCode e)) k)) := by
  have given := dieSays_whole (epCount (endp s (epCode e)) k) whole
  refine exec_of_regsUp (u := s) up ?_
  show Host.Outcome.next _ = _
  rw [given]

/-- The highest filtered temperature since the last read (16 R389). -/
theorem thmPeakRead_up {s : State} (up : regsUp s = true) :
    exec .thmPeakRead s =
      .next { outRead s (s.power.peak.setWidth 32) with power := { s.power with peak := 0x800 } } := by
  rw [← BitVec.ofNat_toNat]
  exact exec_of_regsUp up rfl

end Sys2Proof.Machine

open Sys2Proof Sys2Proof.Machine in
/-- Settles O31: each row is its command where registers are accessed; the link counters need their die's contents to be specified. -/
theorem countersReadAndClear : Obligations.CountersReadAndClear := by
  unfold Obligations.CountersReadAndClear
  intro s d d5 n q e m r u up whole
  have row : ∀ {c : Instr} {t u : State}, exec c s = .next (if regsUp s then t else u) → exec c s = .next t :=
    exec_of_regsUp up
  have link := fun k => nldEpCounterRead_whole e k up whole
  simp only [List.forall_mem_cons]
  exact ⟨row rfl, row rfl, row rfl, row rfl, row rfl, row rfl, row rfl, row rfl, row rfl, row rfl, row rfl, row rfl,
    link .crc, link .replay, link .retrain, link .dup, link .cstall, row rfl, row rfl, row rfl, row rfl, row rfl, row rfl,
    row rfl, row rfl, row rfl, row rfl, row rfl, row rfl, row rfl, row rfl, row rfl, row rfl, row rfl, thmPeakRead_up up,
    row rfl, fun _ h => absurd h (List.not_mem_nil)⟩
end

section
/-! What every command keeps (00 R428; 04 R94; 08 R180, R181; 09 R211; 17 R398): one relation between the state before and the state
after, with a rule for each way in which the model's operations change a state. -/

namespace Sys2Proof.Machine

/-! ### The relation -/

/-- The queue holds no more than its ring has places (09 R211). -/
def QueueFits (q : Queue) : Prop := q.occ ≤ queDepth q

/-- The current window is a window, and 1 to 7 windows are live (08 R180, R181). -/
def WindowsFit (v : Spire) : Prop := v.cwp < 8 ∧ 1 ≤ v.live ∧ v.live ≤ 7

/-- The die c may stand for die d of a state that has come from σ: it is specified as that one was, and where the invariants held in σ its
memories are canonical and, if it is specified, its queues and windows fit. -/
def DieKeeps (σ : State) (d : Nat) (c : CDie) : Prop :=
  c.slewed = (cd σ d).slewed ∧ (σ.memOk = true → c.memOk = true) ∧
    (σ.queuesOk = true → (cd σ d).slewed = false → ∀ e ∈ c.queues, QueueFits e.2) ∧
    (σ.windowsOk = true → (cd σ d).slewed = false → ∀ e ∈ c.spires, WindowsFit e.2)

/-- The state s, which has come from σ, meets every invariant that σ met, and the same dies are specified in both. -/
def Keeps (σ s : State) : Prop :=
  DieKeeps σ 0 s.c0 ∧ DieKeeps σ 1 s.c1 ∧ DieKeeps σ 2 s.c2 ∧ DieKeeps σ 3 s.c3 ∧
    (σ.memOk = true → memRises 0 s.mem.lpddr = true ∧ memWf flashFill s.flash = true ∧ memWf 0 s.host.rings = true) ∧
    (logCount σ ≤ 256 → logCount s ≤ 256) ∧
    (σ.tokenHeld.length ≤ 32 → s.tokenHeld.length ≤ 32)

/-- A Spire that may stand in die d of a state that has come from σ. -/
def SpireKeeps (σ : State) (d : Nat) (v : Spire) : Prop := σ.windowsOk = true → (cd σ d).slewed = false → WindowsFit v

/-- A queue that may stand in die d of a state that has come from σ. -/
def QueueKeeps (σ : State) (d : Nat) (q : Queue) : Prop := σ.queuesOk = true → (cd σ d).slewed = false → QueueFits q

/-- The dies 0 to 3 by number; every further number names die 3. -/
theorem dieKeeps_cd {σ s : State} (hs : Keeps σ s) (d : Nat) : DieKeeps σ d (cd s d) := by
  obtain ⟨h0, h1, h2, h3, -⟩ := hs
  match d with
  | 0 => exact h0
  | 1 => exact h1
  | 2 => exact h2
  | _ + 3 => exact h3

theorem cDie_queuesOk_iff {c : CDie} :
    c.queuesOk = true ↔ (c.slewed = false → ∀ e ∈ c.queues, QueueFits e.2) := by
  cases h : c.slewed <;> simp [CDie.queuesOk, QueueFits, h]

theorem cDie_windowsOk_iff {c : CDie} :
    c.windowsOk = true ↔ (c.slewed = false → ∀ e ∈ c.spires, WindowsFit e.2) := by
  cases h : c.slewed <;> simp [CDie.windowsOk, WindowsFit, h, and_assoc]

theorem memOk_iff {s : State} :
    s.memOk = true ↔ (∀ d, (cd s d).memOk = true) ∧
      memRises 0 s.mem.lpddr = true ∧ memWf flashFill s.flash = true ∧ memWf 0 s.host.rings = true := by
  simp only [State.memOk, Bool.and_eq_true, and_assoc]
  refine ⟨fun ⟨h0, h1, h2, h3, h⟩ => ⟨fun d => ?_, h⟩, fun ⟨h, hm⟩ => ⟨h 0, h 1, h 2, h 3, hm⟩⟩
  match d with
  | 0 => exact h0
  | 1 => exact h1
  | 2 => exact h2
  | _ + 3 => exact h3

theorem queuesOk_iff {s : State} : s.queuesOk = true ↔ ∀ d, (cd s d).queuesOk = true := by
  simp only [State.queuesOk, Bool.and_eq_true, and_assoc]
  refine ⟨fun ⟨h0, h1, h2, h3⟩ d => ?_, fun h => ⟨h 0, h 1, h 2, h 3⟩⟩
  match d with
  | 0 => exact h0
  | 1 => exact h1
  | 2 => exact h2
  | _ + 3 => exact h3

theorem windowsOk_iff {s : State} : s.windowsOk = true ↔ ∀ d, (cd s d).windowsOk = true := by
  simp only [State.windowsOk, Bool.and_eq_true, and_assoc]
  refine ⟨fun ⟨h0, h1, h2, h3⟩ d => ?_, fun h => ⟨h 0, h 1, h 2, h 3⟩⟩
  match d with
  | 0 => exact h0
  | 1 => exact h1
  | 2 => exact h2
  | _ + 3 => exact h3

/-- A state keeps what it has. -/
theorem Keeps.refl (s : State) : Keeps s s := by
  have die : ∀ d, DieKeeps s d (cd s d) := fun d =>
    ⟨rfl, fun h => (memOk_iff.1 h).1 d, fun h => cDie_queuesOk_iff.1 (queuesOk_iff.1 h d),
      fun h => cDie_windowsOk_iff.1 (windowsOk_iff.1 h d)⟩
  exact ⟨die 0, die 1, die 2, die 3, fun h => (memOk_iff.1 h).2, id, id⟩

/-- What is kept of the invariants of the statement, whatever becomes of the dies that R376 leaves unspecified. -/
def Holds (σ s : State) : Prop :=
  (σ.memOk = true → s.memOk = true) ∧ (σ.queuesOk = true → s.queuesOk = true) ∧ (σ.logOk = true → s.logOk = true) ∧
    (σ.windowsOk = true → s.windowsOk = true) ∧ (σ.tokensOk = true → s.tokensOk = true)

theorem Keeps.holds {σ s : State} (hs : Keeps σ s) : Holds σ s := by
  have die := dieKeeps_cd hs
  obtain ⟨-, -, -, -, hm, hl, ht⟩ := hs
  refine ⟨fun h => memOk_iff.2 ⟨fun d => (die d).2.1 h, hm h⟩, fun h => queuesOk_iff.2 fun d => cDie_queuesOk_iff.2 fun w => ?_,
    fun h => ?_, fun h => windowsOk_iff.2 fun d => cDie_windowsOk_iff.2 fun w => ?_, fun h => ?_⟩
  · obtain ⟨hs, -, hq, -⟩ := die d
    exact hq h (hs ▸ w)
  · simpa [State.logOk] using hl (by simpa [State.logOk] using h)
  · obtain ⟨hs, -, -, hw⟩ := die d
    exact hw h (hs ▸ w)
  · simpa [State.tokensOk] using ht (by simpa [State.tokensOk] using h)

/-! ### Tables of units -/

/-- A table whose unit k has been replaced holds that unit and units that it held. -/
theorem mem_tabSet {α : Type} {t : Tab α} {k : Nat} {v : α} {e : Nat × α} (h : e ∈ tabSet t k v) : e.2 = v ∨ e ∈ t := by
  induction t with
  | nil => simp_all [tabSet]
  | cons x t ih =>
    obtain ⟨j, u⟩ := x
    simp only [tabSet] at h
    split at h
    · rcases List.mem_cons.1 h with rfl | h
      · exact .inl rfl
      · exact .inr (List.mem_cons_of_mem _ h)
    · split at h
      · rcases List.mem_cons.1 h with rfl | h
        · exact .inl rfl
        · exact .inr h
      · rcases List.mem_cons.1 h with rfl | h
        · exact .inr List.mem_cons_self
        · exact (ih h).imp id (List.mem_cons_of_mem _)

/-- What every unit of a table and the reset unit are, the unit of any number is. -/
theorem tabGet_of_forall {α : Type} {t : Tab α} {d : α} {p : α → Prop} (k : Nat) (hd : p d) (h : ∀ e ∈ t, p e.2) :
    p (tabGet d t k) := by
  induction t with
  | nil => exact hd
  | cons x t ih =>
    simp only [List.forall_mem_cons] at h
    simp only [tabGet]
    split
    · exact h.1
    · exact ih h.2

/-! ### The units of a die -/

variable {σ s : State} {d n : Nat}

theorem dieKeeps_spire {c : CDie} (h : DieKeeps σ d c) (n : Nat) : SpireKeeps σ d (tabGet {} c.spires n) :=
  fun hw w => tabGet_of_forall n ⟨by decide, by decide, by decide⟩ (h.2.2.2 hw w)

theorem dieKeeps_queue {c : CDie} (h : DieKeeps σ d c) (n : Nat) : QueueKeeps σ d (tabGet {} c.queues n) :=
  fun hq w => tabGet_of_forall n (Nat.zero_le _) (h.2.2.1 hq w)

/-- A Spire read in a state that has come from σ. -/
theorem spireKeeps_spire (hs : Keeps σ s) : SpireKeeps σ d (spire s d n) := dieKeeps_spire (dieKeeps_cd hs d) n

/-- A queue read in a state that has come from σ. -/
theorem queueKeeps_queue (hs : Keeps σ s) : QueueKeeps σ d (queue s d n) := dieKeeps_queue (dieKeeps_cd hs d) n

theorem dieKeeps_setSpires {c : CDie} {v : Spire} (h : DieKeeps σ d c) (hv : SpireKeeps σ d v) :
    DieKeeps σ d { c with spires := tabSet c.spires n v } := by
  obtain ⟨slewed, hm, hq, hw⟩ := h
  refine ⟨slewed, hm, hq, fun h w e he => ?_⟩
  rcases mem_tabSet he with hev | he
  · rw [hev]; exact hv h w
  · exact hw h w e he

theorem dieKeeps_setQueues {c : CDie} {v : Queue} (h : DieKeeps σ d c) (hv : QueueKeeps σ d v) :
    DieKeeps σ d { c with queues := tabSet c.queues n v } := by
  obtain ⟨slewed, hm, hq, hw⟩ := h
  refine ⟨slewed, hm, fun h w e he => ?_, hw⟩
  rcases mem_tabSet he with hev | he
  · rw [hev]; exact hv h w
  · exact hq h w e he

/-- Every Spire of a die replaced by one that fits where it does. -/
theorem dieKeeps_mapSpires {c : CDie} {f : Nat × Spire → Nat × Spire} (h : DieKeeps σ d c)
    (hf : ∀ e, WindowsFit e.2 → WindowsFit (f e).2) : DieKeeps σ d { c with spires := c.spires.map f } := by
  obtain ⟨slewed, hm, hq, hw⟩ := h
  refine ⟨slewed, hm, hq, fun h w => ?_⟩
  rw [List.forall_mem_map]
  exact fun e he => hf e (hw h w e he)

/-- Every queue of a die replaced by one that fits where it does. -/
theorem dieKeeps_mapQueues {c : CDie} {f : Nat × Queue → Nat × Queue} (h : DieKeeps σ d c)
    (hf : ∀ e, QueueFits e.2 → QueueFits (f e).2) : DieKeeps σ d { c with queues := c.queues.map f } := by
  obtain ⟨slewed, hm, hq, hw⟩ := h
  refine ⟨slewed, hm, fun h w => ?_, hw⟩
  rw [List.forall_mem_map]
  exact fun e he => hf e (hq h w e he)

theorem cDie_memOk_iff {c : CDie} : c.memOk = true ↔
    memWf 0 c.vault = true ∧ memWf 0 c.domeMem = true ∧ memWf 0 c.spireMem = true ∧ memWf 0 c.lnPmem = true := by
  simp [CDie.memOk, and_assoc]

/-- New contents of a die's memories, each canonical where the old ones are. -/
theorem dieKeeps_mems {c : CDie} {va dm sm lp : Mem} (h : DieKeeps σ d c) (hva : memWf 0 c.vault = true → memWf 0 va = true)
    (hdm : memWf 0 c.domeMem = true → memWf 0 dm = true) (hsm : memWf 0 c.spireMem = true → memWf 0 sm = true)
    (hlp : memWf 0 c.lnPmem = true → memWf 0 lp = true) :
    DieKeeps σ d { c with vault := va, domeMem := dm, spireMem := sm, lnPmem := lp } := by
  obtain ⟨slewed, hm, hq, hw⟩ := h
  refine ⟨slewed, fun h => cDie_memOk_iff.2 ?_, hq, hw⟩
  obtain ⟨h1, h2, h3, h4⟩ := cDie_memOk_iff.1 (hm h)
  exact ⟨hva h1, hdm h2, hsm h3, hlp h4⟩

theorem spireKeeps_ite {p : Prop} [Decidable p] {v w : Spire} (hv : SpireKeeps σ d v) (hw : SpireKeeps σ d w) :
    SpireKeeps σ d (if p then v else w) := by
  split
  · exact hv
  · exact hw

/-! ### A die replaced -/

/-- An unspecified die may stand where one stood (16 R376). -/
theorem dieKeeps_freeDie (k : Nat) (h : (cd σ d).slewed = true) : DieKeeps σ d (freeDie k) := by
  refine ⟨h.symm, fun _ => cDie_memOk_iff.2 ?_, fun _ w => ?_, fun _ w => ?_⟩
  · exact ⟨memWf_memNorm _ _, memWf_memNorm _ _, memWf_memNorm _ _, memWf_memNorm _ _⟩
  · simp [h] at w
  · simp [h] at w

theorem keeps_putCd {c : CDie} (hs : Keeps σ s) (h : DieKeeps σ d c) : Keeps σ (putCd s d c) := by
  obtain ⟨h0, h1, h2, h3, rest⟩ := hs
  match d with
  | 0 => exact ⟨h, h1, h2, h3, rest⟩
  | 1 => exact ⟨h0, h, h2, h3, rest⟩
  | 2 => exact ⟨h0, h1, h, h3, rest⟩
  | _ + 3 => exact ⟨h0, h1, h2, h, rest⟩

theorem keeps_setCd {c : CDie} (hs : Keeps σ s) (h : DieKeeps σ d c) : Keeps σ (setCd s d c) := by
  unfold setCd
  split
  · rename_i w
    exact keeps_putCd hs (dieKeeps_freeDie _ ((dieKeeps_cd hs d).1 ▸ w))
  · exact keeps_putCd hs h

theorem keeps_foldl {α : Type} {f : State → α → State} {l : List α} (hs : Keeps σ s)
    (hf : ∀ t a, Keeps σ t → Keeps σ (f t a)) : Keeps σ (l.foldl f s) := by
  induction l generalizing s with
  | nil => exact hs
  | cons a l ih => exact ih (hf s a hs)

theorem keeps_mapDies {f : CDie → CDie} (hs : Keeps σ s) (hf : ∀ d c, DieKeeps σ d c → DieKeeps σ d (f c)) :
    Keeps σ (mapDies s f) :=
  keeps_foldl hs fun _ d ht => keeps_setCd ht (hf d _ (dieKeeps_cd ht d))

/-! ### A unit replaced -/

theorem keeps_setDome {v : Dome} (hs : Keeps σ s) : Keeps σ (setDome s d n v) := keeps_setCd hs (dieKeeps_cd hs d)

theorem keeps_setTower {v : Tower} (hs : Keeps σ s) : Keeps σ (setTower s d n v) := keeps_setCd hs (dieKeeps_cd hs d)

theorem keeps_setPlinth {v : Plinth} (hs : Keeps σ s) : Keeps σ (setPlinth s d n v) := keeps_setCd hs (dieKeeps_cd hs d)

theorem keeps_setLantern {v : Lantern} (hs : Keeps σ s) : Keeps σ (setLantern s d n v) := keeps_setCd hs (dieKeeps_cd hs d)

theorem keeps_setBell {v : Bell} (hs : Keeps σ s) : Keeps σ (setBell s d n v) := keeps_setCd hs (dieKeeps_cd hs d)

theorem keeps_setSpire {v : Spire} (hs : Keeps σ s) (hv : SpireKeeps σ d v) : Keeps σ (setSpire s d n v) :=
  keeps_setCd hs (dieKeeps_setSpires (dieKeeps_cd hs d) hv)

theorem keeps_setQueue {v : Queue} (hs : Keeps σ s) (hv : QueueKeeps σ d v) : Keeps σ (setQueue s d n v) :=
  keeps_setCd hs (dieKeeps_setQueues (dieKeeps_cd hs d) hv)

theorem keeps_setSysDie {v : SysDie} (hs : Keeps σ s) : Keeps σ (setSysDie s d v) := by
  unfold setSysDie
  split
  · exact keeps_setCd hs (dieKeeps_cd hs d)
  · exact hs

theorem keeps_ite {p : Prop} [Decidable p] {s t : State} (hs : Keeps σ s) (ht : Keeps σ t) :
    Keeps σ (if p then s else t) := by
  split
  · exact hs
  · exact ht

/-! ### A part of the state that no invariant speaks of -/

theorem keeps_withPending {x : List Instr} (hs : Keeps σ s) : Keeps σ { s with pending := x } := hs

theorem keeps_withFree {x : Nat} (hs : Keeps σ s) : Keeps σ { s with free := x } := hs

theorem keeps_withOutputs {x : List Output} (hs : Keeps σ s) : Keeps σ { s with outputs := x } := hs

theorem keeps_withShadows {x : Tab Word} (hs : Keeps σ s) : Keeps σ { s with shadows := x } := hs

theorem keeps_withTokenWait {x : List (Nat × Nat × Bool)} (hs : Keeps σ s) : Keeps σ { s with tokenWait := x } := hs

theorem keeps_withNld {x : Nld} (hs : Keeps σ s) : Keeps σ { s with nld := x } := hs

theorem keeps_withBoot {x : Boot} (hs : Keeps σ s) : Keeps σ { s with boot := x } := hs

theorem keeps_withOtp {x : Otp} (hs : Keeps σ s) : Keeps σ { s with otp := x } := hs

theorem keeps_withUarts {x : Tab Uart} (hs : Keeps σ s) : Keeps σ { s with uarts := x } := hs

theorem keeps_withF {x : FDie} (hs : Keeps σ s) : Keeps σ { s with f := x } := hs

theorem keeps_withPower {x : Power} (hs : Keeps σ s) : Keeps σ { s with power := x } := hs

theorem keeps_withRefclk {x : Bool} (hs : Keeps σ s) : Keeps σ { s with refclk := x } := hs

/-- The memory controller and the movers, with the same LPDDR contents. -/
theorem keeps_withMem {x : MemCtl} (hs : Keeps σ s) (same : x.lpddr = s.mem.lpddr) : Keeps σ { s with mem := x } := by
  obtain ⟨h0, h1, h2, h3, hm, rest⟩ := hs
  exact ⟨h0, h1, h2, h3, fun hσ => by rw [same]; exact hm hσ, rest⟩

/-- The host side, with the same submission rings. -/
theorem keeps_withHost {x : HostIf} (hs : Keeps σ s) (same : x.rings = s.host.rings) : Keeps σ { s with host := x } := by
  obtain ⟨h0, h1, h2, h3, hm, rest⟩ := hs
  exact ⟨h0, h1, h2, h3, fun hσ => by rw [same]; exact hm hσ, rest⟩

/-- New contents of the flash, canonical where the old ones are. -/
theorem keeps_withFlash {m : Mem} (hs : Keeps σ s) (h : memWf flashFill s.flash = true → memWf flashFill m = true) :
    Keeps σ { s with flash := m } := by
  obtain ⟨h0, h1, h2, h3, hm, rest⟩ := hs
  exact ⟨h0, h1, h2, h3, fun hσ => ⟨(hm hσ).1, h (hm hσ).2.1, (hm hσ).2.2⟩, rest⟩

/-- The fault log, its ends no further apart than 256 records where the old ones are not. -/
theorem keeps_withFaults {f : Faults} (hs : Keeps σ s) (h : logCount s ≤ 256 → (f.tail - f.head).toNat ≤ 256) :
    Keeps σ { s with faults := f } := by
  obtain ⟨h0, h1, h2, h3, hm, hl, ht⟩ := hs
  exact ⟨h0, h1, h2, h3, hm, fun hσ => h (hl hσ), ht⟩

/-- The tokens held, no more than 32 where there were no more. -/
theorem keeps_withTokenHeld {l : List (Nat × Nat × Bool)} (hs : Keeps σ s)
    (h : s.tokenHeld.length ≤ 32 → l.length ≤ 32) : Keeps σ { s with tokenHeld := l } := by
  obtain ⟨h0, h1, h2, h3, hm, hl, ht⟩ := hs
  exact ⟨h0, h1, h2, h3, hm, hl, fun hσ => h (ht hσ)⟩

/-! ### States that an operation may answer -/

/-- The state behind what an operation gives out. -/
theorem keeps_snd_ite {α : Type} {p : Prop} [Decidable p] {a b : α × State} (ha : Keeps σ a.2) (hb : Keeps σ b.2) :
    Keeps σ (if p then a else b).2 := by
  split
  · exact ha
  · exact hb

theorem keeps_of_snd_eq {α : Type} {x : α × State} {a : α} (h : x = (a, s)) (hx : Keeps σ x.2) : Keeps σ s := by
  rw [h] at hx
  exact hx

/-- Whatever state an operation answers, if it answers one. -/
def OptKeeps (σ : State) (o : Option State) : Prop := ∀ t, o = some t → Keeps σ t

theorem optKeeps_none : OptKeeps σ none := fun _ h => nomatch h

theorem optKeeps_some (hs : Keeps σ s) : OptKeeps σ (some s) := fun _ h => Option.some.inj h ▸ hs

theorem optKeeps_ite {p : Prop} [Decidable p] {o q : Option State} (ho : OptKeeps σ o) (hq : OptKeeps σ q) :
    OptKeeps σ (if p then o else q) := by
  split
  · exact ho
  · exact hq

theorem optKeeps_map {α : Type} {o : Option α} {f : α → State} (hf : ∀ a, Keeps σ (f a)) : OptKeeps σ (o.map f) := by
  cases o with
  | none => exact optKeeps_none
  | some a => exact optKeeps_some (hf a)

theorem keeps_getD {o : Option State} (ho : OptKeeps σ o) (hs : Keeps σ s) : Keeps σ (o.getD s) := by
  cases o with
  | none => exact hs
  | some t => exact ho t rfl

/-- Whatever state a command answers. -/
def OutKeeps (σ : State) (o : Host.Outcome State Fault Refusal) : Prop := ∀ t, o = .next t → Keeps σ t

theorem outKeeps_next (hs : Keeps σ s) : OutKeeps σ (.next s) := fun _ h => Host.Outcome.next.inj h ▸ hs

end Sys2Proof.Machine
end

section
/-! What every command keeps: the operations on the state. -/

namespace Sys2Proof.Machine

variable {σ s : State}

theorem keeps_drawByte (hs : Keeps σ s) : Keeps σ (drawByte s).2 := by
  unfold drawByte
  exact keeps_withFree hs

theorem keeps_drawWord (hs : Keeps σ s) : Keeps σ (drawWord s).2 := by
  unfold drawWord
  exact keeps_withFree hs

theorem keeps_drawBytes {n : Nat} (hs : Keeps σ s) : Keeps σ (drawBytes s n).2 := by
  unfold drawBytes
  exact keeps_withFree hs

theorem keeps_output {o : Output} (hs : Keeps σ s) : Keeps σ (output s o) := by
  unfold output
  exact keeps_withOutputs hs

theorem keeps_outRead {v : Word} (hs : Keeps σ s) : Keeps σ (outRead s v) := by
  unfold outRead
  exact keeps_output hs

theorem keeps_dieSays {d : Nat} {w : Word} (hs : Keeps σ s) : Keeps σ (dieSays s d w).2 := by
  unfold dieSays
  exact keeps_snd_ite (keeps_drawWord hs) hs

theorem keeps_setMover {m : Nat} {v : Mover} (hs : Keeps σ s) : Keeps σ (setMover s m v) := by
  unfold setMover
  exact keeps_withMem hs rfl

theorem keeps_setSession {n : Nat} {v : Session} (hs : Keeps σ s) : Keeps σ (setSession s n v) := by
  unfold setSession
  exact keeps_withHost hs rfl

theorem keeps_setMac {m : Nat} {v : Mac} (hs : Keeps σ s) : Keeps σ (setMac s m v) := by
  unfold setMac
  exact keeps_withHost hs rfl

theorem keeps_setCsiRx {r : Nat} {v : CsiRx} (hs : Keeps σ s) : Keeps σ (setCsiRx s r v) := by
  unfold setCsiRx
  exact keeps_withHost hs rfl

theorem keeps_setUart {u : Nat} {v : Uart} (hs : Keeps σ s) : Keeps σ (setUart s u v) := by
  unfold setUart
  exact keeps_withUarts hs

theorem keeps_setAo {n : Nat} {v : Ao} (hs : Keeps σ s) : Keeps σ (setAo s n v) := by
  unfold setAo
  exact keeps_withF hs

theorem keeps_setDoCh {n : Nat} {v : DoCh} (hs : Keeps σ s) : Keeps σ (setDoCh s n v) := by
  unfold setDoCh
  exact keeps_withF hs

theorem keeps_setDiCh {n : Nat} {v : DiCh} (hs : Keeps σ s) : Keeps σ (setDiCh s n v) := by
  unfold setDiCh
  exact keeps_withF hs

theorem keeps_setEndp {e : Nat} {v : Endp} (hs : Keeps σ s) : Keeps σ (setEndp s e v) := by
  unfold setEndp
  exact hs

theorem keeps_slewTick (hs : Keeps σ s) : Keeps σ (slewTick s) := by
  unfold slewTick
  exact keeps_ite hs hs

theorem keeps_idleTick (hs : Keeps σ s) : Keeps σ (idleTick s) := by
  unfold idleTick
  exact keeps_ite (keeps_slewTick hs) hs

theorem keeps_setParty {p : Nat} {v : Party} (hs : Keeps σ s) : Keeps σ (setParty s p v) := by
  unfold setParty
  exact hs

theorem keeps_putTxn {e : Nat} {t : Txn} {ask : Nat} (hs : Keeps σ s) : Keeps σ (putTxn s e t ask) := by
  unfold putTxn
  exact keeps_setEndp hs

theorem keeps_takeTxn {e : Nat} {t : Txn} (hs : Keeps σ s) : Keeps σ (takeTxn s e t) := by
  unfold takeTxn
  extract_lets v vc n
  exact keeps_setEndp hs

theorem keeps_sendTxn {e : Nat} {t : Txn} (hs : Keeps σ s) : Keeps σ (sendTxn s e t) := by
  unfold sendTxn
  exact keeps_putTxn hs

theorem keeps_sendAs {e p : Nat} {who : Origin} {t : Txn} (hs : Keeps σ s) : Keeps σ (sendAs s e p who t) := by
  unfold sendAs
  extract_lets k pa s1
  have hs1 : Keeps σ s1 := keeps_setParty hs
  exact keeps_putTxn hs1

theorem optKeeps_sendAsk {q : Ask} {who : Origin} (hs : Keeps σ s) : OptKeeps σ (sendAsk s q who) := by
  unfold sendAsk
  split
  · exact optKeeps_none
  · exact optKeeps_map (fun a1 => keeps_sendAs hs)

theorem keeps_sendTimes {e : Nat} {t : Txn} {n : Nat} (hs : Keeps σ s) : Keeps σ (sendTimes s e t n) := by
  induction n generalizing s with
  | zero => exact hs
  | succ n ih =>
    unfold sendTimes
    exact ih (keeps_sendTxn hs)

theorem keeps_respond {e : Nat} {tid : BitVec 16} {src : Word} {addr ch st : Nat} {data : List Byte} (hs : Keeps σ s) :
    Keeps σ (respond s e tid src addr ch st data) := by
  unfold respond
  extract_lets t here
  split
  · exact hs
  · extract_lets pa dups win s1
    have hs1 : Keeps σ s1 := keeps_setParty hs
    split
    · exact hs1
    · exact keeps_sendTimes hs1

end Sys2Proof.Machine
end

section
/-! What every command keeps: Bells. -/

namespace Sys2Proof.Machine

variable {σ s : State} {die : Nat}

theorem keeps_addBell {d n : Nat} {v : Word} (hs : Keeps σ s) : Keeps σ (addBell s d n v) := by
  unfold addBell
  exact keeps_ite hs (keeps_setBell hs)

theorem keeps_storeBell {d n : Nat} {v : Word} (hs : Keeps σ s) : Keeps σ (storeBell s d n v) := by
  unfold storeBell
  exact keeps_ite hs (keeps_setBell hs)

theorem keeps_holdWait {d n : Nat} {who : Origin} {target : Word} (hs : Keeps σ s) :
    Keeps σ (holdWait s d n who target) := by
  unfold holdWait
  exact keeps_setBell hs

theorem keeps_addNamed {die src : Nat} {w : Nat} {v : Word} {who : Origin} (hs : Keeps σ s) :
    Keeps σ (addNamed s die src w v who) := by
  unfold addNamed
  exact keeps_ite hs (keeps_ite (keeps_addBell hs) (keeps_getD (optKeeps_sendAsk hs) hs))

end Sys2Proof.Machine
end

section
/-! What every command keeps: the memory controller. -/

namespace Sys2Proof.Machine

variable {σ s : State} {die : Nat}

theorem dieKeeps_vaultCorrect {c : CDie} {es : List (Nat × Bool)} (hc : DieKeeps σ die c) :
    DieKeeps σ die (vaultCorrect c es) := by
  unfold vaultCorrect
  split <;> exact hc

theorem dieKeeps_of_vaultLoad {c c' : CDie} {off n : Nat} {bs : List Byte} (h : vaultLoad c off n = .ok (bs, c'))
    (hc : DieKeeps σ die c) : DieKeeps σ die c' := by
  unfold vaultLoad at h
  dsimp only at h
  split at h
  · cases h
  · cases h
    exact dieKeeps_vaultCorrect hc

theorem dieKeeps_setVault {c : CDie} {m : Mem} (h : memWf 0 c.vault = true → memWf 0 m = true) (hc : DieKeeps σ die c) :
    DieKeeps σ die { c with vault := m } := dieKeeps_mems hc h id id id

theorem dieKeeps_of_vaultStore {c c' : CDie} {off : Nat} {bs : List Byte} (h : vaultStore c off bs = .ok c')
    (hc : DieKeeps σ die c) : DieKeeps σ die c' := by
  unfold vaultStore at h
  dsimp only at h
  split at h
  · cases h
  · cases h
    exact dieKeeps_setVault (memWf_memPut 0 _ _) (dieKeeps_vaultCorrect hc)

theorem dieKeeps_vaultWords {c : CDie} {off : Nat} {ws : List Word} (hc : DieKeeps σ die c) :
    DieKeeps σ die (vaultWords c off ws) := by
  unfold vaultWords
  split
  · exact dieKeeps_of_vaultStore ‹_› hc
  · exact hc

end Sys2Proof.Machine
end

section
/-! What every command keeps: the host engine. -/

namespace Sys2Proof.Machine

variable {σ s : State}

theorem keeps_macSendOne {m : Nat} (hs : Keeps σ s) : Keeps σ (macSendOne s m) := by
  unfold macSendOne
  split
  · split
    · exact hs
    · exact keeps_output (keeps_setMac hs)
  · exact hs

theorem keeps_macSends {k : Nat} (hs : Keeps σ s) : Keeps σ (macSends k s) := by
  induction k generalizing s with
  | zero => exact hs
  | succ k ih =>
    unfold macSends
    exact ih (keeps_macSendOne (keeps_macSendOne hs))

theorem keeps_macFlush (hs : Keeps σ s) : Keeps σ (macFlush s) := by
  unfold macFlush
  exact keeps_macSends hs

theorem keeps_sendTo {ep : HostEp} {n : Nat} {f : Frame} {record : Option Word} (hs : Keeps σ s) :
    Keeps σ (sendTo s ep n f record) := by
  unfold sendTo
  split
  · exact keeps_setSession hs
  · exact keeps_setMac hs

theorem keeps_reply {ep : HostEp} {f : Frame} {st : Nat} {data : List Byte} (hs : Keeps σ s) :
    Keeps σ (reply s ep f st data) := by
  unfold reply
  exact keeps_macFlush (keeps_sendTo hs)

theorem keeps_sendAll {ft kind : Nat} {data : List Byte} {record : Option Word} {l : List (Nat × Session)} (hs : Keeps σ s) :
    Keeps σ (sendAll s ft kind data record l) := by
  induction l generalizing s with
  | nil => exact hs
  | cons e l ih =>
    unfold sendAll
    split
    · split
      · extract_lets seq f _ s1
        have hs1 : Keeps σ s1 := keeps_setSession hs
        exact ih (keeps_sendTo hs1)
      · exact ih hs
    · exact ih hs

theorem keeps_sendEvent {kind : Nat} {data : List Byte} {record : Option Word} (hs : Keeps σ s) :
    Keeps σ (sendEvent s kind data record) := by
  unfold sendEvent
  exact keeps_sendAll hs

theorem keeps_msixSend {k : Nat} (hs : Keeps σ s) : Keeps σ (msixSend s k) := by
  unfold msixSend
  exact keeps_ite hs (keeps_ite hs (keeps_ite (keeps_withHost hs rfl) (keeps_output hs)))

theorem keeps_msixTabSet {k : Nat} {x : Word} (hs : Keeps σ s) : Keeps σ (msixTabSet s k x) := by
  unfold msixTabSet
  extract_lets _ s1 v
  have hs1 : Keeps σ s1 := keeps_withHost hs rfl
  exact keeps_ite (keeps_msixSend (keeps_withHost hs1 rfl)) hs1

theorem keeps_rewindHost {rs : List Word} (hs : Keeps σ s) : Keeps σ (rewindHost s rs) := by
  unfold rewindHost
  exact keeps_ite hs hs

theorem keeps_replyTimes {ep : HostEp} {f : Frame} {st : Nat} {data : List Byte} {n : Nat} (hs : Keeps σ s) :
    Keeps σ (replyTimes s ep f st data n) := by
  induction n generalizing s with
  | zero => exact hs
  | succ n ih =>
    unfold replyTimes
    exact ih (keeps_reply hs)

end Sys2Proof.Machine
end

section
/-! What every command keeps: the fault log. -/

namespace Sys2Proof.Machine

variable {σ s : State}

theorem keeps_offerHost {k : Nat} (hs : Keeps σ s) : Keeps σ (offerHost k s) := by
  induction k generalizing s with
  | zero => exact hs
  | succ k ih =>
    unfold offerHost
    extract_lets i s1
    have hs1 : Keeps σ s1 := keeps_sendEvent hs
    exact keeps_ite (ih hs1) hs

/-- A log that is not empty is one record shorter when its oldest is freed. -/
theorem logCount_free {head tail : Word} (ne : head ≠ tail) (h : (tail - head).toNat ≤ 256) :
    (tail - (head + 1)).toNat ≤ 256 := by
  have : (tail - head).toNat ≠ 0 := fun e => ne (by bv_omega)
  bv_omega

/-- A log with room for a record is one record longer when it has taken it. -/
theorem logCount_take {head tail : Word} (h : (tail - head).toNat < 256) : (tail + 1 - head).toNat ≤ 256 := by
  bv_omega

theorem keeps_autoFree {k : Nat} (hs : Keeps σ s) : Keeps σ (autoFree k s) := by
  induction k generalizing s with
  | zero => exact hs
  | succ k ih =>
    unfold autoFree
    split
    · rename_i h
      simp only [Bool.and_eq_true, decide_eq_true_eq] at h
      obtain ⟨⟨⟨-, ne⟩, -⟩, -⟩ := h
      exact ih (keeps_withFaults hs (logCount_free ne))
    · exact hs

theorem keeps_settleHost (hs : Keeps σ s) : Keeps σ (settleHost s) := by
  unfold settleHost
  exact keeps_autoFree (keeps_macFlush (keeps_offerHost hs))

theorem keeps_closeIfDone {n : Nat} (hs : Keeps σ s) : Keeps σ (closeIfDone s n) := by
  unfold closeIfDone
  extract_lets v s1
  have hs1 : Keeps σ s1 := keeps_rewindHost (keeps_setSession hs)
  split
  · exact hs
  · split
    · refine keeps_settleHost ?_
      split
      · exact keeps_reply hs1
      · exact hs1
    · exact hs

theorem keeps_hostComplete {n : Nat} {reqid : Word} {st : Nat} {data : List Byte} (hs : Keeps σ s) :
    Keeps σ (hostComplete s n reqid st data) := by
  unfold hostComplete
  extract_lets v
  split
  · exact hs
  · extract_lets st1 _ cache s1 s2
    have hs1 : Keeps σ s1 := keeps_setSession hs
    have hs2 : Keeps σ s2 := by
      unfold s2
      split
      · exact hs1
      · exact keeps_replyTimes hs1
      · exact hs1
    exact keeps_closeIfDone hs2

/-- A record taken into a log that has room for it (17 R398). -/
theorem keeps_logTake {r : List Word} (hs : Keeps σ s) (room : logCount s < 256) : Keeps σ (logTake s r) := by
  have taken : Keeps σ { s with faults := { s.faults with
      log := tabSet s.faults.log (s.faults.tail.toNat % 256) (listSet r 2 s.faults.tail), tail := s.faults.tail + 1 } } :=
    keeps_withFaults hs fun _ => logCount_take room
  unfold logTake
  dsimp only
  exact keeps_settleHost (keeps_ite (keeps_addNamed (keeps_ite (keeps_addNamed taken) taken))
    (keeps_ite (keeps_addNamed taken) taken))

theorem keeps_raise {r : List Word} (hs : Keeps σ s) : Keeps σ (raise s r) := by
  unfold raise
  extract_lets t
  have ht : Keeps σ t := keeps_ite hs hs
  split
  · exact hs
  · split
    · rename_i h
      simp only [Bool.and_eq_true, decide_eq_true_eq] at h
      exact keeps_logTake ht h.1
    · exact ht

theorem keeps_logHeldOf {n : Nat} {src : Word} (hs : Keeps σ s) : Keeps σ (logHeldOf n s src) := by
  induction n generalizing s with
  | zero => exact hs
  | succ n ih =>
    unfold logHeldOf
    split
    · exact hs
    · split
      · exact hs
      · split
        · rename_i room
          exact ih (keeps_logTake hs room)
        · exact hs

theorem keeps_raiseFirst {r : List Word} (hs : Keeps σ s) : Keeps σ (raiseFirst s r) := by
  unfold raiseFirst
  exact keeps_ite hs (keeps_raise (keeps_logHeldOf hs))

theorem keeps_haltNote {bitNo : Nat} {r : List Word} (hs : Keeps σ s) : Keeps σ (haltNote s bitNo r) := by
  unfold haltNote
  extract_lets s1 f
  have hs1 : Keeps σ s1 := keeps_raiseFirst hs
  exact keeps_ite hs1 hs1

theorem keeps_warn {src : Word} {kind : Nat} {d5 d6 d7 : Word} (hs : Keeps σ s) :
    Keeps σ (warn s src kind d5 d6 d7) := by
  unfold warn
  exact keeps_raise hs

theorem keeps_setLimits {l : List AddrLimit} (hs : Keeps σ s) : Keeps σ (setLimits s l) := by
  unfold setLimits
  exact hs

theorem keeps_addrError {agent : Nat} {src : Word} {port : Word} {addr : Nat} (hs : Keeps σ s) :
    Keeps σ (addrError s agent src port addr) := by
  unfold addrError
  extract_lets ls r
  split
  · exact hs
  · split
    · exact keeps_ite (keeps_setLimits hs) (keeps_raise (keeps_setLimits hs))
    · exact keeps_raise (keeps_setLimits hs)

theorem keeps_accessRec {d n st a : Nat} (hs : Keeps σ s) : Keeps σ (accessRec s d n st a) := by
  unfold accessRec
  exact keeps_ite (keeps_addrError hs) hs

end Sys2Proof.Machine
end

section
/-! What every command keeps: F and its channels. -/

namespace Sys2Proof.Machine

variable {σ s : State}

theorem keeps_setOuts {a : Nat → Ao} {d : Nat → DoCh} (hs : Keeps σ s) : Keeps σ (setOuts s a d) := by
  unfold setOuts
  exact keeps_withF hs

theorem keeps_outsSafe (hs : Keeps σ s) : Keeps σ (outsSafe s) := by
  unfold outsSafe
  exact keeps_setOuts hs

theorem keeps_outsLive (hs : Keeps σ s) : Keeps σ (outsLive s) := by
  unfold outsLive
  exact keeps_setOuts hs

theorem keeps_fLive (hs : Keeps σ s) : Keeps σ (fLive s) := by
  unfold fLive
  extract_lets s1
  have hs1 : Keeps σ s1 := keeps_outsLive hs
  exact keeps_withF hs1

theorem keeps_fSafe {k : Nat} (hs : Keeps σ s) : Keeps σ (fSafe s k) := by
  unfold fSafe
  split
  · exact hs
  · extract_lets _ s1 s2 _ s3
    have hs1 : Keeps σ s1 := keeps_withF hs
    have hs2 : Keeps σ s2 := keeps_outsSafe hs1
    have hs3 : Keeps σ s3 := keeps_withF hs2
    exact keeps_ite hs1 (keeps_ite (keeps_raise hs3) hs3)

theorem keeps_fCauseGone {k : Nat} (hs : Keeps σ s) : Keeps σ (fCauseGone s k) := by
  unfold fCauseGone
  exact keeps_withF hs

theorem keeps_fTakes (hs : Keeps σ s) : Keeps σ (fTakes s) := by
  unfold fTakes
  exact keeps_fCauseGone hs

theorem keeps_fSupplySeen (hs : Keeps σ s) : Keeps σ (fSupplySeen s) := by
  unfold fSupplySeen
  exact keeps_ite (keeps_ite (keeps_withFree hs) (keeps_fCauseGone (keeps_withFree hs))) hs

theorem keeps_fRun (hs : Keeps σ s) : Keeps σ (fRun s) := by
  unfold fRun
  split
  · extract_lets s1
    have hs1 : Keeps σ s1 := keeps_fSupplySeen hs
    exact keeps_ite (keeps_fLive hs1) (keeps_fSafe hs1)
  · exact hs

theorem keeps_fCmdDue (hs : Keeps σ s) : Keeps σ (fCmdDue s) := by
  unfold fCmdDue
  extract_lets _ s1
  have hs1 : Keeps σ s1 := keeps_withF hs
  exact keeps_ite (keeps_fSafe hs1) hs1

theorem keeps_fReport {m : MState} (hs : Keeps σ s) : Keeps σ (fReport s m) := by
  unfold fReport
  extract_lets _ s1 s2
  have hs1 : Keeps σ s1 := keeps_withF hs
  have hs2 : Keeps σ s2 := keeps_fCauseGone (keeps_fCauseGone hs1)
  split
  · exact keeps_fSafe (keeps_fCmdDue hs2)
  · exact keeps_fSafe (keeps_fCmdDue hs2)
  · exact keeps_fRun (keeps_fCmdDue hs2)
  · exact hs2

theorem keeps_sendReport {m : MState} (hs : Keeps σ s) : Keeps σ (sendReport s m) := by
  unfold sendReport
  exact keeps_sendTxn hs

theorem keeps_fLost {m : MState} (hs : Keeps σ s) : Keeps σ (fLost s m) := by
  unfold fLost
  exact keeps_ite (keeps_fSafe hs) hs

theorem keeps_fRearm (hs : Keeps σ s) : Keeps σ (fRearm s) := by
  unfold fRearm
  split
  · extract_lets s1
    have hs1 : Keeps σ s1 := keeps_fSupplySeen hs
    exact keeps_ite (keeps_fLive hs1) hs1
  · exact hs

theorem keeps_fioCtlWrite {v : Word} (hs : Keeps σ s) : Keeps σ (fioCtlWrite s v) := by
  unfold fioCtlWrite
  exact keeps_ite (keeps_fSafe hs) (keeps_ite (keeps_fRearm hs) hs)

theorem keeps_fAsked {g : State → State} (hs : Keeps σ s) (hg : ∀ t, Keeps σ t → Keeps σ (g t)) : Keeps σ (fAsked s g) := by
  unfold fAsked
  exact keeps_ite (hg _ (keeps_fTakes hs)) hs

theorem keeps_fOrderedSafe (hs : Keeps σ s) : Keeps σ (fOrderedSafe s) := by
  unfold fOrderedSafe
  exact keeps_fAsked hs (fun t1 h => keeps_fioCtlWrite h)

end Sys2Proof.Machine
end

section
/-! What every command keeps: Spires. -/

namespace Sys2Proof.Machine

variable {σ s : State} {die : Nat}

theorem spireKeeps_spSet {v : Spire} {r : Nat} {x : Word} (hv : SpireKeeps σ die v) : SpireKeeps σ die (spSet v r x) := by
  unfold spSet
  split
  · exact hv
  · exact hv

theorem dieKeeps_setSpireMem {c : CDie} {m : Mem} (h : memWf 0 c.spireMem = true → memWf 0 m = true) (hc : DieKeeps σ die c) :
    DieKeeps σ die { c with spireMem := m } := dieKeeps_mems hc id id h id

theorem dieKeeps_locPut {c : CDie} {n a : Nat} {bs : List Byte} (hc : DieKeeps σ die c) :
    DieKeeps σ die (locPut c n a bs) := by
  have put := dieKeeps_setSpireMem (memWf_memPut 0 (locAt n a) bs) hc
  unfold locPut
  dsimp only
  split
  · exact dieKeeps_setSpires put (dieKeeps_spire hc n)
  · exact put

theorem keeps_putLocal {d n a : Nat} {bs : List Byte} (hs : Keeps σ s) : Keeps σ (putLocal s d n a bs) := by
  unfold putLocal
  exact keeps_setCd hs (dieKeeps_locPut (dieKeeps_cd hs _))

theorem windowsFit_spireStart {v : Spire} (h : WindowsFit v) : WindowsFit (spireStart v) := by
  unfold spireStart
  split
  · exact ⟨(by decide : 0 < 8), Nat.le_refl 1, (by decide : 1 ≤ 7)⟩
  · exact h

theorem spireKeeps_spireStart {v : Spire} (hv : SpireKeeps σ die v) : SpireKeeps σ die (spireStart v) :=
  fun h w => windowsFit_spireStart (hv h w)

theorem keeps_startSpires {l : List (Nat × Nat)} (hs : Keeps σ s) : Keeps σ (startSpires s l) := by
  induction l generalizing s with
  | nil => exact hs
  | cons p l ih =>
    unfold startSpires
    exact ih (keeps_setSpire hs (spireKeeps_spireStart (spireKeeps_spire hs)))

theorem spireKeeps_spireArm {v : Spire} (hv : SpireKeeps σ die v) : SpireKeeps σ die (spireArm v) := by
  unfold spireArm
  exact spireKeeps_ite hv hv

theorem windowsFit_startArmed {v : Spire} (h : WindowsFit v) : WindowsFit (startArmed v) := by
  unfold startArmed
  split
  · exact windowsFit_spireStart h
  · exact h

theorem keeps_startAllArmed (hs : Keeps σ s) : Keeps σ (startAllArmed s) :=
  keeps_mapDies hs fun _ _ hc => dieKeeps_mapSpires hc fun _ => windowsFit_startArmed

theorem spireKeeps_haltSpire {v : Spire} {hc : BitVec 4} (hv : SpireKeeps σ die v) :
    SpireKeeps σ die (haltSpire v hc) := by
  unfold haltSpire
  exact hv

theorem keeps_spireDone {d n : Nat} {st : Nat} {data : List Byte} (hs : Keeps σ s) :
    Keeps σ (spireDone s d n st data) := by
  unfold spireDone
  extract_lets v
  split
  · exact hs
  · split
    · exact keeps_setSpire hs (spireKeeps_spire hs)
    · split
      · exact keeps_setSpire hs (spireKeeps_haltSpire (spireKeeps_spire hs))
      · extract_lets s1 _ v1
        have hs1 : Keeps σ s1 := keeps_ite (keeps_putLocal hs) hs
        exact keeps_setSpire hs1 (spireKeeps_ite (spireKeeps_haltSpire (spireKeeps_spSet (spireKeeps_spire hs1)))
          (spireKeeps_spSet (spireKeeps_spire hs1)))

theorem keeps_meshAnswer {d n : Nat} {st : Nat} {value : Word} (hs : Keeps σ s) :
    Keeps σ (meshAnswer s d n st value) := by
  unfold meshAnswer
  extract_lets v
  split
  · exact hs
  · exact keeps_setSpire hs (spireKeeps_spire hs)

theorem spireKeeps_meshDone {v : Spire} {m : MeshAcc} {x : Word} (hv : SpireKeeps σ die v) :
    SpireKeeps σ die (meshDone v m x) := by
  unfold meshDone
  extract_lets v1
  exact spireKeeps_ite hv (spireKeeps_spSet hv)

theorem spireKeeps_spireHalts {v : Spire} (hv : SpireKeeps σ die v) : SpireKeeps σ die (spireHalts v) := by
  unfold spireHalts
  split
  · exact hv
  · split
    · split
      · split
        · exact spireKeeps_haltSpire (spireKeeps_ite (spireKeeps_meshDone hv) hv)
        · exact spireKeeps_haltSpire hv
      · exact spireKeeps_haltSpire hv
    · exact hv

end Sys2Proof.Machine
end

section
/-! What every command keeps: queues and their front ends. -/

namespace Sys2Proof.Machine

variable {σ s : State} {die : Nat}

/-- An entry written into a queue that has room for it (09 R211). -/
theorem keeps_enterEntry {d q : Nat} {hdr0 hdr1 : Word} {body : List Word} (hs : Keeps σ s)
    (room : (cd σ d).slewed = false → (queue s d q).occ < queDepth (queue s d q)) : Keeps σ (enterEntry s d q hdr0 hdr1 body) := by
  unfold enterEntry
  extract_lets v ws s1 s2
  have h1 : Keeps σ s1 := keeps_setCd hs (dieKeeps_vaultWords (dieKeeps_cd hs d))
  have h2 : Keeps σ s2 := keeps_setQueue h1 fun _ w => room w
  exact keeps_ite (keeps_addBell h2) h2

theorem dieKeeps_of_readEntry {c c' : CDie} {q : Queue} {bs : List Byte} (h : readEntry c q = .ok (bs, c'))
    (hc : DieKeeps σ die c) : DieKeeps σ die c' :=
  dieKeeps_of_vaultLoad h hc

theorem queueKeeps_lessOcc {d : Nat} {q : Queue} {k : Nat} (hk : k ≤ q.occ) (hq : QueueKeeps σ d q) :
    QueueKeeps σ d { q with occ := k } :=
  fun h w => hk.trans (hq h w)

theorem keeps_of_popEntry {d q : Nat} {bs : List Byte} {t : State} (h : popEntry s d q = .ok (bs, t)) (hs : Keeps σ s) :
    Keeps σ t := by
  unfold popEntry at h
  split at h
  · cases h
  · cases h
    exact keeps_setQueue (keeps_setCd hs (dieKeeps_of_readEntry ‹_› (dieKeeps_cd hs d)))
      (queueKeeps_lessOcc (Nat.sub_le _ 1) (queueKeeps_queue hs))

theorem keeps_ringCtl {d : Nat} {ctl : Word} (hs : Keeps σ s) : Keeps σ (ringCtl s d ctl) := by
  unfold ringCtl
  exact keeps_ite (keeps_addBell hs) hs

theorem keeps_feFinish {d q : Nat} (hs : Keeps σ s) : Keeps σ (feFinish s d q) := by
  unfold feFinish
  split
  · exact hs
  · extract_lets _ s1
    have hs1 : Keeps σ s1 := keeps_setQueue hs (queueKeeps_queue hs)
    exact keeps_ite hs1 (keeps_ringCtl hs1)

theorem keeps_feComplete {d q : Nat} {st phase : Nat} (hs : Keeps σ s) : Keeps σ (feComplete s d q st phase) := by
  unfold feComplete
  split
  · exact hs
  · extract_lets ctl r _ s1 c
    have hs1 : Keeps σ s1 := keeps_setQueue hs (queueKeeps_queue hs)
    exact keeps_setQueue hs1 (queueKeeps_queue hs1)

theorem keeps_feEnd {d q : Nat} {st : Nat} (hs : Keeps σ s) : Keeps σ (feEnd s d q st) := by
  unfold feEnd
  split
  · exact hs
  · extract_lets isWait _ s1
    have hs1 : Keeps σ s1 := keeps_ite (keeps_setQueue hs (queueKeeps_queue hs)) hs
    exact keeps_ite (keeps_setQueue hs (queueKeeps_queue hs)) (keeps_ite (keeps_feFinish hs1) (keeps_feComplete hs1))

theorem keeps_feLate {d q : Nat} (hs : Keeps σ s) : Keeps σ (feLate s d q) := by
  unfold feLate
  split
  · exact hs
  · split
    · refine keeps_feEnd ?_
      refine keeps_setQueue hs ?_
      extract_lets
      exact queueKeeps_queue hs
    · exact hs

theorem keeps_feResume (hs : Keeps σ s) : Keeps σ (feResume s) := by
  unfold feResume
  exact keeps_foldl hs (fun t1 a1 h => keeps_feLate h)

theorem keeps_answerRemote {ep : Nat} {tid : BitVec 16} {src : Word} {addr ch st : Nat} {data : List Byte} (hs : Keeps σ s) :
    Keeps σ (answerRemote s ep tid src addr ch st data) := by
  unfold answerRemote
  exact keeps_respond hs

theorem keeps_answerOp {who : Origin} {st : Nat} {data : List Byte} (hs : Keeps σ s) :
    Keeps σ (answerOp s who st data) := by
  unfold answerOp
  split
  · exact keeps_spireDone hs
  · exact keeps_feEnd hs
  · exact keeps_hostComplete hs
  · exact keeps_answerRemote hs
  · exact keeps_hostComplete hs
  all_goals exact hs

end Sys2Proof.Machine
end

section
/-! What every command keeps: units and their commands. -/

namespace Sys2Proof.Machine

variable {σ s : State}

theorem keeps_setUnitCmd {u : UnitRef} {c : Option UnitCmd} (hs : Keeps σ s) : Keeps σ (setUnitCmd s u c) := by
  unfold setUnitCmd
  split
  · exact keeps_setDome hs
  · exact keeps_setTower hs
  · exact keeps_setPlinth hs
  · exact keeps_setLantern hs
  · exact keeps_setMover hs

theorem keeps_setUnitDones {u : UnitRef} {l : List Done} (hs : Keeps σ s) : Keeps σ (setUnitDones s u l) := by
  unfold setUnitDones
  split
  · exact keeps_setDome hs
  · exact keeps_setTower hs
  · exact keeps_setPlinth hs
  · exact keeps_setLantern hs
  · exact keeps_setMover hs

theorem keeps_addDone {u : UnitRef} {c : UnitCmd} {st : Nat} {counters result : Word} (hs : Keeps σ s) :
    Keeps σ (addDone s u c st counters result) := by
  unfold addDone
  exact keeps_setUnitDones hs

theorem keeps_finishCmd {u : UnitRef} {st : Nat} {counters result : Word} (hs : Keeps σ s) :
    Keeps σ (finishCmd s u st counters result) := by
  unfold finishCmd
  split
  · exact hs
  · exact keeps_addDone (keeps_setUnitCmd hs)

theorem keeps_unitOver {u : UnitRef} (hs : Keeps σ s) : Keeps σ (unitOver s u) := by
  unfold unitOver
  split
  · exact hs
  · extract_lets s1 d _ s2
    have hs1 : Keeps σ s1 := keeps_setUnitDones hs
    have hs2 : Keeps σ s2 := keeps_setQueue hs1 (queueKeeps_queue hs1)
    split
    · exact keeps_setMover hs2
    · exact keeps_setPlinth hs2
    · exact hs2

theorem keeps_unitRecorded {u : UnitRef} (hs : Keeps σ s) : Keeps σ (unitRecorded s u) := by
  unfold unitRecorded
  split
  · exact hs
  · exact keeps_ringCtl (keeps_unitOver hs)

end Sys2Proof.Machine
end

section
/-! What every command keeps: Plinths and chains. -/

namespace Sys2Proof.Machine

variable {σ s : State}

theorem keeps_plFlags {d n : Nat} {f : TFlags} (hs : Keeps σ s) : Keeps σ (plFlags s d n f) := by
  unfold plFlags
  exact keeps_setTower hs

theorem keeps_spoilAcc {d n i : Nat} (hs : Keeps σ s) : Keeps σ (spoilAcc s d n i) := by
  unfold spoilAcc
  exact keeps_setPlinth (keeps_withFree (keeps_withFree hs))

theorem keeps_foldInto {d n : Nat} {x : Pair} (hs : Keeps σ s) : Keeps σ (foldInto s d n x) := by
  unfold foldInto
  extract_lets p a r _ s1
  have hs1 : Keeps σ s1 := keeps_setPlinth hs
  exact keeps_ite (keeps_plFlags hs1) (keeps_plFlags (keeps_setPlinth (keeps_withFree (keeps_withFree hs))))

theorem keeps_foldPair {d n : Nat} {x : Pair} (hs : Keeps σ s) : Keeps σ (foldPair s d n x) := by
  unfold foldPair
  extract_lets t
  have ht : Keeps σ t := keeps_foldInto hs
  exact keeps_ite (keeps_spoilAcc ht) ht

theorem keeps_foldHeld {k : Nat} {d : Nat} {n : Nat} {i : Nat} (hs : Keeps σ s) : Keeps σ (foldHeld k s d n i) := by
  induction k generalizing s d n i with
  | zero => exact hs
  | succ k ih =>
    unfold foldHeld
    extract_lets p
    split
    · exact hs
    · extract_lets s1
      have hs1 : Keeps σ s1 := keeps_setPlinth hs
      exact ih (keeps_foldPair hs1)

theorem optKeeps_takePair {d n : Nat} {x : Pair} (hs : Keeps σ s) : OptKeeps σ (takePair s d n x) := by
  unfold takePair
  extract_lets p s1
  have hs1 : Keeps σ s1 := keeps_setPlinth hs
  exact optKeeps_ite optKeeps_none (optKeeps_ite (optKeeps_some (keeps_foldHeld (keeps_foldPair hs)))
    (optKeeps_ite optKeeps_none (optKeeps_some (keeps_ite (keeps_spoilAcc hs1) hs1))))

theorem optKeeps_takePort {d n : Nat} {fromTower : Bool} (hs : Keeps σ s) :
    OptKeeps σ (takePort s d n fromTower) := by
  unfold takePort
  split
  · exact optKeeps_none
  · exact optKeeps_takePair (keeps_setPlinth hs)

theorem keeps_dropAsk {p : Nat} {o : Outst} (hs : Keeps σ s) : Keeps σ (dropAsk s p o) := by
  unfold dropAsk
  extract_lets _ s1
  have hs1 : Keeps σ s1 := keeps_setParty hs
  exact keeps_setEndp hs1

theorem keeps_orphan {p : Nat} {o : Outst} (hs : Keeps σ s) : Keeps σ (orphan s p o) := by
  unfold orphan
  exact keeps_setParty hs

theorem keeps_forsake {p : Nat} {o : Outst} (hs : Keeps σ s) : Keeps σ (forsake s p o) := by
  unfold forsake
  exact keeps_ite (keeps_orphan hs) (keeps_dropAsk hs)

theorem keeps_chainEnd {d : Fin 4} {n : Fin 8} {st : Nat} (hs : Keeps σ s) : Keeps σ (chainEnd s d n st) := by
  unfold chainEnd
  extract_lets p
  exact keeps_finishCmd (keeps_setPlinth hs)

theorem optKeeps_chainTake {d n k : Nat} {chid : BitVec 16} {m cols r : Nat} {row : List (Word × Word × Nat)} (hs : Keeps σ s) :
    OptKeeps σ (chainTake s d n k chid m cols r row) := by
  unfold chainTake
  extract_lets p
  exact optKeeps_ite (optKeeps_map (fun a1 => keeps_setPlinth hs)) optKeeps_none

theorem keeps_handRows {k : Nat} {d : Fin 4} {n : Fin 8} (hs : Keeps σ s) : Keeps σ (handRows k s d n) := by
  induction k generalizing s d n with
  | zero => exact hs
  | succ k ih =>
    unfold handRows
    extract_lets p
    split
    · extract_lets t
      split
      · exact hs
      · exact ih (keeps_setPlinth ((optKeeps_chainTake hs) _ ‹_›))
    · exact hs

theorem keeps_chainGo {d : Fin 4} {n : Fin 8} (hs : Keeps σ s) : Keeps σ (chainGo s d n) := by
  unfold chainGo
  extract_lets p s1
  have hs1 : Keeps σ s1 := keeps_handRows hs
  exact keeps_ite hs (keeps_ite (keeps_chainEnd hs1) hs1)

theorem optKeeps_takePairs {d n : Nat} {l : List Pair} (hs : Keeps σ s) : OptKeeps σ (takePairs s d n l) := by
  induction l generalizing s with
  | nil => exact optKeeps_some hs
  | cons x l ih =>
    unfold takePairs
    split
    · exact optKeeps_none
    · exact ih ((optKeeps_takePair hs) _ ‹_›)

theorem keeps_drainRowsIn {k : Nat} {d n : Nat} {t : Bool} (hs : Keeps σ s) : Keeps σ (drainRowsIn k s d n t) := by
  induction k generalizing s d n t with
  | zero => exact hs
  | succ k ih =>
    unfold drainRowsIn
    split
    · exact hs
    · extract_lets own others row keep
      have kept : ∀ ps, Keeps σ (keep ps) := fun _ => keeps_setPlinth hs
      exact ih (keeps_getD (optKeeps_takePairs (kept _)) (kept _))

theorem keeps_chainPump {k : Nat} {d : Fin 4} {n : Nat} (hs : Keeps σ s) : Keeps σ (chainPump k s d n) := by
  induction k generalizing s d n with
  | zero => exact hs
  | succ k ih =>
    unfold chainPump
    extract_lets j
    split
    · exact ih (keeps_chainGo hs)
    · exact hs

theorem keeps_chainFree {d : Fin 4} {n : Nat} {chid : BitVec 16} (hs : Keeps σ s) :
    Keeps σ (chainFree s d n chid) := by
  unfold chainFree
  extract_lets p
  exact keeps_chainPump (keeps_setPlinth hs)

theorem keeps_dropRows {d : Fin 4} {n : Fin 8} (hs : Keeps σ s) : Keeps σ (dropRows s d n) := by
  unfold dropRows
  exact keeps_foldl hs (fun t1 a1 h => keeps_ite (keeps_forsake h) h)

theorem keeps_chainBreak {d : Fin 4} {n : Fin 8} (hs : Keeps σ s) : Keeps σ (chainBreak s d n) := by
  unfold chainBreak
  split
  · exact hs
  · extract_lets t s0 s1
    have hs0 : Keeps σ s0 := keeps_chainEnd (keeps_dropRows hs)
    have hs1 : Keeps σ s1 := keeps_ite hs0 (keeps_chainFree hs0)
    exact keeps_ite hs1 (keeps_ite (keeps_setPlinth hs1) (keeps_getD (optKeeps_sendAsk hs1) hs1))

theorem optKeeps_sendRows {d : Fin 4} {n : Fin 8} {c : UnitCmd} {l : List (Nat × List (Word × Word × Nat))} (hs : Keeps σ s) :
    OptKeeps σ (sendRows s d n c l) := by
  induction l generalizing s with
  | nil => exact optKeeps_some hs
  | cons x l ih =>
    unfold sendRows
    split
    · exact optKeeps_none
    · exact ih ((optKeeps_sendAsk hs) _ ‹_›)

theorem keeps_chainSend {d : Fin 4} {n : Fin 8} {c : UnitCmd} {rows : List (Nat × List (Word × Word × Nat))} (hs : Keeps σ s) :
    Keeps σ (chainSend s d n c rows) := by
  unfold chainSend
  extract_lets _ s0
  have hs0 : Keeps σ s0 := keeps_setPlinth hs
  split
  · exact keeps_chainBreak hs0
  · split
    · exact keeps_chainGo hs0
    · split
      · exact keeps_chainBreak hs0
      · exact keeps_setPlinth ((optKeeps_sendRows hs) _ ‹_›)

theorem keeps_chainScan {l : List (Fin 4 × Fin 8)} (hs : Keeps σ s) : Keeps σ (chainScan s l) := by
  induction l generalizing s with
  | nil => exact hs
  | cons x l ih =>
    unfold chainScan
    exact ih (keeps_ite (keeps_chainBreak hs) hs)

theorem keeps_chainTaken {d : Fin 4} {n : Fin 8} (hs : Keeps σ s) : Keeps σ (chainTaken s d n) := by
  unfold chainTaken
  extract_lets p
  exact keeps_ite hs (keeps_ite (keeps_chainEnd hs) (keeps_setPlinth hs))

theorem keeps_chainAnswer {d : Fin 4} {n : Fin 8} {st : Nat} (hs : Keeps σ s) : Keeps σ (chainAnswer s d n st) := by
  unfold chainAnswer
  exact keeps_ite hs (keeps_chainBreak hs)

end Sys2Proof.Machine
end

section
/-! What every command keeps: link endpoints, answers and withdrawals. -/

namespace Sys2Proof.Machine

variable {σ s : State} {die : Nat}

theorem keeps_moverFail {m : Fin 8} {st : Nat} (hs : Keeps σ s) : Keeps σ (moverFail s m st) := by
  unfold moverFail
  exact keeps_finishCmd (keeps_setMover hs)

theorem keeps_moverAnswer {m : Fin 8} {st : Nat} {data : List Byte} (hs : Keeps σ s) :
    Keeps σ (moverAnswer s m st data) := by
  unfold moverAnswer
  split
  · exact hs
  · exact keeps_ite (keeps_setMover hs) (keeps_ite (keeps_setMover hs) (keeps_setMover hs))

theorem keeps_moverPushed {m : Fin 8} {st : Nat} (hs : Keeps σ s) : Keeps σ (moverPushed s m st) := by
  unfold moverPushed
  split
  · exact hs
  · split
    · exact keeps_setMover hs
    · split
      · split
        · exact (optKeeps_sendAsk hs) _ ‹_›
        · exact keeps_unitOver hs
      · exact keeps_unitOver hs

theorem keeps_moverTold {m : Fin 8} {k st : Nat} {data : List Byte} (hs : Keeps σ s) :
    Keeps σ (moverTold s m k st data) := by
  unfold moverTold
  exact keeps_ite (keeps_moverPushed hs) (keeps_ite (keeps_unitOver hs) (keeps_moverAnswer hs))

theorem keeps_faultTaken {i : Word} (hs : Keeps σ s) : Keeps σ (faultTaken s i) := by
  unfold faultTaken
  exact keeps_autoFree hs

theorem keeps_wuEnd {n : Nat} {id : Word} {st : Nat} (hs : Keeps σ s) : Keeps σ (wuEnd s n id st) := by
  unfold wuEnd
  exact keeps_hostComplete (keeps_withHost hs rfl)

theorem keeps_wuPushed {n : Nat} {id : Word} {st : Nat} (hs : Keeps σ s) : Keeps σ (wuPushed s n id st) := by
  unfold wuPushed
  extract_lets cancelled
  exact keeps_ite (keeps_ite (keeps_wuEnd hs) (keeps_withHost hs rfl)) (keeps_wuEnd hs)

theorem keeps_cameraDone {r k n : Nat} {ready : Option Nat} (hs : Keeps σ s) :
    Keeps σ (cameraDone s r k n ready) := by
  unfold cameraDone
  split
  · exact hs
  · exact keeps_ite hs (keeps_addNamed hs)

theorem keeps_serialGot {u gen st : Nat} {data : List Byte} (hs : Keeps σ s) :
    Keeps σ (serialGot s u gen st data) := by
  unfold serialGot
  extract_lets v e got
  exact keeps_ite hs (keeps_setUart hs)

theorem keeps_engineErr {agent unit : Nat} {port : Word} {o : Outst} {st : Nat} (hs : Keeps σ s) :
    Keeps σ (engineErr s agent unit port o st) := by
  unfold engineErr
  exact keeps_ite (keeps_addrError hs) hs

theorem keeps_askDone {o : Outst} {st : Nat} {data : List Byte} (hs : Keeps σ s) : Keeps σ (askDone s o st data) := by
  unfold askDone
  split
  · exact keeps_ite (keeps_meshAnswer hs) (keeps_spireDone hs)
  · exact keeps_chainAnswer hs
  · exact keeps_moverTold hs
  · extract_lets s1
    have hs1 : Keeps σ s1 := keeps_engineErr hs
    exact keeps_withBoot hs1
  · exact keeps_ite (keeps_wuPushed hs) (keeps_withHost hs rfl)
  · exact keeps_ite (keeps_faultTaken hs) hs
  · exact keeps_ite (keeps_settleHost (keeps_sendEvent hs)) hs
  · exact keeps_withBoot hs
  · exact keeps_cameraDone (keeps_engineErr hs)
  · exact keeps_ite (keeps_addNamed hs) (keeps_engineErr hs)
  · exact keeps_serialGot (keeps_engineErr hs)
  · exact keeps_answerOp hs

theorem dieKeeps_dropOrigin {c : CDie} {who : Origin} (hc : DieKeeps σ die c) : DieKeeps σ die (dropOrigin c who) := by
  have hq := dieKeeps_mapQueues (f := fun q => (q.1, { q.2 with
    pushes := q.2.pushes.filter (fun p => decide (p.who ≠ who)), pops := q.2.pops.filter (fun p => decide (p ≠ who)) })) hc
    fun _ h => h
  exact hq

theorem keeps_withdrawFrom {who : Origin} {l : List Nat} (hs : Keeps σ s) : Keeps σ (withdrawFrom s who l) := by
  induction l generalizing s with
  | nil => exact hs
  | cons x l ih =>
    unfold withdrawFrom
    exact ih (keeps_ite (keeps_setCd hs (dieKeeps_dropOrigin (dieKeeps_cd hs _))) hs)

theorem keeps_withdraw {who : Origin} (hs : Keeps σ s) : Keeps σ (withdraw s who) := by
  unfold withdraw
  exact keeps_withdrawFrom hs

theorem keeps_cancelOp {who : Origin} (hs : Keeps σ s) : Keeps σ (cancelOp s who) := by
  unfold cancelOp
  split
  · exact keeps_answerOp (keeps_withdraw hs)
  · split
    · exact hs
    · exact keeps_ite (keeps_sendTxn hs) (keeps_askDone (keeps_dropAsk hs))

theorem keeps_recallOp {who : Origin} (hs : Keeps σ s) : Keeps σ (recallOp s who) := by
  unfold recallOp
  split
  · exact keeps_ite (keeps_cancelOp hs) (keeps_setParty hs)
  · exact keeps_cancelOp hs

theorem keeps_releaseAll {st : Nat} {l : List Waiter} (hs : Keeps σ s) : Keeps σ (releaseAll s st l) := by
  induction l generalizing s with
  | nil => exact hs
  | cons x l ih =>
    unfold releaseAll
    exact ih (keeps_answerOp hs)

theorem keeps_poisonBell {d n : Nat} (hs : Keeps σ s) : Keeps σ (poisonBell s d n) := by
  unfold poisonBell
  extract_lets b
  exact keeps_releaseAll (keeps_setBell hs)

theorem keeps_poisonSome {d : Nat} {t : Bell → Bool} {l : List Nat} (hs : Keeps σ s) :
    Keeps σ (poisonSome s d t l) := by
  induction l generalizing s with
  | nil => exact hs
  | cons x l ih =>
    unfold poisonSome
    exact ih (keeps_ite (keeps_poisonBell hs) hs)

theorem keeps_poisonDies {t : Nat → Bell → Bool} {l : List Nat} (hs : Keeps σ s) : Keeps σ (poisonDies s t l) := by
  induction l generalizing s with
  | nil => exact hs
  | cons x l ih =>
    unfold poisonDies
    exact ih (keeps_poisonSome hs)

theorem dieKeeps_dropOrigins {c : CDie} {l : List Origin} (hc : DieKeeps σ die c) :
    DieKeeps σ die (l.foldl dropOrigin c) := by
  induction l generalizing c with
  | nil => exact hc
  | cons who l ih => exact ih (dieKeeps_dropOrigin hc)

theorem keeps_cutHeld {t : Nat → Origin → Bool} {l : List Nat} (hs : Keeps σ s) : Keeps σ (cutHeld s t l) := by
  induction l generalizing s with
  | nil => exact hs
  | cons d l ih =>
    unfold cutHeld
    exact ih (keeps_ite hs (keeps_setCd hs (dieKeeps_dropOrigins (dieKeeps_cd hs d))))

theorem keeps_closeEps {l : List Nat} (hs : Keeps σ s) : Keeps σ (closeEps s l) := by
  induction l generalizing s with
  | nil => exact hs
  | cons x l ih =>
    unfold closeEps
    exact ih (keeps_setEndp hs)

theorem keeps_cutRelay {p : Nat} {o : Outst} (hs : Keeps σ s) : Keeps σ (cutRelay s p o) := by
  unfold cutRelay
  exact keeps_ite (keeps_dropAsk hs) (keeps_forsake hs)

theorem keeps_failOne {k : Nat} {x : Nat × Outst} (hs : Keeps σ s) : Keeps σ (failOne k s x) := by
  unfold failOne
  extract_lets o toK
  split
  · exact keeps_ite (keeps_ite (keeps_askDone (keeps_dropAsk hs)) hs)
      (keeps_ite (keeps_dropAsk hs) (keeps_ite hs (keeps_cutRelay hs)))
  · exact keeps_ite (keeps_askDone (keeps_dropAsk hs)) hs

theorem keeps_isolateDie {e k : Nat} (hs : Keeps σ s) : Keeps σ (isolateDie s e k) := by
  unfold isolateDie
  split
  · exact hs
  · extract_lets s1 _ s2 s3 s4 s5
    have hs1 : Keeps σ s1 := keeps_closeEps hs
    have hs2 : Keeps σ s2 := keeps_withNld hs1
    have hs3 : Keeps σ s3 := keeps_cutHeld (keeps_foldl hs2 (fun t1 a1 h => keeps_failOne h))
    have hs4 : Keeps σ s4 := keeps_chainScan hs3
    have hs5 : Keeps σ s5 := keeps_poisonDies hs4
    exact keeps_raise hs5

theorem keeps_failAsk {c : Nat} {x : Nat × Outst} (hs : Keeps σ s) : Keeps σ (failAsk c s x) := by
  unfold failAsk
  extract_lets o toC
  exact keeps_ite (keeps_cutRelay hs) (keeps_ite (keeps_dropAsk hs) (keeps_ite (keeps_askDone (keeps_dropAsk hs)) hs))

theorem keeps_sendIso {c : Nat} {l : List Nat} (hs : Keeps σ s) : Keeps σ (sendIso s c l) := by
  induction l generalizing s with
  | nil => exact hs
  | cons x l ih =>
    unfold sendIso
    extract_lets s1
    have hs1 : Keeps σ s1 := keeps_ite (keeps_getD (optKeeps_sendAsk hs) hs) hs
    exact ih hs1

theorem keeps_isolateChip {e c : Nat} (hs : Keeps σ s) : Keeps σ (isolateChip s e c) := by
  unfold isolateChip
  split
  · exact hs
  · extract_lets _ s1 s2 s3 s4
    have hs1 : Keeps σ s1 := keeps_closeEps (keeps_withNld hs)
    have hs2 : Keeps σ s2 := keeps_cutHeld (keeps_foldl hs1 (fun t1 a1 h => keeps_failAsk h))
    have hs3 : Keeps σ s3 := keeps_chainScan hs2
    have hs4 : Keeps σ s4 := keeps_poisonDies hs3
    exact keeps_sendIso (keeps_raise hs4)

theorem keeps_farDieCut {c k : Nat} (hs : Keeps σ s) : Keeps σ (farDieCut s c k) := by
  unfold farDieCut
  split
  · exact hs
  · extract_lets _ s1 s2
    have hs1 : Keeps σ s1 := keeps_withNld hs
    have hs2 : Keeps σ s2 := keeps_foldl hs1 (fun t1 a1 h => keeps_ite (keeps_cutRelay h) h)
    exact keeps_poisonDies (keeps_chainScan (keeps_cutHeld hs2))

theorem keeps_isolateVia {p : Nat} {l : List Nat} (hs : Keeps σ s) : Keeps σ (isolateVia s p l) := by
  induction l generalizing s with
  | nil => exact hs
  | cons x l ih =>
    unfold isolateVia
    extract_lets m
    exact ih (keeps_ite (keeps_isolateChip hs) hs)

theorem keeps_moveTo {nb p : Nat} {old : List TxFlit} {q : Nat} (hs : Keeps σ s) : Keeps σ (moveTo s nb p old q) := by
  unfold moveTo
  extract_lets pa moves kept v parts s1
  have hs1 : Keeps σ s1 := keeps_setParty hs
  exact keeps_ite hs (keeps_setEndp hs1)

theorem keeps_moveFlows {p : Nat} {old : List TxFlit} (hs : Keeps σ s) : Keeps σ (moveFlows s p old) := by
  unfold moveFlows
  split
  · exact hs
  · exact keeps_foldl hs (fun t1 a1 h => keeps_moveTo h)

theorem keeps_goDown {e : Nat} (hs : Keeps σ s) : Keeps σ (goDown s e) := by
  unfold goDown
  extract_lets v _ v1 s1 s2 s3
  have hs1 : Keeps σ s1 := keeps_setEndp hs
  have hs2 : Keeps σ s2 := keeps_moveFlows hs1
  have hs3 : Keeps σ s3 := keeps_ite (keeps_warn hs2) hs2
  exact keeps_ite (keeps_isolateVia hs3) (keeps_ite (keeps_isolateDie (keeps_fSafe hs1))
    (keeps_ite (keeps_isolateDie hs1) (keeps_isolateDie hs1)))

end Sys2Proof.Machine
end

section
/-! What every command keeps: the serial ports. -/

namespace Sys2Proof.Machine

variable {σ s : State}

theorem optKeeps_ringAsk {u : Nat} {ring : Word} {k : Nat} {kind : Nat} {payload : List Byte} {who : Origin} (hs : Keeps σ s) :
    OptKeeps σ (ringAsk s u ring k kind payload who) := by
  unfold ringAsk
  extract_lets d
  exact optKeeps_ite (optKeeps_sendAsk hs) optKeeps_none

theorem keeps_uartTake {u : Nat} (hs : Keeps σ s) : Keeps σ (uartTake s u) := by
  unfold uartTake
  extract_lets v
  split
  · exact hs
  · exact keeps_ite (keeps_getD (optKeeps_ringAsk (keeps_setUart hs)) hs) hs

theorem keeps_uartStop {u : Nat} {discard : Bool} (hs : Keeps σ s) : Keeps σ (uartStop s u discard) := by
  unfold uartStop
  extract_lets v s1 v1
  have hs1 : Keeps σ s1 := keeps_uartTake hs
  exact keeps_ite hs (keeps_setUart hs1)

end Sys2Proof.Machine
end

section
/-! What every command keeps: changes of the machine's state. -/

namespace Sys2Proof.Machine

variable {σ s : State} {die : Nat}

theorem keeps_throughFilter {g : FilterGroup} {ns : Nat} {act : State → State} (hs : Keeps σ s)
    (hact : ∀ t, Keeps σ t → Keeps σ (act t)) : Keeps σ (throughFilter g ns s act) := by
  unfold throughFilter
  split
  · exact hact _ hs
  · exact hs
  · exact keeps_ite (hact _ (keeps_withFree hs)) (keeps_withFree hs)

theorem keeps_filtered {g : FilterGroup} {act : State → State} (hs : Keeps σ s)
    (hact : ∀ t, Keeps σ t → Keeps σ (act t)) : Keeps σ (filtered g s act) := by
  unfold filtered
  split
  · exact hact _ hs
  · exact keeps_throughFilter (keeps_withPower hs) (fun t1 h => hact _ h)

theorem keeps_setMState {m : MState} (hs : Keeps σ s) : Keeps σ (setMState s m) := by
  have entered : Keeps σ { s with
      mstate := m, f := { s.f with reports := s.f.reports ++ [m] },
      faults := if m = .run then { s.faults with wdFrom := s.tb } else s.faults } := by
    have h := keeps_withFaults (f := if m = .run then { s.faults with wdFrom := s.tb } else s.faults) hs
      fun h => by split <;> exact h
    exact h
  unfold setMState
  exact keeps_ite hs (keeps_ite entered (keeps_msixSend entered))

theorem keeps_slotLost {slot : Bool} (hs : Keeps σ s) : Keeps σ (slotLost s slot) := by
  unfold slotLost
  extract_lets lo inSlot
  have lost := keeps_withFlash hs fun h =>
    memWf_putCells (s.flash.filter (fun c => !inSlot c.1)) ((Config.slotBytes s.free).filter (fun c => inSlot c.1))
      (memWf_filter _ _ h)
  exact lost

theorem keeps_dropUpdate (hs : Keeps σ s) : Keeps σ (dropUpdate s) := by
  unfold dropUpdate
  split
  · exact hs
  · extract_lets s1
    have hs1 : Keeps σ s1 := keeps_ite hs (keeps_slotLost hs)
    exact keeps_withBoot hs1

theorem windowsFit_of_spireKeeps {f : Spire → Spire} (hf : ∀ {σ die v}, SpireKeeps σ die v → SpireKeeps σ die (f v))
    {v : Spire} (h : WindowsFit v) : WindowsFit (f v) :=
  hf (σ := {}) (die := 0) (v := v) (fun _ _ => h) rfl rfl

theorem dieKeeps_dieHalts {c : CDie} (hc : DieKeeps σ die c) : DieKeeps σ die (dieHalts c) := by
  unfold dieHalts
  extract_lets ds
  have spires := dieKeeps_mapSpires (f := fun e => (e.1, spireHalts e.2)) hc
    fun _ => windowsFit_of_spireKeeps spireKeeps_spireHalts
  have queues := dieKeeps_mapQueues (f := fun e => (e.1, queueHalts ds e.1 e.2)) spires fun _ h => h
  exact queues

theorem keeps_drainPorts {l : List (Fin 4 × Fin 8)} (hs : Keeps σ s) : Keeps σ (drainPorts s l) := by
  induction l generalizing s with
  | nil => exact hs
  | cons x l ih =>
    unfold drainPorts
    extract_lets k s1
    have hs1 : Keeps σ s1 := keeps_drainRowsIn hs
    exact ih (keeps_drainRowsIn hs1)

theorem keeps_closePorts (hs : Keeps σ s) : Keeps σ (closePorts s) := by
  unfold closePorts
  extract_lets s1
  have hs1 : Keeps σ s1 := keeps_closeEps hs
  exact keeps_foldl hs1 (fun t1 a1 h => keeps_isolateVia h)

theorem keeps_stopUarts (hs : Keeps σ s) : Keeps σ (stopUarts s) := by
  unfold stopUarts
  exact keeps_foldl hs (fun t1 a1 h => keeps_uartStop h)

theorem keeps_answerAll {st : Nat} {l : List Origin} (hs : Keeps σ s) : Keeps σ (answerAll s st l) := by
  induction l generalizing s with
  | nil => exact hs
  | cons x l ih =>
    unfold answerAll
    exact ih (keeps_answerOp hs)

theorem keeps_meshRec {d n : Nat} (hs : Keeps σ s) : Keeps σ (meshRec s d n) := by
  unfold meshRec
  split
  · split
    · exact keeps_accessRec hs
    · exact hs
  · exact hs

theorem keeps_meshRecs {l : List (Nat × Nat)} (hs : Keeps σ s) : Keeps σ (meshRecs s l) := by
  induction l generalizing s with
  | nil => exact hs
  | cons x l ih =>
    unfold meshRecs
    exact ih (keeps_meshRec hs)

theorem keeps_stopAsk {o : Outst} (hs : Keeps σ s) : Keeps σ (stopAsk s o) := by
  unfold stopAsk
  split
  · exact hs
  · extract_lets s1 p
    have hs1 : Keeps σ s1 := keeps_ite (keeps_withdraw hs) hs
    exact keeps_ite (keeps_setParty hs1) hs1

theorem keeps_haltWait {o : Outst} {d n : Nat} (hs : Keeps σ s) : Keeps σ (haltWait s o d n) := by
  unfold haltWait
  split
  · exact hs
  · extract_lets _ s1
    have hs1 : Keeps σ s1 := keeps_stopAsk (keeps_setSpire hs (spireKeeps_spire hs))
    exact keeps_ite (keeps_sendTxn hs1) hs1

theorem keeps_haltAsk {x : Nat × Outst} (hs : Keeps σ s) : Keeps σ (haltAsk s x) := by
  unfold haltAsk
  extract_lets o gone
  have hgone : Keeps σ gone := keeps_ite (keeps_stopAsk (keeps_dropAsk hs)) (keeps_dropAsk hs)
  split
  · exact hs
  · split
    · exact keeps_ite (keeps_stopAsk hs) (keeps_answerOp (keeps_dropAsk hs))
    · exact keeps_askDone (keeps_dropAsk hs)
    · exact keeps_ite (keeps_haltWait hs) hgone
    · refine keeps_setQueue hgone ?_
      extract_lets
      exact queueKeeps_queue hgone
    · exact hgone

/-- The dies of one state with the log of another, its memory controller and no token held. -/
theorem stopped_kept {t : State} {m : Tab Mover} {p : Power} (hs : Keeps σ s) (ht : Keeps σ t) :
    Keeps σ { t with tokenHeld := [], mem := { s.mem with movers := m }, power := p } := by
  obtain ⟨-, -, -, -, mem, -, -⟩ := hs
  obtain ⟨d0, d1, d2, d3, rest, log, -⟩ := ht
  exact ⟨d0, d1, d2, d3, fun h => ⟨(mem h).1, (rest h).2⟩, log, fun _ => Nat.zero_le _⟩

theorem keeps_enterHalt (hs : Keeps σ s) : Keeps σ (enterHalt s) := by
  unfold enterHalt
  extract_lets sh s0 untaken s1 s2
  have hsh : Keeps σ sh := keeps_foldl hs fun _ _ h => keeps_haltAsk h
  have hs1 : Keeps σ s1 := keeps_drainPorts (keeps_answerAll (keeps_meshRecs hsh))
  clear_value s1
  have halted : Keeps σ (mapDies s1 dieHalts) := keeps_mapDies hs1 fun _ _ hc => dieKeeps_dieHalts hc
  have hs2 := stopped_kept (m := s1.mem.movers.map fun e => (e.1, { e.2 with cmd := none, run := none, doneQ := [] }))
    (p := { s1.power with capT := [0, 0, 0, 0] }) hs1 halted
  exact keeps_closePorts (keeps_answerAll (keeps_stopUarts (keeps_dropUpdate (keeps_setMState hs2))))

theorem keeps_haltFault {bitNo : Nat} {r : List Word} (hs : Keeps σ s) : Keeps σ (haltFault s bitNo r) := by
  unfold haltFault
  extract_lets s1
  have hs1 : Keeps σ s1 := keeps_haltNote hs
  exact keeps_ite (keeps_enterHalt hs1) hs1

theorem keeps_startLinks {l : List Nat} (hs : Keeps σ s) : Keeps σ (startLinks s l) := by
  induction l generalizing s with
  | nil => exact hs
  | cons x l ih =>
    unfold startLinks
    exact ih (keeps_setEndp hs)

theorem keeps_leaveReset (hs : Keeps σ s) : Keeps σ (leaveReset s) := by
  unfold leaveReset
  split
  · extract_lets s1
    have hs1 : Keeps σ s1 := keeps_startLinks hs
    exact keeps_setMState (keeps_withPower hs1)
  · exact hs

end Sys2Proof.Machine
end

section
/-! What every command keeps: Vaults and the LPDDR. -/

namespace Sys2Proof.Machine

variable {σ s : State}

theorem keeps_vaultFail {d off : Nat} {port : Word} (hs : Keeps σ s) : Keeps σ (vaultFail s d off port) := by
  unfold vaultFail
  exact keeps_haltFault hs

theorem keeps_rdVault {d off n : Nat} {port : Word} (hs : Keeps σ s) : Keeps σ (rdVault s d off n port).2 := by
  unfold rdVault
  split
  · exact hs
  · split
    · exact keeps_ite hs (keeps_setCd hs (dieKeeps_of_vaultLoad ‹_› (dieKeeps_cd hs _)))
    · exact keeps_vaultFail hs

theorem keeps_rdPieces {d a : Nat} {port : Word} {l : List (Nat × Nat)} (hs : Keeps σ s) :
    Keeps σ (rdPieces s d a port l).2 := by
  induction l generalizing s with
  | nil => exact hs
  | cons x l ih =>
    unfold rdPieces
    split
    · exact keeps_of_snd_eq ‹_› (keeps_rdVault hs)
    · exact ih (keeps_of_snd_eq ‹_› (keeps_rdVault hs))

theorem keeps_rdSpans {d a n : Nat} {ps : List (Nat × Nat)} {port : Word} (hs : Keeps σ s) :
    Keeps σ (rdSpans s d a n ps port).2 := by
  unfold rdSpans
  split <;> exact keeps_of_snd_eq ‹_› (keeps_rdPieces hs)

theorem keeps_of_wrVault {d off : Nat} {bs : List Byte} {port : Word} {t u : State}
    (h : wrVault s d off bs port = (some t, u)) (hs : Keeps σ s) : Keeps σ t := by
  unfold wrVault at h
  split at h
  · cases h
  · split at h
    · cases h
      exact keeps_setCd hs (dieKeeps_of_vaultStore ‹_› (dieKeeps_cd hs _))
    · cases h

theorem keeps_wrVault {d off : Nat} {bs : List Byte} {port : Word} (hs : Keeps σ s) :
    Keeps σ (wrVault s d off bs port).2 := by
  unfold wrVault
  split
  · exact hs
  · split
    · exact keeps_setCd hs (dieKeeps_of_vaultStore ‹_› (dieKeeps_cd hs _))
    · exact keeps_vaultFail hs

theorem keeps_lpddrFail {a : Nat} (hs : Keeps σ s) : Keeps σ (lpddrFail s a) := by
  unfold lpddrFail
  exact keeps_haltFault hs

theorem keeps_lpLoad {a n : Nat} (hs : Keeps σ s) : Keeps σ (lpLoad s a n).2 := by
  unfold lpLoad
  extract_lets k es _ m r
  split
  · split
    · exact keeps_lpddrFail hs
    · exact hs
  · exact keeps_snd_ite hs (keeps_drawBytes hs)

/-- New contents of the LPDDR, with rising addresses where the old ones rise. -/
theorem keeps_withLpddr {x : MemCtl} (hs : Keeps σ s) (h : memRises 0 s.mem.lpddr = true → memRises 0 x.lpddr = true) :
    Keeps σ { s with mem := x } := by
  obtain ⟨h0, h1, h2, h3, hm, rest⟩ := hs
  exact ⟨h0, h1, h2, h3, fun hσ => ⟨h (hm hσ).1, (hm hσ).2⟩, rest⟩

theorem keeps_lpStore {a : Nat} {bs : List Byte} (hs : Keeps σ s) : Keeps σ (lpStore s a bs) := by
  unfold lpStore
  extract_lets k es ecc _ m r
  split
  · exact keeps_withLpddr hs fun h => memRises_lpPut _ _ _ h
  · have hr : Keeps σ r.2 := keeps_drawBytes (keeps_withMem hs rfl)
    exact keeps_withLpddr hr fun h => memRises_lpPut _ _ _ h

end Sys2Proof.Machine
end

section
/-! What every command keeps: pushes, pops and waits by name. -/

namespace Sys2Proof.Machine

variable {σ s : State} {die : Nat}

theorem keeps_servePops {k : Nat} {d : Nat} {q : Nat} (hs : Keeps σ s) : Keeps σ (servePops k s d q) := by
  induction k generalizing s d q with
  | zero => exact hs
  | succ k ih =>
    unfold servePops
    extract_lets v
    split
    · exact hs
    · split
      · split
        · exact keeps_vaultFail hs
        · refine ih ?_
          refine keeps_answerOp ?_
          refine keeps_setQueue (keeps_of_popEntry ‹_› hs) ?_
          extract_lets
          exact queueKeeps_queue (keeps_of_popEntry ‹_› hs)
      · exact hs

theorem keeps_pushEntry {d q : Nat} {p : Push} (hs : Keeps σ s)
    (room : (cd σ d).slewed = false → (queue s d q).occ < queDepth (queue s d q)) : Keeps σ (pushEntry s d q p) := by
  unfold pushEntry
  exact keeps_servePops (keeps_enterEntry hs room)

theorem keeps_pushTaken {p : Push} (hs : Keeps σ s) : Keeps σ (pushTaken s p) := by
  unfold pushTaken
  split
  · exact keeps_feFinish hs
  · exact keeps_unitRecorded hs
  · exact keeps_answerOp hs

theorem queTakes_room {d q : Nat} (h : queTakes s d q = true) : (queue s d q).occ < queDepth (queue s d q) := by
  simp only [queTakes, queRoom, Bool.and_eq_true, decide_eq_true_eq] at h
  exact h.1.2

theorem queue_setQueue {d q : Nat} {v : Queue} (whole : (cd s d).slewed = false) : queue (setQueue s d q v) d q = v := by
  simp [queue, setQueue_whole s d q v whole, cd_putCd]

theorem keeps_admitPush {d q : Nat} (hs : Keeps σ s) : Keeps σ (admitPush s d q) := by
  unfold admitPush
  extract_lets v
  split
  · exact hs
  · split
    · rename_i takes
      refine keeps_pushTaken (keeps_pushEntry (keeps_setQueue hs (queueKeeps_queue hs)) fun w => ?_)
      rw [queue_setQueue ((dieKeeps_cd hs d).1.trans w)]
      exact queTakes_room takes
    · exact hs

theorem keeps_admitPushes {k : Nat} {d : Nat} {q : Nat} (hs : Keeps σ s) : Keeps σ (admitPushes k s d q) := by
  induction k generalizing s d q with
  | zero => exact hs
  | succ k ih =>
    unfold admitPushes
    exact ih (keeps_admitPush hs)

theorem keeps_admitAll {d q : Nat} (hs : Keeps σ s) : Keeps σ (admitAll s d q) := by
  unfold admitAll
  exact keeps_admitPushes hs

theorem keeps_handPush {d q : Nat} {p : Push} (hs : Keeps σ s) : Keeps σ (handPush s d q p) := by
  unfold handPush
  extract_lets _ s1
  have hs1 : Keeps σ s1 := keeps_setQueue hs (queueKeeps_queue hs)
  exact keeps_ite (keeps_admitPush hs1) hs1

/-- What an operation leaves that may answer no state. -/
theorem keeps_optMatch {o : Option State} {t : State} : OptKeeps σ o → Keeps σ t →
    Keeps σ (match o with
      | some u => u
      | none => t) := by
  intro ho ht
  cases o with
  | none => exact ht
  | some u => exact ho u rfl

/-- What is done for a mover's record and for another unit's. -/
theorem keeps_unitMatch {u : UnitRef} {f : Fin 8 → State} {t : State} : (∀ m, Keeps σ (f m)) → Keeps σ t →
    Keeps σ (match u with
      | .mover m => f m
      | _ => t) := by
  intro hf ht
  cases u with
  | mover m => exact hf m
  | _ => exact ht

theorem keeps_postDone {u : UnitRef} (hs : Keeps σ s) : Keeps σ (postDone s u) := by
  unfold postDone
  split
  · exact hs
  · split
    · exact hs
    · extract_lets d r s1
      have hs1 : Keeps σ s1 := keeps_setUnitDones hs
      refine keeps_unitMatch (fun m => ?_) (keeps_handPush hs1)
      exact keeps_optMatch (optKeeps_sendAsk hs1) (keeps_unitOver hs)

theorem keeps_repSt {st : Nat} (hs : Keeps σ s) : Keeps σ (repSt s st).2 := by
  unfold repSt
  exact hs

theorem keeps_localBadd {d n : Nat} {v : Word} (hs : Keeps σ s) : Keeps σ (localBadd s d n v).2 := by
  unfold localBadd
  exact keeps_snd_ite (keeps_repSt hs) (keeps_repSt (keeps_addBell hs))

theorem keeps_localBwait {d n : Nat} {target : Word} {tryB : Bool} {who : Origin} (hs : Keeps σ s) :
    Keeps σ (localBwait s d n target tryB who).2 := by
  unfold localBwait
  exact keeps_snd_ite (keeps_repSt hs) (keeps_snd_ite (keeps_repSt hs)
    (keeps_snd_ite (keeps_repSt hs) (keeps_holdWait hs)))

theorem keeps_localQpush {d q : Nat} {p : Push} {tryB : Bool} (hs : Keeps σ s) :
    Keeps σ (localQpush s d q p tryB).2 := by
  unfold localQpush
  extract_lets s1 v
  have hs1 : Keeps σ s1 := keeps_admitAll hs
  split
  · exact keeps_repSt hs
  · split
    · rename_i h
      exact keeps_repSt (keeps_pushEntry hs1 fun _ => queTakes_room h.1)
    · exact keeps_snd_ite (keeps_repSt hs1) (keeps_setQueue hs1 (queueKeeps_queue hs1))

theorem keeps_localQpop {d q : Nat} {tryB : Bool} {who : Origin} (hs : Keeps σ s) :
    Keeps σ (localQpop s d q tryB who).2 := by
  unfold localQpop
  extract_lets v
  split
  · exact keeps_repSt hs
  · split
    · split
      · exact keeps_vaultFail hs
      · exact keeps_of_popEntry ‹_› hs
    · exact keeps_snd_ite (keeps_repSt hs) (keeps_setQueue hs (queueKeeps_queue hs))

theorem keeps_askOut {a : Ask} {who : Origin} (hs : Keeps σ s) : Keeps σ (askOut s a who).2 := by
  unfold askOut
  split
  · exact (optKeeps_sendAsk hs) _ ‹_›
  · exact keeps_repSt hs

theorem keeps_byName {die w bits : Nat} {here : Nat → Nat → Reply} {there : Reply} (hs : Keeps σ s)
    (hhere : ∀ d n, Keeps σ (here d n).2) (hthere : Keeps σ there.2) : Keeps σ (byName s die w bits here there).2 := by
  unfold byName
  exact keeps_snd_ite (keeps_repSt hs) (keeps_snd_ite (keeps_repSt hs) (keeps_snd_ite (hhere _ _) hthere))

theorem keeps_sendBadd {f : Sender} {w : Nat} {v : Word} (hs : Keeps σ s) : Keeps σ (sendBadd s f w v).2 := by
  unfold sendBadd
  exact keeps_byName hs (fun d1 n1 => keeps_localBadd hs) (keeps_askOut hs)

theorem keeps_sendBwait {f : Sender} {w : Nat} {target : Word} (hs : Keeps σ s) :
    Keeps σ (sendBwait s f w target).2 := by
  unfold sendBwait
  exact keeps_byName hs (fun d1 n1 => keeps_localBwait hs) (keeps_askOut hs)

theorem keeps_sendQpush {f : Sender} {w : Nat} {hdr1 : Word} {body : List Byte} (hs : Keeps σ s) :
    Keeps σ (sendQpush s f w hdr1 body).2 := by
  unfold sendQpush
  exact keeps_byName hs (fun d1 n1 => keeps_localQpush hs) (keeps_askOut hs)

theorem keeps_sendQpop {f : Sender} {w : Nat} (hs : Keeps σ s) : Keeps σ (sendQpop s f w).2 := by
  unfold sendQpop
  exact keeps_byName hs (fun d1 n1 => keeps_localQpop hs) (keeps_askOut hs)

end Sys2Proof.Machine
end

section
/-! What every command keeps: Bells, queues and entries. -/

namespace Sys2Proof.Machine

variable {σ s : State} {die : Nat}

theorem outKeeps_execBellAdd {d : Fin 4} {n : Fin 256} {v : BitVec 32} (hs : Keeps σ s) :
    OutKeeps σ (execBellAdd d n v s) := by
  unfold execBellAdd
  exact outKeeps_next (keeps_ite hs (keeps_addBell hs))

theorem outKeeps_execBellSet {d : Fin 4} {n : Fin 256} {v : BitVec 32} (hs : Keeps σ s) :
    OutKeeps σ (execBellSet d n v s) := by
  unfold execBellSet
  exact outKeeps_next (keeps_ite hs (keeps_storeBell hs))

theorem keeps_unpoisonBell {d n : Nat} (hs : Keeps σ s) : Keeps σ (unpoisonBell s d n) := by
  unfold unpoisonBell
  exact keeps_ite hs (keeps_setBell hs)

theorem keeps_belCtlWrite {d n : Nat} {v : Word} (hs : Keeps σ s) : Keeps σ (belCtlWrite s d n v) := by
  unfold belCtlWrite
  exact keeps_ite (keeps_poisonBell hs) (keeps_ite (keeps_unpoisonBell hs) hs)

theorem outKeeps_execBellPoison {d : Fin 4} {n : Fin 256} (hs : Keeps σ s) : OutKeeps σ (execBellPoison d n s) := by
  unfold execBellPoison
  exact outKeeps_next (keeps_ite hs (keeps_belCtlWrite hs))

theorem outKeeps_execBellUnpoison {d : Fin 4} {n : Fin 256} (hs : Keeps σ s) :
    OutKeeps σ (execBellUnpoison d n s) := by
  unfold execBellUnpoison
  exact outKeeps_next (keeps_ite hs (keeps_belCtlWrite hs))

theorem outKeeps_execBellWaitSatisfied {d : Fin 4} {n : Fin 256} (hs : Keeps σ s) :
    OutKeeps σ (execBellWaitSatisfied d n s) := by
  unfold execBellWaitSatisfied
  refine outKeeps_next ?_
  split
  · exact hs
  · exact keeps_answerOp (keeps_setBell hs)

theorem outKeeps_execQueuePushAdmit {d : Fin 4} {q : Fin 128} (hs : Keeps σ s) :
    OutKeeps σ (execQueuePushAdmit d q s) := by
  unfold execQueuePushAdmit
  exact outKeeps_next (keeps_admitPush hs)

theorem outKeeps_execCommandComplete {u : UnitRef} (hs : Keeps σ s) : OutKeeps σ (execCommandComplete u s) := by
  unfold execCommandComplete
  exact outKeeps_next (keeps_ite (keeps_postDone hs) hs)

theorem keeps_queStop {d q : Nat} (hs : Keeps σ s) : Keeps σ (queStop s d q) := by
  unfold queStop
  split
  · refine keeps_setQueue hs ?_
    extract_lets
    exact queueKeeps_queue hs
  · exact hs

theorem keeps_queResume {d q : Nat} (hs : Keeps σ s) : Keeps σ (queResume s d q) := by
  unfold queResume
  extract_lets _ s1
  have hs1 : Keeps σ s1 := keeps_setQueue hs (queueKeeps_queue hs)
  exact keeps_servePops hs1

theorem keeps_orphanAsk {who : Origin} (hs : Keeps σ s) : Keeps σ (orphanAsk s who) := by
  unfold orphanAsk
  split
  · exact hs
  · exact keeps_ite (keeps_sendTxn (keeps_orphan hs)) (keeps_dropAsk hs)

theorem keeps_feDrop {d q : Nat} (hs : Keeps σ s) : Keeps σ (feDrop s d q) := by
  unfold feDrop
  split
  · extract_lets s1
    have hs1 : Keeps σ s1 := keeps_orphanAsk (keeps_withdraw hs)
    exact keeps_setQueue hs1 (queueKeeps_queue hs1)
  · exact hs

theorem keeps_queFlush {d q : Nat} (hs : Keeps σ s) : Keeps σ (queFlush s d q) := by
  unfold queFlush
  extract_lets k s1
  have hs1 : Keeps σ s1 := keeps_feDrop hs
  have flushed : QueueKeeps σ d { queue s1 d q with occ := 0, disc := satAdd (queue s1 d q).disc k } :=
    queueKeeps_lessOcc (Nat.zero_le _) (queueKeeps_queue hs1)
  exact keeps_admitAll (keeps_setQueue hs1 flushed)

theorem keeps_queCtlWrite {d q : Nat} {v : Word} (hs : Keeps σ s) : Keeps σ (queCtlWrite s d q v) := by
  unfold queCtlWrite
  extract_lets s1 s2
  have hs1 : Keeps σ s1 := keeps_ite (keeps_queStop hs) hs
  have hs2 : Keeps σ s2 := keeps_ite (keeps_queResume hs1) hs1
  exact keeps_ite (keeps_queFlush hs2) hs2

theorem outKeeps_execQueStop {d : Fin 4} {q : Fin 128} (hs : Keeps σ s) : OutKeeps σ (execQueStop d q s) := by
  unfold execQueStop
  exact outKeeps_next (keeps_ite hs (keeps_queCtlWrite hs))

theorem outKeeps_execQueResume {d : Fin 4} {q : Fin 128} (hs : Keeps σ s) : OutKeeps σ (execQueResume d q s) := by
  unfold execQueResume
  exact outKeeps_next (keeps_ite hs (keeps_queCtlWrite hs))

theorem outKeeps_execQueFlush {d : Fin 4} {q : Fin 128} (hs : Keeps σ s) : OutKeeps σ (execQueFlush d q s) := by
  unfold execQueFlush
  exact outKeeps_next (keeps_ite hs (keeps_queCtlWrite hs))

theorem keeps_queBaseWrite {d q : Nat} {v : Word} (hs : Keeps σ s) : Keeps σ (queBaseWrite s d q v) := by
  unfold queBaseWrite
  extract_lets _ n
  exact keeps_ite (keeps_setQueue hs (queueKeeps_queue hs)) hs

/-- A new configuration that keeps the ring's size, or one of an empty queue. -/
theorem queueFits_config {q n : Queue} (hq : QueueKeeps σ die q) (occ : n.occ = q.occ)
    (h : n.ldepth = q.ldepth ∨ q.occ = 0) : QueueKeeps σ die n := by
  intro hσ w
  have fits : q.occ ≤ queDepth q := hq hσ w
  change n.occ ≤ queDepth n
  rcases h with same | empty
  · simpa only [queDepth, occ, same] using fits
  · omega

theorem keeps_queCfgWrite {d q : Nat} {v : Word} (hs : Keeps σ s) : Keeps σ (queCfgWrite s d q v) := by
  unfold queCfgWrite
  extract_lets old n
  have hold : QueueKeeps σ d old := queueKeeps_queue hs
  split
  · exact hs
  · split
    · rename_i same
      exact keeps_setQueue hs (queueFits_config hold rfl (.inl same.2.2))
    · split
      · rename_i free
        simp only [queIdle, Bool.and_eq_true, decide_eq_true_eq] at free
        exact keeps_setQueue hs (queueFits_config hold rfl (.inr free.1.2))
      · exact hs

theorem outKeeps_execQueConfigWrite {d : Fin 4} {q : Fin 128} {cfg : Bool} {v : BitVec 32} (hs : Keeps σ s) :
    OutKeeps σ (execQueConfigWrite d q cfg v s) := by
  unfold execQueConfigWrite
  exact outKeeps_next (keeps_ite hs (keeps_ite (keeps_queCfgWrite hs) (keeps_queBaseWrite hs)))

theorem outKeeps_execQueHwcntRead {d : Fin 4} {q : Fin 128} (hs : Keeps σ s) :
    OutKeeps σ (execQueHwcntRead d q s) := by
  unfold execQueHwcntRead
  refine outKeeps_next ?_
  split
  · refine keeps_setQueue (keeps_outRead hs) ?_
    extract_lets
    exact queueKeeps_queue hs
  · exact hs

theorem outKeeps_execQueDiscRead {d : Fin 4} {q : Fin 128} (hs : Keeps σ s) : OutKeeps σ (execQueDiscRead d q s) := by
  unfold execQueDiscRead
  refine outKeeps_next ?_
  split
  · refine keeps_setQueue (keeps_outRead hs) ?_
    extract_lets
    exact queueKeeps_queue hs
  · exact hs

theorem keeps_feTook {d : Fin 4} {q : Nat} {c : Consumer} {ws : List Word} {seq : Word} (hs : Keeps σ s) :
    Keeps σ (feTook s d q c ws seq) := by
  unfold feTook
  split
  · refine keeps_setQueue hs ?_
    extract_lets
    exact queueKeeps_queue hs
  · refine keeps_setUnitCmd ?_
    refine keeps_setQueue hs ?_
    extract_lets
    exact queueKeeps_queue hs

theorem outKeeps_execQueueFrontEndTake {d : Fin 4} {q : Fin 128} {c : Consumer} (hs : Keeps σ s) :
    OutKeeps σ (execQueueFrontEndTake d q c s) := by
  unfold execQueueFrontEndTake
  refine outKeeps_next ?_
  split
  · split
    · exact keeps_vaultFail hs
    · extract_lets ws
      exact keeps_ite (keeps_feTook (keeps_of_popEntry ‹_› hs)) hs
  · exact hs

theorem keeps_setFePhase {d q : Nat} {h : FeHold} {phase : Nat} (hs : Keeps σ s) :
    Keeps σ (setFePhase s d q h phase) := by
  unfold setFePhase
  refine keeps_setQueue hs ?_
  extract_lets
  exact queueKeeps_queue hs

theorem keeps_feReply {r : Reply} {d q : Nat} (hr : Keeps σ r.2) : Keeps σ (feReply r d q) := by
  unfold feReply
  split
  · exact keeps_answerOp hr
  · exact hr

theorem outKeeps_execWaitEntry {d : Fin 4} {q : Fin 128} (hs : Keeps σ s) : OutKeeps σ (execWaitEntry d q s) := by
  unfold execWaitEntry
  refine outKeeps_next ?_
  split
  · exact hs
  · exact keeps_ite (keeps_feComplete hs) (keeps_feReply (keeps_sendBwait (keeps_setFePhase hs)))

theorem outKeeps_execRingEntry {d : Fin 4} {q : Fin 128} (hs : Keeps σ s) : OutKeeps σ (execRingEntry d q s) := by
  unfold execRingEntry
  refine outKeeps_next ?_
  split
  · exact hs
  · exact keeps_ite (keeps_feComplete hs) (keeps_setFePhase hs)

theorem outKeeps_execRingAdd {d : Fin 4} {q : Fin 128} (hs : Keeps σ s) : OutKeeps σ (execRingAdd d q s) := by
  unfold execRingAdd
  refine outKeeps_next ?_
  split
  · exact hs
  · exact keeps_ite (keeps_feReply (keeps_sendBadd (keeps_setFePhase hs))) hs

end Sys2Proof.Machine
end

section
/-! What every command keeps: the camera receivers. -/

namespace Sys2Proof.Machine

variable {σ s : State}

theorem outKeeps_execCsiTriggerPulse {r : Fin 4} (hs : Keeps σ s) : OutKeeps σ (execCsiTriggerPulse r s) := by
  unfold execCsiTriggerPulse
  extract_lets v s1
  have hs1 : Keeps σ s1 := keeps_withFree hs
  refine outKeeps_next ?_
  split
  · exact hs
  · exact keeps_ite (keeps_output (keeps_setCsiRx hs1)) hs1

/-- Operations in turn, until one answers no state. -/
theorem optKeeps_foldl {α : Type} {f : Option State → α → Option State} {o : Option State} {l : List α} (ho : OptKeeps σ o)
    (hf : ∀ t a, OptKeeps σ t → OptKeeps σ (f t a)) : OptKeeps σ (l.foldl f o) := by
  induction l generalizing o with
  | nil => exact ho
  | cons a l ih => exact ih (hf o a ho)

theorem optKeeps_bind {o : Option State} {f : State → Option State} (ho : OptKeeps σ o)
    (hf : ∀ t, Keeps σ t → OptKeeps σ (f t)) : OptKeeps σ (o.bind f) := by
  cases o with
  | none => exact optKeeps_none
  | some t => exact hf t (ho t rfl)

theorem optKeeps_csiWrite {r off d : Nat} {bs : List Byte} {who : Origin} (hs : Keeps σ s) :
    OptKeeps σ (csiWrite s r d off who bs) := by
  unfold csiWrite
  exact optKeeps_foldl (optKeeps_some hs) (fun t1 a1 h => optKeeps_bind h
    (fun t2 h1 => optKeeps_ite (optKeeps_sendAsk h1) optKeeps_none))

theorem keeps_csiEnd {r k flags : Nat} (hs : Keeps σ s) : Keeps σ (csiEnd s r k flags) := by
  unfold csiEnd
  extract_lets v x s1
  have hs1 : Keeps σ s1 := keeps_setCsiRx hs
  split
  · exact keeps_ite (keeps_getD (optKeeps_csiWrite hs1) (keeps_cameraDone hs1)) (keeps_setCsiRx hs)
  · exact hs

theorem keeps_csiPacket {r : Nat} {h : CsiHeader} {f : State → State} (hs : Keeps σ s)
    (hf : ∀ t, Keeps σ t → Keeps σ (f t)) : Keeps σ (csiPacket s r h f) := by
  unfold csiPacket
  extract_lets v
  exact keeps_ite (keeps_ite (keeps_setCsiRx hs) (hf _ hs)) hs

theorem keeps_csiBegin {r : Nat} {h : CsiHeader} {k : Nat} (hs : Keeps σ s) : Keeps σ (csiBegin s r h k) := by
  unfold csiBegin
  extract_lets s1 v x cur
  have hs1 : Keeps σ s1 := keeps_csiEnd hs
  exact keeps_ite (keeps_setCsiRx hs1) (keeps_setCsiRx hs1)

theorem outKeeps_execCsiFrameStart {r : Fin 4} {h : CsiHeader} (hs : Keeps σ s) :
    OutKeeps σ (execCsiFrameStart r h s) := by
  unfold execCsiFrameStart
  exact outKeeps_next (keeps_csiPacket hs (fun t1 h1 => keeps_foldl h1
    (fun t2 a1 h2 => keeps_ite (keeps_csiBegin h2) h2)))

theorem keeps_csiLine {r : Nat} {h : CsiHeader} {crcOk : Bool} {data : List Byte} {k : Nat} (hs : Keeps σ s) :
    Keeps σ (csiLine s r h crcOk data k) := by
  unfold csiLine
  extract_lets v x
  split
  · split
    · extract_lets ofs fits cur1 s1
      have hs1 : Keeps σ s1 := keeps_setCsiRx hs
      exact keeps_ite (keeps_getD (optKeeps_csiWrite hs1) hs1) hs1
    · exact hs
  · exact hs

theorem outKeeps_execCsiLongPacket {r : Fin 4} {h : CsiHeader} {crcOk : Bool} {data : List (BitVec 8)} (hs : Keeps σ s) :
    OutKeeps σ (execCsiLongPacket r h crcOk data s) := by
  unfold execCsiLongPacket
  exact outKeeps_next (keeps_csiPacket hs (fun t1 h1 => keeps_foldl h1
    (fun t2 a1 h2 => keeps_ite (keeps_csiLine h2) h2)))

theorem keeps_csiCountEcc {r : Nat} {h : CsiHeader} {k : Nat} (hs : Keeps σ s) : Keeps σ (csiCountEcc s r h k) := by
  unfold csiCountEcc
  extract_lets v x
  split
  · exact keeps_setCsiRx hs
  · exact hs

theorem outKeeps_execCsiFrameEnd {r : Fin 4} {h : CsiHeader} (hs : Keeps σ s) :
    OutKeeps σ (execCsiFrameEnd r h s) := by
  unfold execCsiFrameEnd
  exact outKeeps_next (keeps_csiPacket hs (fun t1 h1 => keeps_foldl h1
    (fun t2 a1 h2 => keeps_ite (keeps_csiEnd (keeps_csiCountEcc h2)) h2)))

theorem outKeeps_execCsiFrameTimeout {r : Fin 4} {k : Fin 4} (hs : Keeps σ s) :
    OutKeeps σ (execCsiFrameTimeout r k s) := by
  unfold execCsiFrameTimeout
  extract_lets v
  refine outKeeps_next ?_
  split
  · exact keeps_ite (keeps_csiEnd hs) hs
  · exact hs

theorem keeps_csiCfgSet {r : Nat} {x : Word} (hs : Keeps σ s) : Keeps σ (csiCfgSet s r x) := by
  unfold csiCfgSet
  extract_lets v _ g
  exact keeps_ite hs (keeps_ite (keeps_ite (keeps_setCsiRx hs) (keeps_setCsiRx hs)) (keeps_setCsiRx hs))

theorem outKeeps_execCsiEnable {r : Fin 4} {v : BitVec 32} (hs : Keeps σ s) : OutKeeps σ (execCsiEnable r v s) := by
  unfold execCsiEnable
  exact outKeeps_next (keeps_csiCfgSet hs)

theorem keeps_scfgSet {r k : Nat} {w : Word} (hs : Keeps σ s) : Keeps σ (scfgSet s r k w) := by
  unfold scfgSet
  extract_lets v x _ g
  exact keeps_ite hs (keeps_ite (keeps_ite (keeps_setCsiRx hs) (keeps_setCsiRx hs)) (keeps_setCsiRx hs))

theorem outKeeps_execCsiCounterRead {r : Fin 4} {k : CsiCounter} (hs : Keeps σ s) :
    OutKeeps σ (execCsiCounterRead r k s) := by
  unfold execCsiCounterRead
  exact outKeeps_next (keeps_ite (keeps_setCsiRx (keeps_outRead hs)) hs)

end Sys2Proof.Machine
end

section
/-! What every command keeps: Towers and the intake of Plinths. -/

namespace Sys2Proof.Machine

variable {σ s : State}

theorem keeps_mulReads {d n : Nat} {c : MulCmd} (hs : Keeps σ s) : Keeps σ (mulReads s d n c).2 := by
  unfold mulReads
  exact keeps_rdPieces hs

theorem keeps_towerWaits {d n : Nat} (hs : Keeps σ s) : Keeps σ (towerWaits s d n) := by
  unfold towerWaits
  exact keeps_setTower (keeps_withFree hs)

theorem keeps_mulRun {d : Fin 4} {n : Fin 8} {c : MulCmd} (hs : Keeps σ s) : Keeps σ (mulRun s d n c) := by
  unfold mulRun
  split
  · exact keeps_towerWaits hs
  · extract_lets r s1 p p1 ps t s2
    have hs1 : Keeps σ s1 := keeps_mulReads hs
    have hs2 : Keeps σ s2 := keeps_setPlinth hs1
    exact keeps_ite (keeps_finishCmd (keeps_plFlags hs2)) (keeps_mulReads hs)

theorem outKeeps_execTowerMul {d : Fin 4} {n : Fin 8} (hs : Keeps σ s) : OutKeeps σ (execTowerMul d n s) := by
  unfold execTowerMul
  refine outKeeps_next ?_
  split
  · exact hs
  · extract_lets st
    split
    · exact keeps_ite (keeps_mulRun hs) (keeps_finishCmd hs)
    · exact keeps_finishCmd hs

theorem outKeeps_execPlinthPairIntake {d : Fin 4} {n : Fin 8} {fromTower : Bool} (hs : Keeps σ s) :
    OutKeeps σ (execPlinthPairIntake d n fromTower s) := by
  unfold execPlinthPairIntake
  refine outKeeps_next ?_
  split
  · exact (optKeeps_takePort hs) _ ‹_›
  · exact keeps_ite (keeps_towerWaits hs) hs

theorem outKeeps_execTwrWaitRead {d : Fin 4} {n : Fin 8} (hs : Keeps σ s) : OutKeeps σ (execTwrWaitRead d n s) := by
  unfold execTwrWaitRead
  exact outKeeps_next (keeps_ite (keeps_setTower (keeps_outRead hs)) hs)

end Sys2Proof.Machine
end

section
/-! What every command keeps: Domes and their banks. -/

namespace Sys2Proof.Machine

variable {σ s : State} {die : Nat}

theorem keeps_putBank {d n : Nat} {b : Bool} {k : Bank} (hs : Keeps σ s) : Keeps σ (putBank s d n b k) := by
  unfold putBank
  exact keeps_setDome hs

theorem keeps_domRun {d : Fin 4} {n : Fin 256} {opc : Nat} {f : UnitCmd → State} (hs : Keeps σ s) (hf : ∀ u, Keeps σ (f u)) :
    Keeps σ (domRun s d n opc f) := by
  unfold domRun
  split
  · exact hs
  · exact keeps_ite hs (keeps_ite (hf _) (keeps_ite (keeps_finishCmd hs) hs))

theorem keeps_domDone {d : Fin 4} {n : Fin 256} {st : Nat} (hs : Keeps σ s) : Keeps σ (domDone s d n st) := by
  unfold domDone
  exact keeps_finishCmd hs

theorem keeps_passReads {d n : Nat} {p : PassCmd} (hs : Keeps σ s) : Keeps σ (passReads s d n p).2 := by
  unfold passReads
  exact keeps_rdPieces hs

theorem keeps_passRun {d : Fin 4} {n : Fin 256} {bk : Bool} {p : PassCmd} (hs : Keeps σ s) :
    Keeps σ (passRun s d n bk p) := by
  unfold passRun
  extract_lets r h ps t q s1
  have hs1 : Keeps σ s1 := keeps_setPlinth (keeps_passReads hs)
  exact keeps_ite (keeps_finishCmd (keeps_plFlags hs1)) (keeps_passReads hs)

theorem outKeeps_execPass {d : Fin 4} {n : Fin 256} (hs : Keeps σ s) : OutKeeps σ (execPass d n s) := by
  unfold execPass
  refine outKeeps_next ?_
  refine keeps_domRun hs ?_
  intro u1
  split
  · split
    · exact keeps_passRun hs
    · exact keeps_domDone hs
  · exact keeps_domDone hs

theorem outKeeps_execProgram {d : Fin 4} {n : Fin 256} (hs : Keeps σ s) : OutKeeps σ (execProgram d n s) := by
  unfold execProgram
  refine outKeeps_next ?_
  refine keeps_domRun hs ?_
  intro u1
  extract_lets b k src dig s1 s2
  have hs1 : Keeps σ s1 := keeps_setUnitCmd hs
  have hs2 : Keeps σ s2 := keeps_putBank hs1
  exact keeps_ite (keeps_domDone hs) (keeps_ite (keeps_domDone hs)
    (keeps_ite (keeps_domDone hs) (keeps_withTokenWait hs2)))

theorem keeps_wearWarn {d n : Nat} {b : Bool} {cnt : Nat} (hs : Keeps σ s) : Keeps σ (wearWarn s d n b cnt) := by
  unfold wearWarn
  extract_lets src
  exact keeps_ite (keeps_warn hs) (keeps_ite (keeps_warn hs) hs)

theorem tokenHeld_putBank {d n : Nat} {b : Bool} {k : Bank} : (putBank s d n b k).tokenHeld = s.tokenHeld := by
  unfold putBank setDome setCd
  split
  · exact putCd_tokenHeld ..
  · exact putCd_tokenHeld ..

theorem keeps_grantBank {t : Nat × Nat × Bool} (hs : Keeps σ s) (room : s.tokenHeld.length < 32) :
    Keeps σ (grantBank s t) := by
  unfold grantBank
  extract_lets k s1
  have hs1 : Keeps σ s1 := keeps_putBank hs
  have held : s1.tokenHeld = s.tokenHeld := tokenHeld_putBank
  refine keeps_wearWarn (keeps_withTokenHeld hs1 fun _ => ?_)
  rw [held, List.length_append]
  exact room

theorem outKeeps_execProgramTokenGrant (hs : Keeps σ s) : OutKeeps σ (execProgramTokenGrant s) := by
  unfold execProgramTokenGrant
  apply outKeeps_next
  split
  · exact hs
  · split
    · rename_i grant
      exact keeps_grantBank hs grant.1
    · exact hs

theorem keeps_jobData {d n : Nat} {j : PgmJob} (hs : Keeps σ s) : Keeps σ (jobData s d n j).2 := by
  unfold jobData
  split
  · split
    · split <;> exact keeps_of_snd_eq ‹_› (keeps_rdVault hs)
    · exact hs
  · split
    · exact keeps_of_snd_eq ‹_› (keeps_rdVault hs)
    · split <;> exact keeps_of_snd_eq ‹_› (keeps_rdVault (keeps_of_snd_eq ‹_› (keeps_rdVault hs)))

theorem keeps_freeToken {d n : Nat} {b : Bool} (hs : Keeps σ s) : Keeps σ (freeToken s d n b) := by
  unfold freeToken
  exact keeps_withTokenHeld hs (List.length_filter_le _ _).trans

theorem keeps_putDomeMem {d a : Nat} {bs : List Byte} (hs : Keeps σ s) :
    Keeps σ (setCd s d { cd s d with domeMem := memPut 0 (cd s d).domeMem a bs }) :=
  keeps_setCd hs (dieKeeps_mems (dieKeeps_cd hs d) id (memWf_memPut 0 a bs) id id)

theorem keeps_programDone {d : Fin 4} {n : Fin 256} {b : Bool} {j : PgmJob} {bs dg : List Byte} {good : Bool} (hs : Keeps σ s) :
    Keeps σ (programDone s d n b j bs dg good) := by
  unfold programDone
  extract_lets _ _ _ s1 _ s2
  have hs1 : Keeps σ s1 := keeps_ite (keeps_putDomeMem hs) hs
  have hs2 : Keeps σ s2 := keeps_freeToken (keeps_putBank hs1)
  clear_value s2
  exact keeps_ite (keeps_ite (keeps_withBoot hs2) hs2) (keeps_addDone hs2)

theorem outKeeps_execProgramEnd {d : Fin 4} {n : Fin 256} {bank cellsGood : Bool} (hs : Keeps σ s) :
    OutKeeps σ (execProgramEnd d n bank cellsGood s) := by
  unfold execProgramEnd
  refine outKeeps_next ?_
  split
  · exact hs
  · split
    · split
      · exact keeps_of_snd_eq ‹_› (keeps_jobData hs)
      · exact keeps_programDone (keeps_of_snd_eq ‹_› (keeps_jobData hs))
    · exact hs

theorem keeps_verifyStart {d : Fin 4} {n : Fin 256} {u : UnitCmd} (hs : Keeps σ s) :
    Keeps σ (verifyStart s d n u) := by
  unfold verifyStart
  extract_lets k
  exact keeps_ite (keeps_setDome hs) (keeps_ite (keeps_domDone (keeps_setDome hs)) (keeps_setDome hs))

theorem outKeeps_execVerify {d : Fin 4} {n : Fin 256} (hs : Keeps σ s) : OutKeeps σ (execVerify d n s) := by
  unfold execVerify
  exact outKeeps_next (keeps_domRun hs (fun u1 => keeps_ite (keeps_verifyStart hs) (keeps_domDone hs)))

theorem outKeeps_execVerifyEnd {d : Fin 4} {n : Fin 256} {tightOk : Bool} (hs : Keeps σ s) :
    OutKeeps σ (execVerifyEnd d n tightOk s) := by
  unfold execVerifyEnd
  refine outKeeps_next ?_
  split
  · exact hs
  · split
    · extract_lets b
      split
      · exact keeps_of_snd_eq ‹_› (keeps_rdVault hs)
      · extract_lets r t1
        have ht1 : Keeps σ t1 := keeps_putBank (keeps_of_snd_eq ‹_› (keeps_rdVault hs))
        exact keeps_domDone (keeps_setDome ht1)
    · exact hs

theorem memWf_foldl_memWrite {cs : List (Nat × Byte)} {m : Mem} (h : memWf 0 m = true) :
    memWf 0 (cs.foldl (fun q c => memWrite 0 q c.1 c.2) m) = true := by
  induction cs generalizing m with
  | nil => exact h
  | cons c cs ih => exact ih (memWf_memWrite 0 c.1 c.2 h)

theorem memWf_decayCells {free n : Nat} {m : Mem} {v : Dome} (h : memWf 0 m = true) :
    memWf 0 (decayCells free m n v) = true := by
  unfold decayCells
  extract_lets gone
  split
  · exact memWf_foldl_memWrite (memWf_filter 0 _ h)
  · exact h

theorem memWf_foldl_decayCells {free : Nat} {ds : Tab Dome} {m : Mem} (h : memWf 0 m = true) :
    memWf 0 (ds.foldl (fun q e => decayCells (free + e.1) q e.1 e.2) m) = true := by
  induction ds generalizing m with
  | nil => exact h
  | cons e ds ih => exact ih (memWf_decayCells h)

theorem dieKeeps_dieAge {free w : Nat} {c : CDie} (hc : DieKeeps σ die c) : DieKeeps σ die (dieAge free w c) :=
  dieKeeps_mems hc id memWf_foldl_decayCells id id

theorem keeps_agePackage {xs : List (BitVec 12)} (hs : Keeps σ s) : Keeps σ (agePackage s xs) := by
  unfold agePackage
  extract_lets w
  exact keeps_foldl (keeps_withFree hs) (fun t1 a1 h => keeps_setCd h (dieKeeps_dieAge (dieKeeps_cd h _)))

theorem keeps_swapStart {d : Fin 4} {n : Fin 256} {u : UnitCmd} (hs : Keeps σ s) : Keeps σ (swapStart s d n u) := by
  unfold swapStart
  extract_lets v
  split
  · exact keeps_setDome hs
  · exact keeps_domDone (keeps_setDome hs)
  · extract_lets _ v1
    exact keeps_domDone (keeps_setDome hs)

theorem outKeeps_execSwap {d : Fin 4} {n : Fin 256} (hs : Keeps σ s) : OutKeeps σ (execSwap d n s) := by
  unfold execSwap
  exact outKeeps_next (keeps_domRun hs (fun u1 => keeps_ite (keeps_swapStart hs) (keeps_domDone hs)))

theorem outKeeps_execDomeDeferredResume {d : Fin 4} {n : Fin 256} (hs : Keeps σ s) :
    OutKeeps σ (execDomeDeferredResume d n s) := by
  unfold execDomeDeferredResume
  refine outKeeps_next ?_
  split
  · exact hs
  · exact keeps_ite (keeps_ite (keeps_swapStart hs) (keeps_verifyStart hs)) hs

end Sys2Proof.Machine
end

section
/-! What every command keeps: the host's requests. -/

namespace Sys2Proof.Machine

variable {σ s : State}

theorem keeps_intake {ep : HostEp} {bs : List Byte} (hs : Keeps σ s) : Keeps σ (intake s ep bs) := by
  unfold intake
  extract_lets f
  exact keeps_ite (keeps_withHost hs rfl) (keeps_ite (keeps_withHost hs rfl) (keeps_reply hs))

theorem keeps_pauseCheck {m : Nat} (hs : Keeps σ s) : Keeps σ (pauseCheck s m) := by
  unfold pauseCheck
  extract_lets v room
  exact keeps_ite (keeps_output (keeps_setMac hs)) (keeps_ite (keeps_output (keeps_setMac hs)) hs)

theorem keeps_countDup (hs : Keeps σ s) : Keeps σ (countDup s) := by
  unfold countDup
  exact keeps_withHost hs rfl

theorem keeps_replyCached {ep : HostEp} {n : Nat} {c : Frame × Byte × List Byte} (hs : Keeps σ s) :
    Keeps σ (replyCached s ep n c) := by
  unfold replyCached
  exact keeps_macFlush (keeps_sendTo hs)

theorem keeps_timeoutReq {e : InFrame} (hs : Keeps σ s) : Keeps σ (timeoutReq s e) := by
  unfold timeoutReq
  extract_lets n v _ cache
  exact keeps_reply (keeps_setSession hs)

theorem keeps_takeRequest {e : InFrame} {act : State → State} (hs : Keeps σ s) (hact : ∀ t, Keeps σ t → Keeps σ (act t)) :
    Keeps σ (takeRequest s e act) := by
  unfold takeRequest
  extract_lets ep f n v
  split
  · exact keeps_reply hs
  · split
    · exact keeps_reply hs
    · split
      · exact keeps_reply hs
      · split
        · exact keeps_countDup (keeps_setSession hs)
        · split
          · exact keeps_replyCached (keeps_countDup hs)
          · exact keeps_ite (keeps_reply (keeps_withHost hs rfl))
              (keeps_ite (keeps_timeoutReq hs) (hact _ (keeps_setSession hs)))

theorem keeps_hostRow {kind : Nat} {act : State → InFrame → State} (hs : Keeps σ s)
    (hact : ∀ t e, Keeps σ t → Keeps σ (act t e)) : Keeps σ (hostRow s kind act) := by
  unfold hostRow
  split
  · split
    · exact hs
    · extract_lets _ s1
      have hs1 : Keeps σ s1 := hact _ _ (keeps_withHost hs rfl)
      exact keeps_pauseCheck (keeps_pauseCheck hs1)
  · exact hs

theorem keeps_hostDone {n : Nat} {reqid : Word} {r : Reply} (hr : Keeps σ r.2) : Keeps σ (hostDone n reqid r) := by
  unfold hostDone
  split
  · exact keeps_hostComplete hr
  · exact hr

theorem keeps_openReq {e : InFrame} (hs : Keeps σ s) : Keeps σ (openReq s e) := by
  unfold openReq
  extract_lets ep f n v _ s1
  have hs1 : Keeps σ s1 := keeps_setSession hs
  exact keeps_ite (keeps_reply hs) (keeps_ite (keeps_reply hs) (keeps_ite (keeps_reply hs)
    (keeps_settleHost (keeps_reply (keeps_rewindHost hs1)))))

theorem keeps_cancelReq {op : State → Origin → State} {n : Nat} {o : HostReq} (hs : Keeps σ s)
    (hop : ∀ t who, Keeps σ t → Keeps σ (op t who)) : Keeps σ (cancelReq op s n o) := by
  unfold cancelReq
  exact keeps_ite (keeps_hostComplete hs) (keeps_ite (keeps_ite hs (keeps_ite (hop _ _ hs) (keeps_wuEnd hs)))
    (hop _ _ hs))

theorem keeps_closeReqs {n : Nat} {l : List HostReq} (hs : Keeps σ s) : Keeps σ (closeReqs s n l) := by
  induction l generalizing s with
  | nil => exact hs
  | cons x l ih =>
    unfold closeReqs
    exact ih (keeps_ite (keeps_cancelReq hs (fun t1 who1 h => keeps_recallOp h)) hs)

theorem keeps_startClose {n : Nat} {c : Option Frame} (hs : Keeps σ s) : Keeps σ (startClose s n c) := by
  unfold startClose
  extract_lets v s1
  have hs1 : Keeps σ s1 := keeps_setSession hs
  exact keeps_closeIfDone (keeps_closeReqs hs1)

theorem keeps_closeReq {e : InFrame} (hs : Keeps σ s) : Keeps σ (closeReq s e) := by
  unfold closeReq
  extract_lets ep f n v
  exact keeps_ite (keeps_reply hs) (keeps_ite (keeps_reply hs) (keeps_settleHost
    (keeps_startClose (keeps_setSession hs))))

theorem keeps_sessionRow {e : InFrame} {act : State → InFrame → State} (hs : Keeps σ s)
    (hact : ∀ t e, Keeps σ t → Keeps σ (act t e)) : Keeps σ (sessionRow s e act) := by
  unfold sessionRow
  exact keeps_ite (keeps_reply hs) (keeps_ite (keeps_reply hs) (hact _ _ hs))

theorem outKeeps_execOpenSession (hs : Keeps σ s) : OutKeeps σ (execOpenSession s) := by
  unfold execOpenSession
  exact outKeeps_next (keeps_hostRow hs (fun t1 e1 h => keeps_sessionRow h (fun t2 e2 h1 => keeps_openReq h1)))

theorem outKeeps_execCloseSession (hs : Keeps σ s) : OutKeeps σ (execCloseSession s) := by
  unfold execCloseSession
  exact outKeeps_next (keeps_hostRow hs (fun t1 e1 h => keeps_sessionRow h (fun t2 e2 h1 => keeps_closeReq h1)))

theorem outKeeps_execPing (hs : Keeps σ s) : OutKeeps σ (execPing s) := by
  unfold execPing
  exact outKeeps_next (keeps_hostRow hs (fun t1 e1 h => keeps_reply h))

theorem keeps_namedRow {kind : Nat} {at_ : State → Nat → Option Nat} {op : State → Frame → Nat → Reply} (hs : Keeps σ s)
    (hop : ∀ t f w, Keeps σ t → Keeps σ (op t f w).2) : Keeps σ (namedRow s kind at_ op) := by
  unfold namedRow
  refine keeps_hostRow hs fun t e ht => keeps_takeRequest ht fun u hu => keeps_hostDone ?_
  split
  · exact keeps_repSt hu
  · exact hop _ _ _ hu

theorem outKeeps_execHostBadd (hs : Keeps σ s) : OutKeeps σ (execHostBadd s) := by
  unfold execHostBadd
  exact outKeeps_next (keeps_namedRow hs (fun t1 f1 w1 h => keeps_sendBadd h))

theorem outKeeps_execHostBwait (hs : Keeps σ s) : OutKeeps σ (execHostBwait s) := by
  unfold execHostBwait
  exact outKeeps_next (keeps_namedRow hs (fun t1 f1 w1 h => keeps_sendBwait h))

theorem outKeeps_execHostQpush (hs : Keeps σ s) : OutKeeps σ (execHostQpush s) := by
  unfold execHostQpush
  exact outKeeps_next (keeps_namedRow hs (fun t1 f1 w1 h => keeps_sendQpush h))

theorem outKeeps_execHostQpop (hs : Keeps σ s) : OutKeeps σ (execHostQpop s) := by
  unfold execHostQpop
  exact outKeeps_next (keeps_namedRow hs (fun t1 f1 w1 h => keeps_sendQpop h))

theorem keeps_closeDeadline {n : Nat} {reqid : Word} (hs : Keeps σ s) : Keeps σ (closeDeadline s n reqid) := by
  unfold closeDeadline
  extract_lets v
  split
  · exact keeps_ite (keeps_settleHost (keeps_reply (keeps_setSession hs))) hs
  · exact hs

theorem keeps_inboxDeadline {n : Nat} {reqid : Word} (hs : Keeps σ s) : Keeps σ (inboxDeadline s n reqid) := by
  unfold inboxDeadline
  split
  · exact hs
  · extract_lets _ s0 s1
    have hs0 : Keeps σ s0 := keeps_withHost hs rfl
    have hs1 : Keeps σ s1 := keeps_ite (keeps_timeoutReq hs0) (keeps_reply hs0)
    exact keeps_pauseCheck (keeps_pauseCheck hs1)

theorem outKeeps_execHostDeadline {n : Fin 16} {reqid : BitVec 32} (hs : Keeps σ s) :
    OutKeeps σ (execHostDeadline n reqid s) := by
  unfold execHostDeadline
  extract_lets v s1
  have hs1 : Keeps σ s1 := keeps_setSession hs
  refine outKeeps_next ?_
  split
  · exact keeps_inboxDeadline (keeps_closeDeadline hs)
  · exact keeps_ite (keeps_ite (keeps_hostComplete (keeps_withHost hs1 rfl))
      (keeps_cancelReq hs1 (fun t1 who1 h => keeps_cancelOp h))) hs

end Sys2Proof.Machine
end

section
/-! What every command keeps: the PCIe endpoint. -/

namespace Sys2Proof.Machine

variable {σ s : State}

theorem keeps_consume {k : Nat} {n : Nat} {tail : Nat} (hs : Keeps σ s) : Keeps σ (consume k s n tail) := by
  induction k generalizing s n tail with
  | zero => exact hs
  | succ k ih =>
    unfold consume
    extract_lets v head stop bs f next s1
    have hs1 : Keeps σ s1 := keeps_setSession hs
    exact keeps_ite hs (keeps_ite (ih (keeps_setSession hs)) (ih (keeps_intake hs1)))

theorem keeps_sqTailSet {n : Nat} {v : Word} (hs : Keeps σ s) : Keeps σ (sqTailSet s n v) := by
  unfold sqTailSet
  split
  · exact hs
  · split
    · exact keeps_withHost hs rfl
    · extract_lets t
      exact keeps_consume (keeps_setSession hs)

/-- The host's rings, canonical where the old ones are. -/
theorem withRings_kept {x : HostIf} (hs : Keeps σ s) (h : memWf 0 s.host.rings = true → memWf 0 x.rings = true) :
    Keeps σ { s with host := x } := by
  obtain ⟨h0, h1, h2, h3, hm, rest⟩ := hs
  exact ⟨h0, h1, h2, h3, fun hσ => ⟨(hm hσ).1, (hm hσ).2.1, h (hm hσ).2.2⟩, rest⟩

theorem outKeeps_execPciSqTailWrite {n : Fin 16} {tail : BitVec 32} {wrote : List (Nat × BitVec 8)} (hs : Keeps σ s) :
    OutKeeps σ (execPciSqTailWrite n tail wrote s) := by
  unfold execPciSqTailWrite
  exact outKeeps_next (keeps_ite (keeps_sqTailSet (withRings_kept hs (memWf_ringWrite _ _ _))) hs)

theorem keeps_msixSession {n : Nat} (hs : Keeps σ s) : Keeps σ (msixSession s n) := by
  unfold msixSession
  extract_lets v
  exact keeps_ite hs (keeps_ite (keeps_setSession hs) (keeps_msixSend (keeps_setSession hs)))

theorem outKeeps_execMsixImodExpiry {n : Fin 16} (hs : Keeps σ s) : OutKeeps σ (execMsixImodExpiry n s) := by
  unfold execMsixImodExpiry
  extract_lets v
  exact outKeeps_next (keeps_ite (keeps_ite (keeps_msixSend (keeps_setSession hs)) (keeps_setSession hs)) hs)

theorem keeps_msixSwSet {v : Word} (hs : Keeps σ s) : Keeps σ (msixSwSet s v) := by
  unfold msixSwSet
  extract_lets k
  exact keeps_ite (keeps_msixSend hs) hs

theorem outKeeps_execPciMsixSwWrite {v : BitVec 32} (hs : Keeps σ s) : OutKeeps σ (execPciMsixSwWrite v s) := by
  unfold execPciMsixSwWrite
  exact outKeeps_next (keeps_msixSwSet hs)

theorem optKeeps_cqPlace {n : Nat} {f : Frame} (hs : Keeps σ s) : OptKeeps σ (cqPlace s n f) := by
  unfold cqPlace
  extract_lets v u k tail wrap need at_ s1 s2 t _ s3
  have hs1 : Keeps σ s1 := keeps_ite (keeps_output hs) hs
  have hs2 : Keeps σ s2 := keeps_output hs1
  have hs3 : Keeps σ s3 := keeps_setSession hs2
  exact optKeeps_ite optKeeps_none (optKeeps_some (keeps_output hs3))

theorem outKeeps_execCqFrameWrite {n : Fin 16} (hs : Keeps σ s) : OutKeeps σ (execCqFrameWrite n s) := by
  unfold execCqFrameWrite
  refine outKeeps_next ?_
  split
  · split
    · exact hs
    · extract_lets _ s1
      have hs1 : Keeps σ s1 := keeps_setSession hs
      split
      · exact hs
      · exact keeps_settleHost (keeps_msixSession ((optKeeps_cqPlace hs1) _ ‹_›))
  · exact hs

theorem keeps_cqHeadSet {n : Nat} {v : Word} (hs : Keeps σ s) : Keeps σ (cqHeadSet s n v) := by
  unfold cqHeadSet
  exact keeps_ite (keeps_setSession hs) hs

theorem outKeeps_execPciCqHeadWrite {n : Fin 16} {v : BitVec 32} (hs : Keeps σ s) :
    OutKeeps σ (execPciCqHeadWrite n v s) := by
  unfold execPciCqHeadWrite
  exact outKeeps_next (keeps_ite (keeps_cqHeadSet hs) hs)

theorem outKeeps_execHeartbeat (hs : Keeps σ s) : OutKeeps σ (execHeartbeat s) := by
  unfold execHeartbeat
  refine outKeeps_next ?_
  split
  · extract_lets s1
    have hs1 : Keeps σ s1 := keeps_sendAll hs
    exact keeps_macFlush (keeps_withHost hs1 rfl)
  · exact hs

theorem outKeeps_execEventQueuePop (hs : Keeps σ s) : OutKeeps σ (execEventQueuePop s) := by
  unfold execEventQueuePop
  extract_lets w d
  exact outKeeps_next (keeps_ite (keeps_getD (optKeeps_sendAsk hs) hs) hs)

theorem keeps_closeQuiet {p : Session → Bool} {l : List Nat} (hs : Keeps σ s) : Keeps σ (closeQuiet s p l) := by
  induction l generalizing s with
  | nil => exact hs
  | cons x l ih =>
    unfold closeQuiet
    exact ih (keeps_ite (keeps_startClose hs) hs)

theorem keeps_pcieReset (hs : Keeps σ s) : Keeps σ (pcieReset s) := by
  unfold pcieReset
  extract_lets _ _ s1
  have hs1 : Keeps σ s1 := keeps_withHost hs rfl
  exact keeps_settleHost (keeps_rewindHost (keeps_closeQuiet hs1))

theorem keeps_perstLow (hs : Keeps σ s) : Keeps σ (perstLow s) := by
  unfold perstLow
  extract_lets s1
  have hs1 : Keeps σ s1 := keeps_pcieReset hs
  clear_value s1
  exact keeps_withHost hs1 rfl

theorem outKeeps_execPciePerst (hs : Keeps σ s) : OutKeeps σ (execPciePerst s) := by
  unfold execPciePerst
  exact outKeeps_next (keeps_ite hs (keeps_filtered hs (fun t1 h => keeps_perstLow h)))

theorem outKeeps_execFunctionLevelReset (hs : Keeps σ s) : OutKeeps σ (execFunctionLevelReset s) := by
  unfold execFunctionLevelReset
  exact outKeeps_next (keeps_ite hs (keeps_pcieReset hs))

theorem outKeeps_execPciePerstRelease (hs : Keeps σ s) : OutKeeps σ (execPciePerstRelease s) := by
  unfold execPciePerstRelease
  exact outKeeps_next (keeps_withHost hs rfl)

theorem keeps_pciCountClear {k : PciCounter} (hs : Keeps σ s) : Keeps σ (pciCountClear s k) := by
  unfold pciCountClear
  split <;> exact keeps_withHost hs rfl

theorem outKeeps_execPciCounterRead {k : PciCounter} (hs : Keeps σ s) : OutKeeps σ (execPciCounterRead k s) := by
  unfold execPciCounterRead
  exact outKeeps_next (keeps_ite (keeps_pciCountClear (keeps_outRead hs)) hs)

end Sys2Proof.Machine
end

section
/-! What every command keeps: the MACs. -/

namespace Sys2Proof.Machine

variable {σ s : State}

theorem keeps_ethOverrun {m : Nat} (hs : Keeps σ s) : Keeps σ (ethOverrun s m) := by
  unfold ethOverrun
  extract_lets _ v due
  exact keeps_ite (keeps_warn (keeps_setMac hs)) (keeps_setMac hs)

theorem outKeeps_execEthFrameReceive {m : Fin 2} {f : EthFrame} (hs : Keeps σ s) :
    OutKeeps σ (execEthFrameReceive m f s) := by
  unfold execEthFrameReceive
  extract_lets v
  exact outKeeps_next (keeps_ite (keeps_ite (keeps_ethOverrun hs)
    (keeps_ite (keeps_setMac hs) (keeps_ite (keeps_setMac hs) (keeps_pauseCheck (keeps_intake (keeps_setMac hs))))))
    hs)

theorem outKeeps_execEthPauseReceive {m : Fin 2} {quanta : BitVec 16} (hs : Keeps σ s) :
    OutKeeps σ (execEthPauseReceive m quanta s) := by
  unfold execEthPauseReceive
  exact outKeeps_next (keeps_ite (keeps_settleHost (keeps_setMac hs)) hs)

theorem outKeeps_execPauseTimerExpiry {m : Fin 2} (hs : Keeps σ s) : OutKeeps σ (execPauseTimerExpiry m s) := by
  unfold execPauseTimerExpiry
  exact outKeeps_next (keeps_settleHost (keeps_setMac hs))

theorem outKeeps_execEthLinkChange {m : Fin 2} {up : Bool} {speed : BitVec 3} (hs : Keeps σ s) :
    OutKeeps σ (execEthLinkChange m up speed s) := by
  unfold execEthLinkChange
  exact outKeeps_next (keeps_ite (keeps_settleHost (keeps_setMac hs)) hs)

theorem outKeeps_execEthLinkDownTimeout {m : Fin 2} (hs : Keeps σ s) : OutKeeps σ (execEthLinkDownTimeout m s) := by
  unfold execEthLinkDownTimeout
  extract_lets v gone s1
  have hs1 : Keeps σ s1 := keeps_setMac hs
  exact outKeeps_next (keeps_ite (keeps_settleHost (keeps_rewindHost (keeps_closeQuiet hs1))) hs)

theorem keeps_ethCfgSet {m : Nat} {x : Word} (hs : Keeps σ s) : Keeps σ (ethCfgSet s m x) := by
  unfold ethCfgSet
  extract_lets v c
  exact keeps_ite hs (keeps_ite (keeps_ite (keeps_setMac hs) (keeps_setMac hs)) (keeps_setMac hs))

theorem outKeeps_execEthEnable {m : Fin 2} {v : BitVec 32} (hs : Keeps σ s) : OutKeeps σ (execEthEnable m v s) := by
  unfold execEthEnable
  exact outKeeps_next (keeps_ethCfgSet hs)

theorem keeps_mdioSet {m : Nat} {x : Word} (hs : Keeps σ s) : Keeps σ (mdioSet s m x) := by
  unfold mdioSet
  extract_lets v s1
  have hs1 : Keeps σ s1 := keeps_setMac hs
  exact keeps_ite hs (keeps_ite (keeps_setMac hs) (keeps_ite (keeps_output hs1) hs1))

theorem outKeeps_execMdioFrame {m : Fin 2} {v : BitVec 32} (hs : Keeps σ s) : OutKeeps σ (execMdioFrame m v s) := by
  unfold execMdioFrame
  exact outKeeps_next (keeps_mdioSet hs)

theorem outKeeps_execMdioFrameEnd {m : Fin 2} {data : BitVec 16} (hs : Keeps σ s) :
    OutKeeps σ (execMdioFrameEnd m data s) := by
  unfold execMdioFrameEnd
  extract_lets v w
  exact outKeeps_next (keeps_ite (keeps_setMac hs) hs)

theorem outKeeps_execEthCounterRead {m : Fin 2} {k : EthCounter} (hs : Keeps σ s) :
    OutKeeps σ (execEthCounterRead m k s) := by
  unfold execEthCounterRead
  exact outKeeps_next (keeps_ite (keeps_setMac (keeps_outRead hs)) hs)

end Sys2Proof.Machine
end

section
/-! What every command keeps: the fabric. -/

namespace Sys2Proof.Machine

variable {σ s : State}

theorem keeps_setShadow {k : Nat} {v : Word} (hs : Keeps σ s) : Keeps σ (setShadow s k v) := by
  unfold setShadow
  exact keeps_withShadows hs

theorem keeps_tbLoRead {a : Requester} {d : Nat} (hs : Keeps σ s) : Keeps σ (tbLoRead s a d).2 := by
  unfold tbLoRead
  extract_lets lo hi
  exact keeps_setShadow (keeps_dieSays (keeps_dieSays hs))

theorem keeps_tofsLoRead {a : Requester} (hs : Keeps σ s) : Keeps σ (tofsLoRead s a).2 := by
  unfold tofsLoRead
  exact keeps_setShadow hs

theorem keeps_outOf {r : Word × State} (hr : Keeps σ r.2) : Keeps σ (outOf r) := by
  unfold outOf
  exact keeps_outRead hr

theorem outKeeps_execSysTbLoRead {a : Requester} {d : Fin 5} (hs : Keeps σ s) :
    OutKeeps σ (execSysTbLoRead a d s) := by
  unfold execSysTbLoRead
  exact outKeeps_next (keeps_ite (keeps_outOf (keeps_tbLoRead hs)) hs)

theorem outKeeps_execNldTofsLoRead {a : Requester} (hs : Keeps σ s) : OutKeeps σ (execNldTofsLoRead a s) := by
  unfold execNldTofsLoRead
  exact outKeeps_next (keeps_ite (keeps_outOf (keeps_tofsLoRead hs)) hs)

theorem outKeeps_execPciTbLoRead (hs : Keeps σ s) : OutKeeps σ (execPciTbLoRead s) := by
  unfold execPciTbLoRead
  exact outKeeps_next (keeps_ite (keeps_outRead (keeps_withHost hs rfl)) hs)

theorem outKeeps_execStallLong {d : Fin 5} {port : BitVec 16} (hs : Keeps σ s) :
    OutKeeps σ (execStallLong d port s) := by
  unfold execStallLong
  extract_lets v s1
  have hs1 : Keeps σ s1 := keeps_setSysDie hs
  exact outKeeps_next (keeps_ite (keeps_warn hs1) hs)

theorem outKeeps_execStallEpisodeEnd {d : Fin 5} {port : BitVec 16} (hs : Keeps σ s) :
    OutKeeps σ (execStallEpisodeEnd d port s) := by
  unfold execStallEpisodeEnd
  extract_lets v
  exact outKeeps_next (keeps_setSysDie hs)

theorem outKeeps_execSysStallCntRead {d : Fin 5} (hs : Keeps σ s) : OutKeeps σ (execSysStallCntRead d s) := by
  unfold execSysStallCntRead
  extract_lets v
  exact outKeeps_next (keeps_ite (keeps_setSysDie (keeps_outRead hs)) hs)

end Sys2Proof.Machine
end

section
/-! What every command keeps: supplies, reset and clock. -/

namespace Sys2Proof.Machine

variable {σ s : State} {die : Nat}

/-! ### What holds across a reset

A reset gives a die back whose contents were unspecified, so a state after it does not keep the dies of the one before as `Keeps` says;
the invariants themselves it does keep. -/

theorem Holds.refl (s : State) : Holds s s := ⟨id, id, id, id, id⟩

theorem Holds.step {t : State} (hs : Holds σ s) (h : Keeps s t) : Holds σ t := by
  obtain ⟨mem, que, log, win, tok⟩ := hs
  obtain ⟨mem', que', log', win', tok'⟩ := h.holds
  exact ⟨mem' ∘ mem, que' ∘ que, log' ∘ log, win' ∘ win, tok' ∘ tok⟩

/-- The state of an answer, where there is one, meets the invariants that σ met. -/
def OptHolds (σ : State) (o : Option State) : Prop := ∀ t, o = some t → Holds σ t

/-- The next state that a command answers, where it answers one, meets the invariants that σ met. -/
def OutHolds (σ : State) (o : Host.Outcome State Fault Refusal) : Prop := ∀ t, o = .next t → Holds σ t

theorem Holds.stepOpt {o : Option State} (hs : Holds σ s) (h : OptKeeps s o) : OptHolds σ o := fun t ht => hs.step (h t ht)

theorem Holds.stepOut {o : Host.Outcome State Fault Refusal} (hs : Holds σ s) (h : OutKeeps s o) : OutHolds σ o :=
  fun t ht => hs.step (h t ht)

theorem optHolds_none : OptHolds σ none := fun _ h => nomatch h

theorem optHolds_some (hs : Holds σ s) : OptHolds σ (some s) := fun _ h => Option.some.inj h ▸ hs

theorem outHolds_next (hs : Holds σ s) : OutHolds σ (.next s) := fun _ h => Host.Outcome.next.inj h ▸ hs

theorem holds_ite {p : Prop} [Decidable p] {s t : State} (hs : Holds σ s) (ht : Holds σ t) : Holds σ (if p then s else t) := by
  split
  · exact hs
  · exact ht

theorem optHolds_ite {p : Prop} [Decidable p] {o q : Option State} (ho : OptHolds σ o) (hq : OptHolds σ q) :
    OptHolds σ (if p then o else q) := by
  split
  · exact ho
  · exact hq

theorem holds_snd_ite {α : Type} {p : Prop} [Decidable p] {a b : α × State} (ha : Holds σ a.2) (hb : Holds σ b.2) :
    Holds σ (if p then a else b).2 := by
  split
  · exact ha
  · exact hb

theorem holds_of_snd_eq {α : Type} {x : α × State} {a : α} (h : x = (a, s)) (hx : Holds σ x.2) : Holds σ s := by
  rw [h] at hx
  exact hx

theorem holds_getD {o : Option State} (ho : OptHolds σ o) (hs : Holds σ s) : Holds σ (o.getD s) := by
  cases o with
  | none => exact hs
  | some t => exact ho t rfl

/-- A die in RESET has empty queues and Spires in their first state, and of its memories the Dome cells alone. -/
theorem dieReset_fits {c : CDie} : (c.memOk = true → (dieReset c).memOk = true) ∧ (dieReset c).queuesOk = true ∧
    (dieReset c).windowsOk = true :=
  ⟨fun h => cDie_memOk_iff.2 ⟨rfl, (cDie_memOk_iff.1 h).2.1, rfl, rfl⟩, rfl, rfl⟩

theorem cd_enterReset {power : Bool} {cause : BitVec 14} (d : Nat) :
    cd (enterReset s power cause) d = dieReset (cd (dropUpdate s) d) := by
  match d with
  | 0 => rfl
  | 1 => rfl
  | 2 => rfl
  | _ + 3 => rfl

theorem logOk_enterReset {power : Bool} {cause : BitVec 14} (h : (dropUpdate s).logOk = true) :
    (enterReset s power cause).logOk = true := by
  cases power
  · exact h
  · simp [State.logOk, logCount, enterReset]

theorem holds_enterReset {power : Bool} {cause : BitVec 14} (hs : Holds σ s) : Holds σ (enterReset s power cause) := by
  obtain ⟨mem, -, log, -, -⟩ := hs.step (keeps_dropUpdate (.refl s))
  refine ⟨fun hσ => ?_, fun _ => queuesOk_iff.2 fun d => ?_, fun hσ => logOk_enterReset (log hσ),
    fun _ => windowsOk_iff.2 fun d => ?_, fun _ => rfl⟩
  · obtain ⟨dies, -, flash, -⟩ := memOk_iff.1 (mem hσ)
    refine memOk_iff.2 ⟨fun d => ?_, rfl, flash, rfl⟩
    rw [cd_enterReset]
    exact dieReset_fits.1 (dies d)
  · rw [cd_enterReset]
    exact dieReset_fits.2.1
  · rw [cd_enterReset]
    exact dieReset_fits.2.2

theorem outHolds_execPowerUp (hs : Holds σ s) : OutHolds σ (execPowerUp s) := by
  unfold execPowerUp
  apply outHolds_next
  split
  · exact hs
  · exact (holds_enterReset hs).step (keeps_withPower (.refl _))

theorem outKeeps_execPowerGood {test : BitVec 4} (hs : Keeps σ s) : OutKeeps σ (execPowerGood test s) := by
  unfold execPowerGood
  exact outKeeps_next (keeps_ite (keeps_leaveReset (keeps_withPower hs)) hs)

theorem outHolds_execBrownOut {r : Rail} (hs : Holds σ s) : OutHolds σ (execBrownOut r s) := by
  unfold execBrownOut
  refine outHolds_next ?_
  split
  · extract_lets low
    exact holds_enterReset (hs.step (keeps_withPower (.refl _)))
  · exact hs

theorem holds_pinReset (hs : Holds σ s) : Holds σ (pinReset s) := by
  unfold pinReset
  exact holds_enterReset (hs.step (keeps_withPower (.refl _)))

theorem holds_throughFilter {g : FilterGroup} {ns : Nat} {act : State → State} (hs : Holds σ s)
    (hact : ∀ t, Holds σ t → Holds σ (act t)) : Holds σ (throughFilter g ns s act) := by
  unfold throughFilter
  split
  · exact hact _ hs
  · exact hs
  · exact holds_ite (hact _ (hs.step (keeps_withFree (.refl _)))) (hs.step (keeps_withFree (.refl _)))

theorem outHolds_execRstNLow {ns : Nat} (hs : Holds σ s) : OutHolds σ (execRstNLow ns s) := by
  unfold execRstNLow
  exact outHolds_next (holds_ite hs (holds_throughFilter hs (fun t1 h => holds_pinReset h)))

theorem outKeeps_execRstNHigh {test : BitVec 4} (hs : Keeps σ s) : OutKeeps σ (execRstNHigh test s) := by
  unfold execRstNHigh
  exact outKeeps_next (keeps_ite hs (keeps_leaveReset (keeps_withPower hs)))

/-- The dies after one has been replaced are that one and those before. -/
theorem cd_putCd_or {c : CDie} (d e : Nat) : cd (putCd s d c) e = c ∨ cd (putCd s d c) e = cd s e := by
  unfold cd putCd
  split <;> split <;> simp

theorem holds_freeDie {d k : Nat} (hs : Holds σ s) : Holds σ (putCd s d (freeDie k)) := by
  obtain ⟨mem, que, log, win, tok⟩ := hs
  have dies : ∀ p : CDie → Bool, p (freeDie k) = true → (∀ e, p (cd s e) = true) →
      ∀ e, p (cd (putCd s d (freeDie k)) e) = true := by
    intro p new old e
    rcases cd_putCd_or d e with h | h
    · exact h ▸ new
    · exact h ▸ old e
  refine ⟨fun h => memOk_iff.2 ?_, fun h => queuesOk_iff.2 (dies _ rfl (queuesOk_iff.1 (que h))), fun h => ?_,
    fun h => windowsOk_iff.2 (dies _ rfl (windowsOk_iff.1 (win h))), fun h => ?_⟩
  · obtain ⟨each, rest⟩ := memOk_iff.1 (mem h)
    have free : (freeDie k).memOk = true :=
      cDie_memOk_iff.2 ⟨memWf_memNorm _ _, memWf_memNorm _ _, memWf_memNorm _ _, memWf_memNorm _ _⟩
    exact ⟨dies _ free each, by simpa using rest⟩
  · rw [State.logOk, logCount, putCd_faults]
    exact log h
  · simpa [State.tokensOk] using tok h

theorem outHolds_execVcoreFastSlew {d : Fin 4} (hs : Holds σ s) : OutHolds σ (execVcoreFastSlew d s) := by
  unfold execVcoreFastSlew
  apply outHolds_next
  split
  · exact hs
  · exact (holds_freeDie hs).step (Keeps.refl (putCd s d (freeDie s.free)))

theorem outKeeps_execTimeBaseStart (hs : Keeps σ s) : OutKeeps σ (execTimeBaseStart s) := by
  unfold execTimeBaseStart
  exact outKeeps_next (keeps_ite hs hs)

theorem keeps_clockLostOn {l : List Nat} (hs : Keeps σ s) : Keeps σ (clockLostOn s l) := by
  induction l generalizing s with
  | nil => exact hs
  | cons x l ih =>
    unfold clockLostOn
    exact ih (keeps_setSysDie hs)

theorem keeps_stopProgramming (hs : Keeps σ s) : Keeps σ (stopProgramming s) := by
  unfold stopProgramming
  exact keeps_withTokenHeld (keeps_mapDies hs fun _ _ h => h) fun _ => Nat.zero_le _

theorem keeps_clockLoss (hs : Keeps σ s) : Keeps σ (clockLoss s) := by
  unfold clockLoss
  exact keeps_ite (keeps_haltFault hs) hs

theorem outKeeps_execRefclkLost (hs : Keeps σ s) : OutKeeps σ (execRefclkLost s) := by
  unfold execRefclkLost
  exact outKeeps_next (keeps_ite (keeps_withRefclk hs) (keeps_ite
    (keeps_clockLoss (keeps_stopProgramming (keeps_clockLostOn (keeps_withRefclk hs)))) (keeps_clockLostOn hs)))

theorem outKeeps_execSpeedWindowEnd {d : Fin 5} {rate : BitVec 16} (hs : Keeps σ s) :
    OutKeeps σ (execSpeedWindowEnd d rate s) := by
  unfold execSpeedWindowEnd
  exact outKeeps_next (keeps_ite (keeps_setSysDie hs) hs)

theorem keeps_vreqSet {n : Nat} {v : Word} (hs : Keeps σ s) : Keeps σ (vreqSet s n v) := by
  unfold vreqSet
  exact keeps_withPower hs

theorem outKeeps_execVreqWrite {n : Fin 4} {v : BitVec 32} (hs : Keeps σ s) : OutKeeps σ (execVreqWrite n v s) := by
  unfold execVreqWrite
  exact outKeeps_next (keeps_ite hs (keeps_vreqSet hs))

theorem outKeeps_execGovernorTick {pwr : BitVec 12} (hs : Keeps σ s) : OutKeeps σ (execGovernorTick pwr s) := by
  unfold execGovernorTick
  refine outKeeps_next ?_
  split
  · extract_lets p limit stopped hSlow _ q s1 low s2
    have hs1 : Keeps σ s1 := keeps_withPower hs
    have hs2 : Keeps σ s2 := keeps_withPower hs1
    exact keeps_ite (keeps_warn hs2) hs2
  · exact hs

theorem outKeeps_execSysGovcntRead (hs : Keeps σ s) : OutKeeps σ (execSysGovcntRead s) := by
  unfold execSysGovcntRead
  refine outKeeps_next ?_
  split
  · extract_lets
    exact keeps_withPower (keeps_outRead hs)
  · exact hs

end Sys2Proof.Machine
end

section
/-! What every command keeps: the commands of the serial ports. -/

namespace Sys2Proof.Machine

variable {σ s : State}

theorem keeps_uartApply {u : Nat} (hs : Keeps σ s) : Keeps σ (uartApply s u) := by
  unfold uartApply
  extract_lets v
  exact keeps_setUart hs

theorem keeps_uartArm {u : Nat} (hs : Keeps σ s) : Keeps σ (uartArm s u) := by
  unfold uartArm
  extract_lets v
  exact keeps_setUart hs

theorem keeps_resumeUarts {l : List Nat} (hs : Keeps σ s) : Keeps σ (resumeUarts s l) := by
  induction l generalizing s with
  | nil => exact hs
  | cons x l ih =>
    unfold resumeUarts
    exact ih (keeps_ite (keeps_uartApply hs) hs)

theorem keeps_uartCfgWrite {u : Nat} {x : Word} (hs : Keeps σ s) : Keeps σ (uartCfgWrite s u x) := by
  unfold uartCfgWrite
  extract_lets v y s1 _ s1'
  have hs1 : Keeps σ s1 := keeps_uartStop hs
  have hs1' : Keeps σ s1' := keeps_setUart hs
  exact keeps_ite (keeps_ite hs (keeps_setUart hs1)) (keeps_ite hs1'
    (keeps_ite (keeps_uartArm hs1') (keeps_ite (keeps_uartApply hs1') hs1')))

theorem outKeeps_execUartEnable {u : Fin 4} {v : BitVec 32} (hs : Keeps σ s) : OutKeeps σ (execUartEnable u v s) := by
  unfold execUartEnable
  exact outKeeps_next (keeps_ite (keeps_uartCfgWrite hs) hs)

theorem outKeeps_execUartDisable {u : Fin 4} (hs : Keeps σ s) : OutKeeps σ (execUartDisable u s) := by
  unfold execUartDisable
  exact outKeeps_next (keeps_ite (keeps_uartCfgWrite hs) hs)

theorem keeps_uartOverrun {u : Nat} (hs : Keeps σ s) : Keeps σ (uartOverrun s u) := by
  unfold uartOverrun
  extract_lets v n s1
  have hs1 : Keeps σ s1 := keeps_setUart hs
  split
  · exact keeps_ite hs1 (keeps_warn (keeps_setUart hs1))
  · exact keeps_warn (keeps_setUart hs1)

theorem keeps_uartHold {u : Nat} {e : Nat} (hs : Keeps σ s) : Keeps σ (uartHold s u e) := by
  unfold uartHold
  extract_lets v full s1
  have hs1 : Keeps σ s1 := keeps_setUart hs
  exact keeps_ite (keeps_uartOverrun hs1) hs1

theorem outKeeps_execUartCharReceived {u : Fin 4} {c : RxChar} (hs : Keeps σ s) :
    OutKeeps σ (execUartCharReceived u c s) := by
  unfold execUartCharReceived
  extract_lets v
  exact outKeeps_next (keeps_ite (keeps_ite (keeps_setUart hs) (keeps_ite (keeps_uartHold hs) hs)) hs)

theorem outKeeps_execUartRxEngineTake {u : Fin 4} (hs : Keeps σ s) : OutKeeps σ (execUartRxEngineTake u s) := by
  unfold execUartRxEngineTake
  exact outKeeps_next (keeps_uartTake hs)

theorem outKeeps_execUartRxHighBitTime {u : Fin 4} (hs : Keeps σ s) : OutKeeps σ (execUartRxHighBitTime u s) := by
  unfold execUartRxHighBitTime
  exact outKeeps_next (keeps_setUart hs)

theorem keeps_uartTxAsk {u : Nat} (hs : Keeps σ s) : Keeps σ (uartTxAsk s u) := by
  unfold uartTxAsk
  extract_lets v
  exact keeps_ite hs (keeps_getD (optKeeps_ringAsk (keeps_setUart hs)) hs)

theorem outKeeps_execUartTxChar {u : Fin 4} (hs : Keeps σ s) : OutKeeps σ (execUartTxChar u s) := by
  unfold execUartTxChar
  extract_lets v
  refine outKeeps_next ?_
  split
  · split
    · exact keeps_output (keeps_setUart hs)
    · exact keeps_uartTxAsk hs
  · exact hs

theorem keeps_uartStopped {u : Nat} (hs : Keeps σ s) : Keeps σ (uartStopped s u) := by
  unfold uartStopped
  extract_lets v s1
  have hs1 : Keeps σ s1 := keeps_setUart hs
  exact keeps_ite (keeps_uartApply hs1) hs1

theorem outKeeps_execUartTxDone {u : Fin 4} (hs : Keeps σ s) : OutKeeps σ (execUartTxDone u s) := by
  unfold execUartTxDone
  extract_lets v s1
  have hs1 : Keeps σ s1 := keeps_addNamed (keeps_setUart hs)
  exact outKeeps_next (keeps_ite (keeps_ite (keeps_uartStopped hs1) hs1) hs)

theorem keeps_ctsLevel {u : Fin 4} {high : Bool} (hs : Keeps σ s) : Keeps σ (ctsLevel u high s) := by
  unfold ctsLevel
  exact keeps_setUart hs

theorem outKeeps_execUartCtsChange {u : Fin 4} {high : Bool} (hs : Keeps σ s) :
    OutKeeps σ (execUartCtsChange u high s) := by
  unfold execUartCtsChange
  exact outKeeps_next (keeps_filtered hs (fun t1 h => keeps_ctsLevel h))

theorem outKeeps_execUartSyncChar {u : Fin 4} {data : BitVec 9} (hs : Keeps σ s) :
    OutKeeps σ (execUartSyncChar u data s) := by
  unfold execUartSyncChar
  extract_lets v t
  have ht : Keeps σ t := keeps_setUart hs
  refine outKeeps_next ?_
  split
  · split
    · exact keeps_addNamed (keeps_output ht)
    · exact keeps_uartTxAsk hs
  · exact hs

theorem outKeeps_execUartSleepEntry {u : Fin 4} (hs : Keeps σ s) : OutKeeps σ (execUartSleepEntry u s) := by
  unfold execUartSleepEntry
  extract_lets v
  exact outKeeps_next (keeps_ite (keeps_setUart hs) hs)

theorem keeps_uartWoken {u : Fin 4} {byRx : Bool} (hs : Keeps σ s) : Keeps σ (uartWoken u byRx s) := by
  unfold uartWoken
  extract_lets v deep
  exact keeps_ite (keeps_addNamed (keeps_setUart hs)) hs

theorem outKeeps_execUartWake {u : Fin 4} {byRx : Bool} (hs : Keeps σ s) : OutKeeps σ (execUartWake u byRx s) := by
  unfold execUartWake
  exact outKeeps_next (keeps_ite (keeps_filtered hs (fun t1 h => keeps_uartWoken h)) (keeps_uartWoken hs))

theorem outKeeps_execDeepWakeReady {u : Fin 4} {rxHigh : Bool} (hs : Keeps σ s) :
    OutKeeps σ (execDeepWakeReady u rxHigh s) := by
  unfold execDeepWakeReady
  extract_lets v
  exact outKeeps_next (keeps_ite (keeps_setUart hs) hs)

theorem outKeeps_execUartCounterRead {u : Fin 4} {k : UartCounter} (hs : Keeps σ s) :
    OutKeeps σ (execUartCounterRead u k s) := by
  unfold execUartCounterRead
  extract_lets v
  refine outKeeps_next ?_
  split
  · split <;> exact keeps_setUart (keeps_outRead hs)
  · exact hs

end Sys2Proof.Machine
end

section
/-! What every command keeps: faults, the watchdog and recovery. -/

namespace Sys2Proof.Machine

variable {σ s : State}

theorem outKeeps_execFaultRecordLog {i : Nat} (hs : Keeps σ s) : OutKeeps σ (execFaultRecordLog i s) := by
  unfold execFaultRecordLog
  apply outKeeps_next
  split
  · exact hs
  · split
    · rename_i may
      simp only [Bool.and_eq_true, decide_eq_true_eq] at may
      exact keeps_logTake (keeps_withFaults hs id) may.1.2
    · exact hs

theorem outKeeps_execFaultQueueDeliver (hs : Keeps σ s) : OutKeeps σ (execFaultQueueDeliver s) := by
  unfold execFaultQueueDeliver
  extract_lets i d q
  exact outKeeps_next (keeps_ite (keeps_getD (optKeeps_sendAsk hs) hs) hs)

/-- Between the oldest record and the end of the log a head leaves no more records than there were. -/
theorem toNat_sub_le_of_between {v head tail : Word} (h : (v - head).toNat ≤ (tail - head).toNat) :
    (tail - v).toNat ≤ (tail - head).toNat := by
  have split : tail - v = (tail - head) - (v - head) := (sub_sub_sub_cancel_right tail v head).symm
  rw [split, BitVec.toNat_sub_of_le h]
  exact Nat.sub_le _ _

theorem keeps_flogHeadSet {v : Word} (hs : Keeps σ s) : Keeps σ (flogHeadSet s v) := by
  unfold flogHeadSet
  split
  · exact hs
  · rename_i free
    simp only [Bool.or_eq_true, decide_eq_true_eq, not_or, not_lt] at free
    exact keeps_withFaults hs (toNat_sub_le_of_between free.2).trans

theorem outKeeps_execFlogHeadWrite {v : BitVec 32} (hs : Keeps σ s) : OutKeeps σ (execFlogHeadWrite v s) := by
  unfold execFlogHeadWrite
  exact outKeeps_next (keeps_ite hs (keeps_flogHeadSet hs))

theorem keeps_wdRestart (hs : Keeps σ s) : Keeps σ (wdRestart s) := by
  unfold wdRestart
  exact hs

theorem holds_recovReset (hs : Holds σ s) : Holds σ (recovReset s) := by
  unfold recovReset
  extract_lets s1
  have hs1 : Holds σ s1 := holds_enterReset hs
  exact (hs1.step (.refl _)).step (keeps_leaveReset (.refl _))

theorem keeps_fSendSafe (hs : Keeps σ s) : Keeps σ (fSendSafe s) := by
  unfold fSendSafe
  exact keeps_getD (optKeeps_sendAsk hs) hs

theorem holds_wdActs (hs : Holds σ s) : Holds σ (wdActs s) := by
  unfold wdActs
  split
  · exact (hs.step (keeps_raise (.refl _))).step (keeps_wdRestart (.refl _))
  · extract_lets s1
    have hs1 : Holds σ s1 := hs.step (keeps_raise (.refl _))
    exact (hs1.step (keeps_fSendSafe (.refl _))).step (keeps_wdRestart (.refl _))
  · exact hs.step (keeps_haltFault (.refl _))
  · exact holds_recovReset (hs.step (keeps_raise (.refl _)))

theorem holds_wdExpire (hs : Holds σ s) : Holds σ (wdExpire s) := by
  unfold wdExpire
  exact holds_ite (holds_wdActs hs) hs

theorem keeps_hbWordPut {v : Word} (hs : Keeps σ s) : Keeps σ (hbWordPut s v) := by
  unfold hbWordPut
  exact keeps_wdRestart (keeps_withHost hs rfl)

theorem holds_wdWrite {f : State → State} (hs : Holds σ s) (hf : ∀ t, Holds σ t → Holds σ (f t)) :
    Holds σ (wdWrite s f) := by
  unfold wdWrite
  exact holds_ite (holds_ite (hf _ (holds_wdActs hs)) (holds_wdActs hs)) (hf _ hs)

theorem holds_hbWordSet {v : Word} (hs : Holds σ s) : Holds σ (hbWordSet s v) := by
  unfold hbWordSet
  exact holds_wdWrite hs (fun t1 h => h.step (keeps_hbWordPut (.refl _)))

theorem outHolds_execPciHbWordWrite {v : BitVec 32} (hs : Holds σ s) : OutHolds σ (execPciHbWordWrite v s) := by
  unfold execPciHbWordWrite
  exact outHolds_next (holds_ite hs (holds_hbWordSet hs))

theorem keeps_wdPut {v : Word} (hs : Keeps σ s) : Keeps σ (wdPut s v) := by
  unfold wdPut
  exact keeps_wdRestart hs

theorem holds_wdSet {v : Word} (hs : Holds σ s) : Holds σ (wdSet s v) := by
  unfold wdSet
  exact holds_wdWrite hs (fun t1 h => h.step (keeps_wdPut (.refl _)))

theorem outHolds_execSysWdWrite {v : BitVec 32} (hs : Holds σ s) : OutHolds σ (execSysWdWrite v s) := by
  unfold execSysWdWrite
  exact outHolds_next (holds_ite hs (holds_wdSet hs))

theorem outHolds_execMachineWdogExpiry (hs : Holds σ s) : OutHolds σ (execMachineWdogExpiry s) := by
  unfold execMachineWdogExpiry
  exact outHolds_next (holds_wdExpire hs)

theorem keeps_portsDown {l : List Nat} (hs : Keeps σ s) : Keeps σ (portsDown s l) := by
  induction l generalizing s with
  | nil => exact hs
  | cons x l ih =>
    unfold portsDown
    exact ih (keeps_ite (keeps_setEndp hs) hs)

theorem keeps_resumeRun (hs : Keeps σ s) : Keeps σ (resumeRun s) := by
  unfold resumeRun
  split
  · extract_lets _ s1 s2
    have hs1 : Keeps σ s1 := hs
    have hs2 : Keeps σ s2 := keeps_startAllArmed (keeps_startSpires hs1)
    exact keeps_feResume (keeps_resumeUarts (keeps_setMState (keeps_portsDown hs2)))
  · exact hs

theorem holds_recovWrite {v : Word} (hs : Holds σ s) : Holds σ (recovWrite s v) := by
  unfold recovWrite
  exact holds_ite hs (holds_ite (hs.step (keeps_resumeRun (.refl _))) (holds_ite (holds_recovReset hs) hs))

theorem outHolds_execResumeAction {v : BitVec 32} (hs : Holds σ s) : OutHolds σ (execResumeAction v s) := by
  unfold execResumeAction
  exact outHolds_next (holds_ite hs (holds_recovWrite hs))

theorem outHolds_execResetAction {v : BitVec 32} (hs : Holds σ s) : OutHolds σ (execResetAction v s) := by
  unfold execResetAction
  exact outHolds_next (holds_ite hs (holds_recovWrite hs))

end Sys2Proof.Machine
end

section
/-! What every command keeps: the commands of F. -/

namespace Sys2Proof.Machine

variable {σ s : State}

theorem outKeeps_execMstateReport (hs : Keeps σ s) : OutKeeps σ (execMstateReport s) := by
  unfold execMstateReport
  refine outKeeps_next ?_
  split
  · extract_lets s1
    have hs1 : Keeps σ s1 := keeps_takeTxn hs
    exact keeps_ite (keeps_getD (optKeeps_map (fun a1 => keeps_fReport hs1)) hs1) hs1
  · split
    · exact hs
    · extract_lets _ s1
      have hs1 : Keeps σ s1 := keeps_withF hs
      exact keeps_ite (keeps_sendReport hs1) (keeps_fLost hs1)

theorem outKeeps_execVfieldRise (hs : Keeps σ s) : OutKeeps σ (execVfieldRise s) := by
  unfold execVfieldRise
  exact outKeeps_next (keeps_ite hs (keeps_withF hs))

theorem outKeeps_execFReset (hs : Keeps σ s) : OutKeeps σ (execFReset s) := by
  unfold execFReset
  refine outKeeps_next ?_
  split
  · extract_lets _ s1
    have hs1 : Keeps σ s1 := keeps_withF hs
    exact keeps_ite hs1 (keeps_isolateDie hs1)
  · exact hs

theorem outKeeps_execFuvTimeout (hs : Keeps σ s) : OutKeeps σ (execFuvTimeout s) := by
  unfold execFuvTimeout
  exact outKeeps_next (keeps_ite hs (keeps_fSafe hs))

theorem outKeeps_execFLinkTimeout (hs : Keeps σ s) : OutKeeps σ (execFLinkTimeout s) := by
  unfold execFLinkTimeout
  exact outKeeps_next (keeps_ite hs (keeps_fSafe hs))

theorem outKeeps_execFioSafe (hs : Keeps σ s) : OutKeeps σ (execFioSafe s) := by
  unfold execFioSafe
  exact outKeeps_next (keeps_fOrderedSafe hs)

theorem outKeeps_execFioRearm (hs : Keeps σ s) : OutKeeps σ (execFioRearm s) := by
  unfold execFioRearm
  exact outKeeps_next (keeps_fAsked hs (fun t1 h => keeps_fioCtlWrite h))

theorem keeps_fWdRestart (hs : Keeps σ s) : Keeps σ (fWdRestart s) := by
  unfold fWdRestart
  extract_lets s1
  have hs1 : Keeps σ s1 := keeps_ite (keeps_fSafe hs) hs
  exact keeps_withF hs1

theorem outKeeps_execFioWdKick {_v : BitVec 32} (hs : Keeps σ s) : OutKeeps σ (execFioWdKick _v s) := by
  unfold execFioWdKick
  exact outKeeps_next (keeps_fAsked hs (fun t1 h => keeps_fWdRestart h))

theorem keeps_fioWdSet {v : Word} (hs : Keeps σ s) : Keeps σ (fioWdSet s v) := by
  unfold fioWdSet
  extract_lets s1
  have hs1 : Keeps σ s1 := keeps_fWdRestart hs
  exact keeps_withF hs1

theorem outKeeps_execFioWdWrite {v : BitVec 32} (hs : Keeps σ s) : OutKeeps σ (execFioWdWrite v s) := by
  unfold execFioWdWrite
  exact outKeeps_next (keeps_fAsked hs (fun t1 h => keeps_fioWdSet h))

theorem outKeeps_execFioWdExpiry (hs : Keeps σ s) : OutKeeps σ (execFioWdExpiry s) := by
  unfold execFioWdExpiry
  exact outKeeps_next (keeps_ite (keeps_fSafe hs) hs)

theorem keeps_fieldWarn {unit kind : Nat} {d5 d6 d7 : Word} (hs : Keeps σ s) :
    Keeps σ (fieldWarn s unit kind d5 d6 d7) := by
  unfold fieldWarn
  exact keeps_ite (keeps_warn hs) hs

theorem keeps_aoCodeSet {n : Nat} {v : Word} (hs : Keeps σ s) : Keeps σ (aoCodeSet s n v) := by
  unfold aoCodeSet
  extract_lets _ a
  exact keeps_setAo hs

theorem keeps_aoCfgSet {n : Nat} {v : Word} (hs : Keeps σ s) : Keeps σ (aoCfgSet s n v) := by
  unfold aoCfgSet
  extract_lets _ a
  exact keeps_setAo hs

theorem outKeeps_execAoCmdWrite {n : Fin 4} {v : BitVec 32} (hs : Keeps σ s) : OutKeeps σ (execAoCmdWrite n v s) := by
  unfold execAoCmdWrite
  exact outKeeps_next (keeps_fAsked hs (fun t1 h => keeps_aoCodeSet h))

theorem outKeeps_execAoMeasUpdate {n : Fin 4} {i : BitVec 16} {vhead vloop : BitVec 12} (hs : Keeps σ s) :
    OutKeeps σ (execAoMeasUpdate n i vhead vloop s) := by
  unfold execAoMeasUpdate
  exact outKeeps_next (keeps_ite (keeps_setAo hs) hs)

theorem outKeeps_execAoComplianceSet {n : Fin 4} (hs : Keeps σ s) : OutKeeps σ (execAoComplianceSet n s) := by
  unfold execAoComplianceSet
  extract_lets v
  exact outKeeps_next (keeps_ite (keeps_fieldWarn (keeps_setAo hs)) hs)

theorem outKeeps_execAoComplianceClear {n : Fin 4} (hs : Keeps σ s) : OutKeeps σ (execAoComplianceClear n s) := by
  unfold execAoComplianceClear
  exact outKeeps_next (keeps_setAo hs)

theorem outKeeps_execAoOpenSet {n : Fin 4} (hs : Keeps σ s) : OutKeeps σ (execAoOpenSet n s) := by
  unfold execAoOpenSet
  extract_lets v
  exact outKeeps_next (keeps_ite (keeps_fieldWarn (keeps_setAo hs)) hs)

theorem outKeeps_execAoOpenClear {n : Fin 4} (hs : Keeps σ s) : OutKeeps σ (execAoOpenClear n s) := by
  unfold execAoOpenClear
  exact outKeeps_next (keeps_setAo hs)

theorem keeps_doCmdSet {v : Word} (hs : Keeps σ s) : Keeps σ (doCmdSet s v) := by
  unfold doCmdSet
  extract_lets _ s1
  have hs1 : Keeps σ s1 := keeps_withF hs
  exact keeps_ite (keeps_outsLive hs1) hs1

theorem outKeeps_execDoCmdWrite {v : BitVec 32} (hs : Keeps σ s) : OutKeeps σ (execDoCmdWrite v s) := by
  unfold execDoCmdWrite
  exact outKeeps_next (keeps_fAsked hs (fun t1 h => keeps_doCmdSet h))

theorem outKeeps_execDoOverload {n : Fin 8} (hs : Keeps σ s) : OutKeeps σ (execDoOverload n s) := by
  unfold execDoOverload
  exact outKeeps_next (keeps_ite (keeps_setDoCh hs) hs)

theorem outKeeps_execDoLatchOff {n : Fin 8} (hs : Keeps σ s) : OutKeeps σ (execDoLatchOff n s) := by
  unfold execDoLatchOff
  extract_lets v v1
  exact outKeeps_next (keeps_ite (keeps_ite (keeps_fieldWarn (keeps_setDoCh hs)) (keeps_setDoCh hs)) hs)

theorem outKeeps_execDoRetry {n : Fin 8} (hs : Keeps σ s) : OutKeeps σ (execDoRetry n s) := by
  unfold execDoRetry
  extract_lets v
  exact outKeeps_next (keeps_ite (keeps_setDoCh hs) hs)

theorem outKeeps_execDoRetryReset {n : Fin 8} (hs : Keeps σ s) : OutKeeps σ (execDoRetryReset n s) := by
  unfold execDoRetryReset
  extract_lets v
  exact outKeeps_next (keeps_ite (keeps_setDoCh hs) hs)

theorem keeps_doClear {v : Word} (hs : Keeps σ s) : Keeps σ (doClear s v) := by
  unfold doClear
  extract_lets one
  exact keeps_withF hs

theorem outKeeps_execDoFaultClear {v : BitVec 32} (hs : Keeps σ s) : OutKeeps σ (execDoFaultClear v s) := by
  unfold execDoFaultClear
  exact outKeeps_next (keeps_fAsked hs (fun t1 h => keeps_doClear h))

theorem outKeeps_execDoOpenldSet {n : Fin 8} (hs : Keeps σ s) : OutKeeps σ (execDoOpenldSet n s) := by
  unfold execDoOpenldSet
  exact outKeeps_next (keeps_ite (keeps_setDoCh hs) hs)

theorem outKeeps_execDoOpenldClear {n : Fin 8} (hs : Keeps σ s) : OutKeeps σ (execDoOpenldClear n s) := by
  unfold execDoOpenldClear
  exact outKeeps_next (keeps_setDoCh hs)

theorem outKeeps_execDoExtDriveSet {n : Fin 8} (hs : Keeps σ s) : OutKeeps σ (execDoExtDriveSet n s) := by
  unfold execDoExtDriveSet
  extract_lets v
  exact outKeeps_next (keeps_ite (keeps_fieldWarn (keeps_setDoCh hs)) hs)

theorem outKeeps_execDoExtDriveClear {n : Fin 8} (hs : Keeps σ s) : OutKeeps σ (execDoExtDriveClear n s) := by
  unfold execDoExtDriveClear
  exact outKeeps_next (keeps_setDoCh hs)

theorem keeps_diChanged {n : Fin 8} (hs : Keeps σ s) : Keeps σ (diChanged n s) := by
  unfold diChanged
  extract_lets v i s1 _ s2 w
  have hs1 : Keeps σ s1 := keeps_setDiCh hs
  have hs2 : Keeps σ s2 := keeps_withF hs1
  exact keeps_ite (keeps_ite (keeps_addNamed hs2) hs2) hs

theorem outKeeps_execDiFilteredChange {n : Fin 8} (hs : Keeps σ s) : OutKeeps σ (execDiFilteredChange n s) := by
  unfold execDiFilteredChange
  exact outKeeps_next (keeps_filtered hs (fun t1 h => keeps_diChanged h))

end Sys2Proof.Machine
end

section
/-! What every command keeps: Plinth commands. -/

namespace Sys2Proof.Machine

variable {σ s : State}

theorem keeps_plReject {d : Fin 4} {n : Fin 8} (hs : Keeps σ s) : Keeps σ (plReject s d n) := by
  unfold plReject
  exact keeps_finishCmd hs

theorem keeps_plRun {d : Fin 4} {n : Fin 8} {opc : Nat} {f : UnitCmd → State} (hs : Keeps σ s) (hf : ∀ u, Keeps σ (f u)) :
    Keeps σ (plRun s d n opc f) := by
  unfold plRun
  split
  · exact hs
  · exact keeps_ite hs (keeps_ite (hf _) (keeps_ite (keeps_plReject hs) hs))

theorem keeps_foldCells {d n : Nat} {l : List Nat} (hs : Keeps σ s) : Keeps σ (foldCells s d n l) := by
  induction l generalizing s with
  | nil => exact hs
  | cons x l ih =>
    unfold foldCells
    exact ih (keeps_foldHeld hs)

theorem outKeeps_execClear {d : Fin 4} {n : Fin 8} (hs : Keeps σ s) : OutKeeps σ (execClear d n s) := by
  unfold execClear
  refine outKeeps_next ?_
  refine keeps_plRun hs ?_
  intro u1
  split
  · extract_lets p
    exact keeps_finishCmd (keeps_setPlinth hs)
  · exact keeps_plReject hs

theorem keeps_plWritten {d : Fin 4} {n : Fin 8} {u : UnitCmd} {int : Bool} {es : List ((Nat × Word × Word) × Tally)} (hs : Keeps σ s) :
    Keeps σ (plWritten s d n u int es) := by
  unfold plWritten
  extract_lets t p s1
  have hs1 : Keeps σ s1 := keeps_plFlags (keeps_setPlinth hs)
  exact keeps_finishCmd (keeps_foldCells hs1)

theorem outKeeps_execPreload {d : Fin 4} {n : Fin 8} (hs : Keeps σ s) : OutKeeps σ (execPreload d n s) := by
  unfold execPreload
  refine outKeeps_next ?_
  refine keeps_plRun hs ?_
  intro u1
  split
  · exact keeps_plReject hs
  · extract_lets a
    split
    · split
      · exact keeps_of_snd_eq ‹_› (keeps_rdSpans hs)
      · exact keeps_plWritten (keeps_of_snd_eq ‹_› (keeps_rdSpans hs))
    · exact keeps_plReject hs

theorem outKeeps_execWritet {d : Fin 4} {n : Fin 8} (hs : Keeps σ s) : OutKeeps σ (execWritet d n s) := by
  unfold execWritet
  refine outKeeps_next ?_
  refine keeps_plRun hs ?_
  intro u1
  extract_lets a
  split
  · split
    · exact keeps_of_snd_eq ‹_› (keeps_rdSpans hs)
    · exact keeps_plWritten (keeps_of_snd_eq ‹_› (keeps_rdSpans hs))
  · exact keeps_plReject hs

theorem keeps_wrRows {d : Nat} {port : Word} {l : List (Nat × List Byte)} (hs : Keeps σ s) :
    Keeps σ (wrRows s d port l).2 := by
  induction l generalizing s with
  | nil => exact hs
  | cons x l ih =>
    unfold wrRows
    split
    · exact ih (keeps_of_wrVault ‹_› hs)
    · exact keeps_of_snd_eq ‹_› (keeps_wrVault hs)

theorem keeps_of_wrRows {d : Nat} {port : Word} {l : List (Nat × List Byte)} {t u : State}
    (h : wrRows s d port l = (some t, u)) (hs : Keeps σ s) : Keeps σ t := by
  induction l generalizing s with
  | nil =>
    cases h
    exact hs
  | cons x l ih =>
    unfold wrRows at h
    split at h
    · exact ih h (keeps_of_wrVault ‹_› hs)
    · cases h

theorem keeps_readtRun {d : Fin 4} {n : Fin 8} {u : UnitCmd} (hs : Keeps σ s) : Keeps σ (readtRun s d n u) := by
  unfold readtRun
  extract_lets p
  split
  · exact keeps_of_snd_eq ‹_› (keeps_wrRows hs)
  · exact keeps_finishCmd (keeps_of_wrRows ‹_› hs)

theorem keeps_drainRun {d : Fin 4} {n : Fin 8} {u : UnitCmd} {c : DrainCmd} (hs : Keeps σ s) :
    Keeps σ (drainRun s d n u c) := by
  unfold drainRun
  extract_lets port yr
  have hyr : Keeps σ yr.2 := keeps_snd_ite (keeps_rdVault hs) hs
  clear_value yr
  split
  · exact hyr
  · rename_i yb s1
    have hs1 : Keeps σ s1 := hyr
    extract_lets p tf ys g r
    clear_value r
    split
    · exact keeps_of_snd_eq ‹_› (keeps_wrRows hs1)
    · extract_lets
      exact keeps_finishCmd (keeps_plFlags (keeps_setPlinth (keeps_of_wrRows ‹_› hs1)))

theorem keeps_chainLeave {d : Fin 4} {n : Fin 8} {u : UnitCmd} {rows : List (Nat × List (Word × Word × Nat))} (hs : Keeps σ s) :
    Keeps σ (chainLeave s d n u rows) := by
  unfold chainLeave
  extract_lets st _ s1
  have hs1 : Keeps σ s1 := keeps_setPlinth hs
  exact keeps_ite (keeps_chainEnd (keeps_setPlinth hs1)) (keeps_chainSend hs1)

theorem keeps_chainRun {d : Fin 4} {n : Fin 8} {u : UnitCmd} (hs : Keeps σ s) : Keeps σ (chainRun s d n u) := by
  unfold chainRun
  extract_lets _ s1
  have hs1 : Keeps σ s1 := keeps_setPlinth hs
  exact keeps_ite (keeps_chainBreak hs1) (keeps_ite (keeps_chainLeave hs1) hs1)

theorem outKeeps_execChainCombine {d : Fin 4} {n : Fin 8} (hs : Keeps σ s) : OutKeeps σ (execChainCombine d n s) := by
  unfold execChainCombine
  extract_lets p
  refine outKeeps_next ?_
  split
  · exact hs
  · split
    · split
      · exact keeps_ite (keeps_chainBreak hs) hs
      · split
        · exact keeps_chainBreak hs
        · split
          · extract_lets mix t s1
            have hs1 : Keeps σ s1 := keeps_plFlags (keeps_setPlinth hs)
            exact keeps_chainLeave (keeps_chainFree hs1)
          · exact hs
    · exact hs

theorem keeps_readerRun {d : Fin 4} {n : Fin 8} {u : UnitCmd} (hs : Keeps σ s) : Keeps σ (readerRun s d n u) := by
  unfold readerRun
  split
  · exact keeps_setPlinth hs
  · extract_lets _ s1
    have hs1 : Keeps σ s1 := keeps_setPlinth hs
    split
    · exact keeps_readtRun hs1
    · split
      · exact keeps_chainRun hs1
      · split
        · exact keeps_drainRun hs1
        · exact hs1

theorem keeps_readerStart {d : Fin 4} {n : Fin 8} {u : UnitCmd} (hs : Keeps σ s) : Keeps σ (readerStart s d n u) := by
  unfold readerStart
  exact keeps_ite (keeps_readerRun hs) (keeps_setPlinth hs)

theorem outKeeps_execPlinthSettled {d : Fin 4} {n : Fin 8} (hs : Keeps σ s) :
    OutKeeps σ (execPlinthSettled d n s) := by
  unfold execPlinthSettled
  refine outKeeps_next ?_
  split
  · exact keeps_ite (keeps_readerRun hs) hs
  · exact hs

theorem outKeeps_execReadt {d : Fin 4} {n : Fin 8} (hs : Keeps σ s) : OutKeeps σ (execReadt d n s) := by
  unfold execReadt
  exact outKeeps_next (keeps_plRun hs (fun u1 => keeps_ite (keeps_readerStart hs) (keeps_plReject hs)))

theorem outKeeps_execDrain {d : Fin 4} {n : Fin 8} (hs : Keeps σ s) : OutKeeps σ (execDrain d n s) := by
  unfold execDrain
  refine outKeeps_next ?_
  refine keeps_plRun hs ?_
  intro u1
  split
  · exact keeps_plReject hs
  · exact keeps_ite (keeps_readerStart (keeps_setPlinth hs)) (keeps_plReject hs)

theorem outKeeps_execChain {d : Fin 4} {n : Fin 8} (hs : Keeps σ s) : OutKeeps σ (execChain d n s) := by
  unfold execChain
  exact outKeeps_next (keeps_plRun hs (fun u1 => keeps_ite (keeps_readerStart hs) (keeps_plReject hs)))

theorem keeps_plinthStore {d n off : Nat} {v : Word} (hs : Keeps σ s) : Keeps σ (plinthStore s d n off v) := by
  unfold plinthStore
  extract_lets p i a r a1
  exact keeps_ite (keeps_ite (keeps_setPlinth hs) hs) (keeps_plFlags (keeps_setPlinth hs))

theorem outKeeps_execPlinthStore {d : Fin 4} {n : Fin 8} {off : BitVec 18} {v : BitVec 32} (hs : Keeps σ s) :
    OutKeeps σ (execPlinthStore d n off v s) := by
  unfold execPlinthStore
  exact outKeeps_next (keeps_ite (keeps_plinthStore hs) hs)

theorem outKeeps_execPlnDiscRead {d : Fin 4} {n : Fin 8} (hs : Keeps σ s) : OutKeeps σ (execPlnDiscRead d n s) := by
  unfold execPlnDiscRead
  exact outKeeps_next (keeps_ite (keeps_setPlinth (keeps_outRead hs)) hs)

theorem outKeeps_execPlnFoldflushRead {d : Fin 4} {n : Fin 8} (hs : Keeps σ s) :
    OutKeeps σ (execPlnFoldflushRead d n s) := by
  unfold execPlnFoldflushRead
  exact outKeeps_next (keeps_ite (keeps_setPlinth (keeps_outRead hs)) hs)

theorem keeps_plSeedSet {d n : Nat} {v : Word} (hs : Keeps σ s) : Keeps σ (plSeedSet s d n v) := by
  unfold plSeedSet
  exact keeps_setPlinth hs

theorem keeps_lnSeedSet {d n : Nat} {v : Word} (hs : Keeps σ s) : Keeps σ (lnSeedSet s d n v) := by
  unfold lnSeedSet
  exact keeps_setLantern hs

theorem outKeeps_execSeedWrite {d : Fin 4} {u : SeedUnit} {v : BitVec 32} (hs : Keeps σ s) :
    OutKeeps σ (execSeedWrite d u v s) := by
  unfold execSeedWrite
  refine outKeeps_next ?_
  split
  · exact hs
  · split
    · exact keeps_plSeedSet hs
    · exact keeps_lnSeedSet hs

end Sys2Proof.Machine
end

section
/-! What every command keeps: a Lantern's run. -/

namespace Sys2Proof.Machine

variable {σ s : State}

theorem keeps_lnFinish {d : Fin 4} {n : Fin 8} {r : LnRun} {st : Nat} (hs : Keeps σ s) :
    Keeps σ (lnFinish s d n r st) := by
  unfold lnFinish
  extract_lets v
  exact keeps_finishCmd (keeps_setLantern hs)

theorem keeps_lnDone {d : Fin 4} {n : Fin 8} {r : LnRun} {i : LnInsn} {t : Tally} (hs : Keeps σ s) :
    Keeps σ (lnDone s d n r i t) := by
  unfold lnDone
  exact keeps_setLantern hs

theorem keeps_lnRow {d : Fin 4} {n : Fin 8} {opc : Nat} {f : LnRun → LnInsn → State} (hs : Keeps σ s)
    (hf : ∀ r i, Keeps σ (f r i)) : Keeps σ (lnRow s d n opc f) := by
  unfold lnRow
  split
  · exact hs
  · exact keeps_ite (keeps_ite (hf _ _) hs) (keeps_lnFinish hs)

theorem keeps_lnWrite {d : Fin 4} {n : Fin 8} {r : LnRun} {i : LnInsn} {xs : List (Nat × Tally)} (hs : Keeps σ s) :
    Keeps σ (lnWrite s d n r i xs) := by
  unfold lnWrite
  exact keeps_lnDone (keeps_setLantern hs)

theorem keeps_lnMove {d : Fin 4} {n : Fin 8} {r : LnRun} {i : LnInsn} {xs : List Nat} (hs : Keeps σ s) :
    Keeps σ (lnMove s d n r i xs) := by
  unfold lnMove
  exact keeps_lnWrite hs

theorem keeps_lnBinary {d : Fin 4} {n : Fin 8} {r : LnRun} {i : LnInsn} {ff : FFmt → Nat → Nat → Nat → Nat × Exc} {fi : Nat → Nat → Nat} (hs : Keeps σ s) :
    Keeps σ (lnBinary s d n r i ff fi) := by
  unfold lnBinary
  extract_lets v
  exact keeps_lnWrite hs

theorem keeps_lnUnary {d : Fin 4} {n : Fin 8} {r : LnRun} {i : LnInsn} {ff : FFmt → Nat → Nat → Nat × Exc} {fi : Nat → Nat} (hs : Keeps σ s) :
    Keeps σ (lnUnary s d n r i ff fi) := by
  unfold lnUnary
  exact keeps_lnWrite hs

theorem keeps_lnCompare {d : Fin 4} {n : Fin 8} {r : LnRun} {i : LnInsn} {ff : FFmt → Nat → Nat → Bool} {fi : Int → Int → Bool} (hs : Keeps σ s) :
    Keeps σ (lnCompare s d n r i ff fi) := by
  unfold lnCompare
  exact keeps_lnBinary hs

end Sys2Proof.Machine
end

section
/-! What every command keeps: Lantern instructions. -/

namespace Sys2Proof.Machine

variable {σ s : State}

theorem outKeeps_execLntRun {d : Fin 4} {n : Fin 8} (hs : Keeps σ s) : OutKeeps σ (execLntRun d n s) := by
  unfold execLntRun
  extract_lets v
  refine outKeeps_next ?_
  split
  · exact keeps_ite hs (keeps_ite (keeps_setLantern hs) (keeps_finishCmd hs))
  · exact hs

theorem outKeeps_execLntNop {d : Fin 4} {n : Fin 8} (hs : Keeps σ s) : OutKeeps σ (execLntNop d n s) := by
  unfold execLntNop
  exact outKeeps_next (keeps_lnRow hs (fun r1 i1 => keeps_lnDone hs))

theorem outKeeps_execLntEnd {d : Fin 4} {n : Fin 8} (hs : Keeps σ s) : OutKeeps σ (execLntEnd d n s) := by
  unfold execLntEnd
  refine outKeeps_next ?_
  refine keeps_lnRow hs ?_
  intro r1 i1
  extract_lets v
  split
  · exact hs
  · exact keeps_ite (keeps_lnFinish (keeps_setLantern hs)) (keeps_setLantern hs)

theorem outKeeps_execLntSetrm {d : Fin 4} {n : Fin 8} (hs : Keeps σ s) : OutKeeps σ (execLntSetrm d n s) := by
  unfold execLntSetrm
  exact outKeeps_next (keeps_lnRow hs (fun r1 i1 => keeps_lnDone hs))

theorem outKeeps_execLntLane {d : Fin 4} {n : Fin 8} (hs : Keeps σ s) : OutKeeps σ (execLntLane d n s) := by
  unfold execLntLane
  exact outKeeps_next (keeps_lnRow hs (fun r1 i1 => keeps_setLantern hs))

theorem keeps_rdRows {d len : Nat} {port : Word} {l : List Nat} (hs : Keeps σ s) : Keeps σ (rdRows s d port l len).2 := by
  induction l generalizing s with
  | nil => exact hs
  | cons x l ih =>
    unfold rdRows
    split
    · exact keeps_of_snd_eq ‹_› (keeps_rdVault hs)
    · split <;> exact keeps_of_snd_eq ‹_› (ih (keeps_of_snd_eq ‹_› (keeps_rdVault hs)))

theorem outKeeps_execLntLd {d : Fin 4} {n : Fin 8} (hs : Keeps σ s) : OutKeeps σ (execLntLd d n s) := by
  unfold execLntLd
  refine outKeeps_next ?_
  refine keeps_lnRow hs ?_
  intro r1 i1
  split
  · exact hs
  · split
    · split
      · exact keeps_of_snd_eq ‹_› (keeps_rdRows hs)
      · exact keeps_lnMove (keeps_of_snd_eq ‹_› (keeps_rdRows hs))
    · exact keeps_lnFinish hs

theorem outKeeps_execLntSt {d : Fin 4} {n : Fin 8} (hs : Keeps σ s) : OutKeeps σ (execLntSt d n s) := by
  unfold execLntSt
  refine outKeeps_next ?_
  refine keeps_lnRow hs ?_
  intro r1 i1
  split
  · exact hs
  · split
    · extract_lets xs rows
      split
      · exact keeps_of_snd_eq ‹_› (keeps_wrRows hs)
      · exact keeps_lnDone (keeps_of_wrRows ‹_› hs)
    · exact keeps_lnFinish hs

theorem keeps_lnStore {d : Fin 4} {n : Fin 8} {r r1 : LnRun} {i : LnInsn} {bs : List Byte} (hs : Keeps σ s) :
    Keeps σ (lnStore s d n r r1 i bs) := by
  unfold lnStore
  split
  · exact keeps_lnDone hs
  · split
    · exact keeps_of_snd_eq ‹_› (keeps_wrVault hs)
    · exact keeps_lnDone (keeps_of_wrVault ‹_› hs)

theorem outKeeps_execLntStn {d : Fin 4} {n : Fin 8} (hs : Keeps σ s) : OutKeeps σ (execLntStn d n s) := by
  unfold execLntStn
  refine outKeeps_next ?_
  refine keeps_lnRow hs ?_
  intro r1 i1
  split
  · exact hs
  · extract_lets v len r1'
    exact keeps_ite (keeps_lnStore hs) (keeps_lnFinish hs)

theorem outKeeps_execLntStk {d : Fin 4} {n : Fin 8} (hs : Keeps σ s) : OutKeeps σ (execLntStk d n s) := by
  unfold execLntStk
  exact outKeeps_next (keeps_lnRow hs (fun r1 i1 => keeps_ite (keeps_lnStore hs) (keeps_lnFinish hs)))

theorem keeps_prdStall {d : Fin 4} {n : Fin 8} {row : Nat} (hs : Keeps σ s) : Keeps σ (prdStall s d n row) := by
  unfold prdStall
  split
  · extract_lets w
    exact keeps_setLantern (keeps_drawWord hs)
  · exact hs

theorem outKeeps_execLntPrd {d : Fin 4} {n : Fin 8} (hs : Keeps σ s) : OutKeeps σ (execLntPrd d n s) := by
  unfold execLntPrd
  refine outKeeps_next ?_
  refine keeps_lnRow hs ?_
  intro r1 i1
  extract_lets p
  exact keeps_ite (keeps_lnWrite (keeps_prdStall hs)) hs

theorem outKeeps_execLntPrdx {d : Fin 4} {n : Fin 8} (hs : Keeps σ s) : OutKeeps σ (execLntPrdx d n s) := by
  unfold execLntPrdx
  refine outKeeps_next ?_
  refine keeps_lnRow hs ?_
  intro r1 i1
  extract_lets p s1 errs s2
  have hs1 : Keeps σ s1 := keeps_prdStall hs
  have hs2 : Keeps σ s2 := keeps_setLantern hs1
  exact keeps_ite (keeps_lnMove hs2) hs

theorem outKeeps_execLntMov {d : Fin 4} {n : Fin 8} (hs : Keeps σ s) : OutKeeps σ (execLntMov d n s) := by
  unfold execLntMov
  exact outKeeps_next (keeps_lnRow hs (fun r1 i1 => keeps_lnMove hs))

theorem keeps_lnPermute {d : Fin 4} {n : Fin 8} {r : LnRun} {i : LnInsn} {f : Nat → Nat → Nat × Nat} (hs : Keeps σ s) :
    Keeps σ (lnPermute s d n r i f) := by
  unfold lnPermute
  extract_lets a
  exact keeps_lnMove hs

theorem outKeeps_execLntTrn {d : Fin 4} {n : Fin 8} (hs : Keeps σ s) : OutKeeps σ (execLntTrn d n s) := by
  unfold execLntTrn
  exact outKeeps_next (keeps_lnRow hs (fun r1 i1 => keeps_lnPermute hs))

theorem outKeeps_execLntBcr {d : Fin 4} {n : Fin 8} (hs : Keeps σ s) : OutKeeps σ (execLntBcr d n s) := by
  unfold execLntBcr
  exact outKeeps_next (keeps_lnRow hs (fun r1 i1 => keeps_lnPermute hs))

theorem outKeeps_execLntBcc {d : Fin 4} {n : Fin 8} (hs : Keeps σ s) : OutKeeps σ (execLntBcc d n s) := by
  unfold execLntBcc
  exact outKeeps_next (keeps_lnRow hs (fun r1 i1 => keeps_lnPermute hs))

theorem outKeeps_execLntLid {d : Fin 4} {n : Fin 8} (hs : Keeps σ s) : OutKeeps σ (execLntLid d n s) := by
  unfold execLntLid
  exact outKeeps_next (keeps_lnRow hs (fun r1 i1 => keeps_lnMove hs))

theorem outKeeps_execLntRix {d : Fin 4} {n : Fin 8} (hs : Keeps σ s) : OutKeeps σ (execLntRix d n s) := by
  unfold execLntRix
  refine outKeeps_next ?_
  refine keeps_lnRow hs ?_
  intro r1 i1
  extract_lets v
  exact keeps_lnMove hs

theorem outKeeps_execLntSel {d : Fin 4} {n : Fin 8} (hs : Keeps σ s) : OutKeeps σ (execLntSel d n s) := by
  unfold execLntSel
  refine outKeeps_next ?_
  refine keeps_lnRow hs ?_
  intro r1 i1
  extract_lets v
  exact keeps_lnMove hs

theorem outKeeps_execLntAdd {d : Fin 4} {n : Fin 8} (hs : Keeps σ s) : OutKeeps σ (execLntAdd d n s) := by
  unfold execLntAdd
  exact outKeeps_next (keeps_lnRow hs (fun r1 i1 => keeps_lnBinary hs))

theorem outKeeps_execLntSub {d : Fin 4} {n : Fin 8} (hs : Keeps σ s) : OutKeeps σ (execLntSub d n s) := by
  unfold execLntSub
  exact outKeeps_next (keeps_lnRow hs (fun r1 i1 => keeps_lnBinary hs))

theorem outKeeps_execLntMul {d : Fin 4} {n : Fin 8} (hs : Keeps σ s) : OutKeeps σ (execLntMul d n s) := by
  unfold execLntMul
  exact outKeeps_next (keeps_lnRow hs (fun r1 i1 => keeps_lnBinary hs))

theorem outKeeps_execLntFma {d : Fin 4} {n : Fin 8} (hs : Keeps σ s) : OutKeeps σ (execLntFma d n s) := by
  unfold execLntFma
  refine outKeeps_next ?_
  refine keeps_lnRow hs ?_
  intro r1 i1
  extract_lets v f
  exact keeps_lnWrite hs

theorem outKeeps_execLntMin {d : Fin 4} {n : Fin 8} (hs : Keeps σ s) : OutKeeps σ (execLntMin d n s) := by
  unfold execLntMin
  exact outKeeps_next (keeps_lnRow hs (fun r1 i1 => keeps_lnBinary hs))

theorem outKeeps_execLntMax {d : Fin 4} {n : Fin 8} (hs : Keeps σ s) : OutKeeps σ (execLntMax d n s) := by
  unfold execLntMax
  exact outKeeps_next (keeps_lnRow hs (fun r1 i1 => keeps_lnBinary hs))

theorem outKeeps_execLntAbs {d : Fin 4} {n : Fin 8} (hs : Keeps σ s) : OutKeeps σ (execLntAbs d n s) := by
  unfold execLntAbs
  exact outKeeps_next (keeps_lnRow hs (fun r1 i1 => keeps_lnUnary hs))

theorem outKeeps_execLntNeg {d : Fin 4} {n : Fin 8} (hs : Keeps σ s) : OutKeeps σ (execLntNeg d n s) := by
  unfold execLntNeg
  exact outKeeps_next (keeps_lnRow hs (fun r1 i1 => keeps_lnUnary hs))

theorem outKeeps_execLntDiv {d : Fin 4} {n : Fin 8} (hs : Keeps σ s) : OutKeeps σ (execLntDiv d n s) := by
  unfold execLntDiv
  exact outKeeps_next (keeps_lnRow hs (fun r1 i1 => keeps_lnBinary hs))

theorem outKeeps_execLntSqrt {d : Fin 4} {n : Fin 8} (hs : Keeps σ s) : OutKeeps σ (execLntSqrt d n s) := by
  unfold execLntSqrt
  exact outKeeps_next (keeps_lnRow hs (fun r1 i1 => keeps_lnUnary hs))

theorem keeps_lnBits {d : Fin 4} {n : Fin 8} {r : LnRun} {i : LnInsn} {f : Nat → Nat → Nat} (hs : Keeps σ s) :
    Keeps σ (lnBits s d n r i f) := by
  unfold lnBits
  exact keeps_lnBinary hs

theorem outKeeps_execLntAnd {d : Fin 4} {n : Fin 8} (hs : Keeps σ s) : OutKeeps σ (execLntAnd d n s) := by
  unfold execLntAnd
  exact outKeeps_next (keeps_lnRow hs (fun r1 i1 => keeps_lnBits hs))

theorem outKeeps_execLntOr {d : Fin 4} {n : Fin 8} (hs : Keeps σ s) : OutKeeps σ (execLntOr d n s) := by
  unfold execLntOr
  exact outKeeps_next (keeps_lnRow hs (fun r1 i1 => keeps_lnBits hs))

theorem outKeeps_execLntXor {d : Fin 4} {n : Fin 8} (hs : Keeps σ s) : OutKeeps σ (execLntXor d n s) := by
  unfold execLntXor
  exact outKeeps_next (keeps_lnRow hs (fun r1 i1 => keeps_lnBits hs))

theorem outKeeps_execLntShl {d : Fin 4} {n : Fin 8} (hs : Keeps σ s) : OutKeeps σ (execLntShl d n s) := by
  unfold execLntShl
  exact outKeeps_next (keeps_lnRow hs (fun r1 i1 => keeps_lnBits hs))

theorem outKeeps_execLntShr {d : Fin 4} {n : Fin 8} (hs : Keeps σ s) : OutKeeps σ (execLntShr d n s) := by
  unfold execLntShr
  exact outKeeps_next (keeps_lnRow hs (fun r1 i1 => keeps_lnBits hs))

theorem outKeeps_execLntCeq {d : Fin 4} {n : Fin 8} (hs : Keeps σ s) : OutKeeps σ (execLntCeq d n s) := by
  unfold execLntCeq
  exact outKeeps_next (keeps_lnRow hs (fun r1 i1 => keeps_lnCompare hs))

theorem outKeeps_execLntClt {d : Fin 4} {n : Fin 8} (hs : Keeps σ s) : OutKeeps σ (execLntClt d n s) := by
  unfold execLntClt
  exact outKeeps_next (keeps_lnRow hs (fun r1 i1 => keeps_lnCompare hs))

theorem outKeeps_execLntCle {d : Fin 4} {n : Fin 8} (hs : Keeps σ s) : OutKeeps σ (execLntCle d n s) := by
  unfold execLntCle
  exact outKeeps_next (keeps_lnRow hs (fun r1 i1 => keeps_lnCompare hs))

theorem outKeeps_execLntCun {d : Fin 4} {n : Fin 8} (hs : Keeps σ s) : OutKeeps σ (execLntCun d n s) := by
  unfold execLntCun
  exact outKeeps_next (keeps_lnRow hs (fun r1 i1 => keeps_lnCompare hs))

theorem outKeeps_execLntCvt {d : Fin 4} {n : Fin 8} (hs : Keeps σ s) : OutKeeps σ (execLntCvt d n s) := by
  unfold execLntCvt
  refine outKeeps_next ?_
  refine keeps_lnRow hs ?_
  intro r1 i1
  split
  · extract_lets v g nc o
    exact keeps_lnDone (keeps_setLantern hs)
  · exact hs

theorem keeps_lnNonlin {d : Fin 4} {n : Fin 8} {r : LnRun} {i : LnInsn} {f : FFmt → Nat → Nat × Exc} (hs : Keeps σ s) :
    Keeps σ (lnNonlin s d n r i f) := by
  unfold lnNonlin
  exact keeps_lnUnary hs

theorem outKeeps_execLntExp {d : Fin 4} {n : Fin 8} (hs : Keeps σ s) : OutKeeps σ (execLntExp d n s) := by
  unfold execLntExp
  exact outKeeps_next (keeps_lnRow hs (fun r1 i1 => keeps_lnNonlin hs))

theorem outKeeps_execLntLn {d : Fin 4} {n : Fin 8} (hs : Keeps σ s) : OutKeeps σ (execLntLn d n s) := by
  unfold execLntLn
  exact outKeeps_next (keeps_lnRow hs (fun r1 i1 => keeps_lnNonlin hs))

theorem outKeeps_execLntSigm {d : Fin 4} {n : Fin 8} (hs : Keeps σ s) : OutKeeps σ (execLntSigm d n s) := by
  unfold execLntSigm
  exact outKeeps_next (keeps_lnRow hs (fun r1 i1 => keeps_lnNonlin hs))

theorem outKeeps_execLntTanh {d : Fin 4} {n : Fin 8} (hs : Keeps σ s) : OutKeeps σ (execLntTanh d n s) := by
  unfold execLntTanh
  exact outKeeps_next (keeps_lnRow hs (fun r1 i1 => keeps_lnNonlin hs))

theorem outKeeps_execLntRcp {d : Fin 4} {n : Fin 8} (hs : Keeps σ s) : OutKeeps σ (execLntRcp d n s) := by
  unfold execLntRcp
  exact outKeeps_next (keeps_lnRow hs (fun r1 i1 => keeps_lnNonlin hs))

theorem outKeeps_execLntRsqrt {d : Fin 4} {n : Fin 8} (hs : Keeps σ s) : OutKeeps σ (execLntRsqrt d n s) := by
  unfold execLntRsqrt
  exact outKeeps_next (keeps_lnRow hs (fun r1 i1 => keeps_lnNonlin hs))

theorem outKeeps_execLntRed {d : Fin 4} {n : Fin 8} (hs : Keeps σ s) : OutKeeps σ (execLntRed d n s) := by
  unfold execLntRed
  refine outKeeps_next ?_
  refine keeps_lnRow hs ?_
  intro r1 i1
  extract_lets cut a cols one rs xs
  exact keeps_lnDone (keeps_setLantern hs)

theorem outKeeps_execLntCprs {d : Fin 4} {n : Fin 8} (hs : Keeps σ s) : OutKeeps σ (execLntCprs d n s) := by
  unfold execLntCprs
  refine outKeeps_next ?_
  refine keeps_lnRow hs ?_
  intro r1 i1
  extract_lets v act
  exact keeps_lnMove (keeps_setLantern hs)

theorem outKeeps_execLntXpnd {d : Fin 4} {n : Fin 8} (hs : Keeps σ s) : OutKeeps σ (execLntXpnd d n s) := by
  unfold execLntXpnd
  refine outKeeps_next ?_
  refine keeps_lnRow hs ?_
  intro r1 i1
  extract_lets v
  exact keeps_lnMove hs

theorem outKeeps_execLntStallRead {d : Fin 4} {n : Fin 8} (hs : Keeps σ s) : OutKeeps σ (execLntStallRead d n s) := by
  unfold execLntStallRead
  exact outKeeps_next (keeps_ite (keeps_setLantern (keeps_outRead hs)) hs)

theorem outKeeps_execLntStepsRead {d : Fin 4} {n : Fin 8} (hs : Keeps σ s) : OutKeeps σ (execLntStepsRead d n s) := by
  unfold execLntStepsRead
  exact outKeeps_next (keeps_ite (keeps_setLantern (keeps_outRead hs)) hs)

end Sys2Proof.Machine
end

section
/-! What every command keeps: links. -/

namespace Sys2Proof.Machine

variable {σ s : State}

theorem keeps_sendFlit {e : Ep} {v : Endp} {f : Flit} (hs : Keeps σ s) : Keeps σ (sendFlit s e v f) := by
  unfold sendFlit
  exact keeps_output (keeps_setEndp hs)

theorem keeps_sendPlain {e : Ep} {fk : Nat} {nak : Bool} (hs : Keeps σ s) : Keeps σ (sendPlain s e fk nak) := by
  unfold sendPlain
  extract_lets v
  exact keeps_sendFlit hs

theorem keeps_sendCtrl {e : Ep} {nak : Bool} (hs : Keeps σ s) : Keeps σ (sendCtrl s e nak) := by
  unfold sendCtrl
  extract_lets v
  exact keeps_ite (keeps_setEndp hs) (keeps_sendPlain hs)

theorem keeps_markSent {e : Nat} {f : TxFlit} (hs : Keeps σ s) : Keeps σ (markSent s e f) := by
  unfold markSent
  split
  · exact hs
  · extract_lets pa
    exact keeps_ite hs (keeps_setParty hs)

theorem keeps_callAfter {e : Nat} {f : TxFlit} (hs : Keeps σ s) : Keeps σ (callAfter s e f) := by
  unfold callAfter
  split
  · exact hs
  · split
    · exact hs
    · exact keeps_sendTxn (keeps_setParty hs)

theorem keeps_noteT3 {f : TxFlit} (hs : Keeps σ s) : Keeps σ (noteT3 s f) := by
  unfold noteT3
  split
  · exact keeps_ite (keeps_withNld hs) hs
  · exact hs

theorem keeps_rowTaken {e : Nat} {f : TxFlit} {rest : List TxFlit} (hs : Keeps σ s) :
    Keeps σ (rowTaken s e f rest) := by
  unfold rowTaken
  split
  · exact hs
  · split
    · exact hs
    · split
      · exact keeps_chainTaken (keeps_orphan hs)
      · exact hs

theorem keeps_sendSeq {e : Ep} {f : TxFlit} {rest : List TxFlit} (hs : Keeps σ s) : Keeps σ (sendSeq s e f rest) := by
  unfold sendSeq
  extract_lets v x _ v1 s1
  have hs1 : Keeps σ s1 := keeps_sendFlit hs
  exact keeps_rowTaken (keeps_noteT3 (keeps_callAfter (keeps_markSent hs1)))

theorem keeps_ctrlAfter {e : Ep} (hs : Keeps σ s) : Keeps σ (ctrlAfter s e) := by
  unfold ctrlAfter
  extract_lets v
  exact keeps_ite hs (keeps_sendPlain (keeps_setEndp hs))

theorem outKeeps_execFlitSend {e : Ep} (hs : Keeps σ s) : OutKeeps σ (execFlitSend e s) := by
  unfold execFlitSend
  extract_lets v
  refine outKeeps_next ?_
  split
  · split
    · exact keeps_ctrlAfter (keeps_sendSeq hs)
    · exact keeps_ite (keeps_sendPlain hs) hs
  · exact hs

theorem outKeeps_execAckDue {e : Ep} (hs : Keeps σ s) : OutKeeps σ (execAckDue e s) := by
  unfold execAckDue
  extract_lets v
  exact outKeeps_next (keeps_ite (keeps_sendCtrl hs) hs)

theorem keeps_attemptFails {e : Nat} (hs : Keeps σ s) : Keeps σ (attemptFails s e) := by
  unfold attemptFails
  extract_lets _ v
  exact keeps_ite (keeps_goDown (keeps_setEndp hs)) (keeps_setEndp hs)

theorem keeps_trigger {e : Nat} {err : BitVec 5} (hs : Keeps σ s) : Keeps σ (trigger s e err) := by
  unfold trigger
  extract_lets _ v _ s1
  have hs1 : Keeps σ s1 := keeps_setEndp hs
  split
  · exact keeps_ite hs1 (keeps_setEndp hs1)
  · exact keeps_ite (keeps_attemptFails (keeps_setEndp hs)) (keeps_setEndp hs)
  · exact hs

theorem outKeeps_execLaneLockLoss {p : Fin 4} (hs : Keeps σ s) : OutKeeps σ (execLaneLockLoss p s) := by
  unfold execLaneLockLoss
  exact outKeeps_next (keeps_trigger hs)

theorem outKeeps_execLaneNoProgress {e : Ep} (hs : Keeps σ s) : OutKeeps σ (execLaneNoProgress e s) := by
  unfold execLaneNoProgress
  exact outKeeps_next (keeps_ite (keeps_trigger hs) hs)

theorem keeps_retrainSet {e : Nat} (hs : Keeps σ s) : Keeps σ (retrainSet s e) := by
  unfold retrainSet
  exact keeps_ite (keeps_trigger hs) hs

theorem outKeeps_execNldRetrainWrite {e : Ep} (hs : Keeps σ s) : OutKeeps σ (execNldRetrainWrite e s) := by
  unfold execNldRetrainWrite
  exact outKeeps_next (keeps_ite (keeps_retrainSet hs) hs)

theorem outKeeps_execBlockLockAcquired {e : Ep} (hs : Keeps σ s) : OutKeeps σ (execBlockLockAcquired e s) := by
  unfold execBlockLockAcquired
  extract_lets v
  exact outKeeps_next (keeps_ite (keeps_output (keeps_setEndp hs)) hs)

theorem keeps_resendAll {e : Ep} {l : List (Byte × TxFlit)} (hs : Keeps σ s) : Keeps σ (resendAll s e l) := by
  induction l generalizing s with
  | nil => exact hs
  | cons x l ih =>
    unfold resendAll
    extract_lets v
    exact ih (keeps_sendFlit hs)

theorem keeps_resumeUp {e : Ep} {m : ResumeMsg} (hs : Keeps σ s) : Keeps σ (resumeUp s e m) := by
  unfold resumeUp
  extract_lets v k v1
  exact keeps_resendAll (keeps_setEndp hs)

theorem outKeeps_execNldResumeFlit {e : Ep} {m : ResumeMsg} (hs : Keeps σ s) :
    OutKeeps σ (execNldResumeFlit e m s) := by
  unfold execNldResumeFlit
  extract_lets v s1
  have hs1 : Keeps σ s1 := keeps_setEndp hs
  exact outKeeps_next (keeps_ite (keeps_ite (keeps_attemptFails (keeps_setEndp hs))
    (keeps_ite (keeps_attemptFails hs1) (keeps_resumeUp hs1))) hs)

theorem outKeeps_execRetrainLimitExpiry {e : Ep} (hs : Keeps σ s) : OutKeeps σ (execRetrainLimitExpiry e s) := by
  unfold execRetrainLimitExpiry
  extract_lets v
  exact outKeeps_next (keeps_ite (keeps_attemptFails hs) hs)

theorem outKeeps_execExtPortTrainTimeout {p : Fin 4} (hs : Keeps σ s) : OutKeeps σ (execExtPortTrainTimeout p s) := by
  unfold execExtPortTrainTimeout
  extract_lets v
  exact outKeeps_next (keeps_ite (keeps_goDown hs) hs)

theorem keeps_nakDo {e : Ep} (hs : Keeps σ s) : Keeps σ (nakDo s e) := by
  unfold nakDo
  extract_lets v v1 s1
  have hs1 : Keeps σ s1 := keeps_resendAll (keeps_setEndp hs)
  exact keeps_ite hs (keeps_ite (keeps_trigger hs1) hs1)

theorem outKeeps_execNakReceive {e : Ep} {ack : BitVec 8} (hs : Keeps σ s) : OutKeeps σ (execNakReceive e ack s) := by
  unfold execNakReceive
  extract_lets v
  refine outKeeps_next ?_
  split
  · split
    · exact keeps_trigger hs
    · exact keeps_nakDo (keeps_setEndp hs)
  · exact hs

theorem keeps_protocolError {e : Nat} (hs : Keeps σ s) : Keeps σ (protocolError s e) := by
  unfold protocolError
  exact keeps_trigger hs

theorem keeps_seqFlit {e : Ep} {f : Flit} (hs : Keeps σ s) : Keeps σ (seqFlit s e f) := by
  unfold seqFlit
  extract_lets v
  split
  · split
    · exact keeps_protocolError hs
    · extract_lets s1
      have hs1 : Keeps σ s1 := keeps_setEndp hs
      exact keeps_ite (keeps_sendCtrl hs1) hs1
  · exact hs

theorem keeps_goodFlit {e : Ep} {f : Flit} (hs : Keeps σ s) : Keeps σ (goodFlit s e f) := by
  unfold goodFlit
  extract_lets v
  split
  · exact keeps_protocolError hs
  · split
    · exact keeps_protocolError hs
    · extract_lets s1 s2
      have hs1 : Keeps σ s1 := keeps_setEndp hs
      have hs2 : Keeps σ s2 := keeps_ite (keeps_nakDo hs1) hs1
      exact keeps_ite (keeps_seqFlit hs2) hs2

theorem outKeeps_execFlitReceive {e : Ep} {f : Flit} (hs : Keeps σ s) : OutKeeps σ (execFlitReceive e f s) := by
  unfold execFlitReceive
  extract_lets v
  exact outKeeps_next (keeps_ite (keeps_ite (keeps_goodFlit (keeps_ite (keeps_fTakes hs) hs))
    (keeps_sendCtrl (keeps_setEndp hs))) hs)

theorem outKeeps_execHfKeepalive (hs : Keeps σ s) : OutKeeps σ (execHfKeepalive s) := by
  unfold execHfKeepalive
  exact outKeeps_next (keeps_ite (keeps_fTakes (keeps_sendCtrl hs)) hs)

theorem keeps_sendTsync {p : Nat} {m : TsyncMsg} (hs : Keeps σ s) : Keeps σ (sendTsync s p m) := by
  unfold sendTsync
  split
  · exact hs
  · exact keeps_sendAs hs

theorem keeps_answerTsync {p : Nat} {m : TsyncMsg} {tid : BitVec 16} (hs : Keeps σ s) :
    Keeps σ (answerTsync s p m tid) := by
  unfold answerTsync
  split
  · exact keeps_sendTxn hs
  · exact hs

theorem keeps_tsyncBegin {master hops : BitVec 3} {l : List Nat} (hs : Keeps σ s) :
    Keeps σ (tsyncBegin s master hops l) := by
  induction l generalizing s with
  | nil => exact hs
  | cons x l ih =>
    unfold tsyncBegin
    exact ih (keeps_sendTsync hs)

theorem outKeeps_execTsyncPeriod (hs : Keeps σ s) : OutKeeps σ (execTsyncPeriod s) := by
  unfold execTsyncPeriod
  exact outKeeps_next (keeps_ite (keeps_tsyncBegin hs) hs)

theorem keeps_tsyncAnswer {p : Fin 4} {m : TsyncMsg} {tid : BitVec 16} (hs : Keeps σ s) :
    Keeps σ (tsyncAnswer s p m tid) := by
  unfold tsyncAnswer
  exact keeps_answerTsync (keeps_ite (keeps_withNld hs) hs)

theorem keeps_tsyncClose {p : Fin 4} {m : TsyncMsg} {tid : BitVec 16} (hs : Keeps σ s) :
    Keeps σ (tsyncClose s p m tid) := by
  unfold tsyncClose
  split
  · exact hs
  · extract_lets s1
    have hs1 : Keeps σ s1 := keeps_dropAsk hs
    exact keeps_ite (keeps_sendTsync hs1) hs1

theorem keeps_tsyncSet {p : Fin 4} {m : TsyncMsg} {t2 t3 : Time} (hs : Keeps σ s) :
    Keeps σ (tsyncSet s p m t2 t3) := by
  unfold tsyncSet
  extract_lets _ s1
  have hs1 : Keeps σ s1 := keeps_withNld hs
  exact keeps_tsyncBegin hs1

theorem keeps_tsyncFinal {p : Fin 4} {m : TsyncMsg} (hs : Keeps σ s) : Keeps σ (tsyncFinal s p m) := by
  unfold tsyncFinal
  split
  · exact hs
  · exact keeps_ite (keeps_tsyncSet hs) hs

theorem keeps_tsyncLeg {p : Fin 4} {m : TsyncMsg} {tid : BitVec 16} (hs : Keeps σ s) :
    Keeps σ (tsyncLeg s p m tid) := by
  unfold tsyncLeg
  split
  · exact keeps_tsyncAnswer hs
  · exact keeps_tsyncClose hs
  · exact keeps_tsyncFinal (keeps_answerTsync hs)

theorem keeps_nldLockSet {v : Word} (hs : Keeps σ s) : Keeps σ (nldLockSet s v) := by
  unfold nldLockSet
  exact keeps_ite hs (keeps_withNld hs)

theorem outKeeps_execNldLockWrite {v : BitVec 32} (hs : Keeps σ s) : OutKeeps σ (execNldLockWrite v s) := by
  unfold execNldLockWrite
  exact outKeeps_next (keeps_nldLockSet hs)

theorem keeps_chipidSet {v : Word} (hs : Keeps σ s) : Keeps σ (chipidSet s v) := by
  unfold chipidSet
  exact keeps_ite hs (keeps_withNld hs)

theorem keeps_routeSet {v : Word} (hs : Keeps σ s) : Keeps σ (routeSet s v) := by
  unfold routeSet
  exact keeps_ite hs (keeps_withNld hs)

theorem keeps_epCtlSet {e : Nat} {v : Word} (hs : Keeps σ s) : Keeps σ (epCtlSet s e v) := by
  unfold epCtlSet
  extract_lets x s1
  have hs1 : Keeps σ s1 := keeps_ite (keeps_setEndp hs) hs
  exact keeps_ite (keeps_retrainSet hs1) hs1

theorem outKeeps_execNldEpCounterRead {e : Ep} {k : EpCounter} (hs : Keeps σ s) :
    OutKeeps σ (execNldEpCounterRead e k s) := by
  unfold execNldEpCounterRead
  extract_lets v x
  exact outKeeps_next (keeps_ite (keeps_setEndp (keeps_outRead (keeps_dieSays hs))) hs)

end Sys2Proof.Machine
end

section
/-! What every command keeps: the memory controller's commands. -/

namespace Sys2Proof.Machine

variable {σ s : State}

theorem keeps_memCfgSet {v : Word} (hs : Keeps σ s) : Keeps σ (memCfgSet s v) := by
  unfold memCfgSet
  exact keeps_ite (keeps_withLpddr hs (fun h => h)) hs

theorem outKeeps_execMemCfgWrite {v : BitVec 32} (hs : Keeps σ s) : OutKeeps σ (execMemCfgWrite v s) := by
  unfold execMemCfgWrite
  exact outKeeps_next (keeps_memCfgSet hs)

theorem keeps_trainFailed {fails : BitVec 16} (hs : Keeps σ s) : Keeps σ (trainFailed s fails) := by
  unfold trainFailed
  extract_lets _ s1
  have hs1 : Keeps σ s1 := keeps_withLpddr hs (fun h => h)
  exact keeps_warn hs1

theorem keeps_trainStart (hs : Keeps σ s) : Keeps σ (trainStart s) := by
  unfold trainStart
  exact keeps_ite hs (keeps_ite (keeps_trainFailed hs) (keeps_withLpddr hs (fun h => h)))

theorem outKeeps_execLpddrTrainingEnd {fails : BitVec 16} (hs : Keeps σ s) :
    OutKeeps σ (execLpddrTrainingEnd fails s) := by
  unfold execLpddrTrainingEnd
  exact outKeeps_next (keeps_ite (keeps_ite (keeps_withLpddr hs (fun h => h)) (keeps_trainFailed hs)) hs)

theorem outKeeps_execMr4Poll {refm : BitVec 2} (hs : Keeps σ s) : OutKeeps σ (execMr4Poll refm s) := by
  unfold execMr4Poll
  exact outKeeps_next (keeps_ite (keeps_withLpddr hs (fun h => h)) hs)

theorem outKeeps_execLpddrRefreshLost (hs : Keeps σ s) : OutKeeps σ (execLpddrRefreshLost s) := by
  unfold execLpddrRefreshLost
  exact outKeeps_next (keeps_ite hs (keeps_withLpddr hs fun _ => rfl))

theorem keeps_serveQueues {d : Nat} {l : List Nat} (hs : Keeps σ s) : Keeps σ (serveQueues s d l) := by
  induction l generalizing s with
  | nil => exact hs
  | cons x l ih =>
    unfold serveQueues
    extract_lets s1
    have hs1 : Keeps σ s1 := keeps_admitAll hs
    exact ih (keeps_servePops hs1)

theorem outKeeps_execVaultClearDone {d : Fin 4} (hs : Keeps σ s) : OutKeeps σ (execVaultClearDone d s) := by
  unfold execVaultClearDone
  extract_lets c
  have cleared := dieKeeps_mems (dieKeeps_cd hs d) (va := []) (fun _ => rfl) id id id
  exact outKeeps_next (keeps_ite (keeps_serveQueues (keeps_setCd hs cleared)) hs)

theorem outKeeps_execMemVcorrRead {d : Fin 4} (hs : Keeps σ s) : OutKeeps σ (execMemVcorrRead d s) := by
  unfold execMemVcorrRead
  refine outKeeps_next ?_
  split
  · refine keeps_setCd (keeps_outRead hs) ?_
    extract_lets
    exact dieKeeps_cd hs _
  · exact hs

theorem lpddr_memCountClear {m : MemCtl} {k : MemCounter} : (memCountClear m k).lpddr = m.lpddr := by
  cases k <;> rfl

theorem outKeeps_execMemBurstCountRead {k : MemCounter} (hs : Keeps σ s) :
    OutKeeps σ (execMemBurstCountRead k s) := by
  unfold execMemBurstCountRead
  exact outKeeps_next (keeps_ite (keeps_withMem (keeps_outRead hs) lpddr_memCountClear) hs)

end Sys2Proof.Machine
end

section
/-! What every command keeps: sensors and caps. -/

namespace Sys2Proof.Machine

variable {σ s : State}

theorem keeps_sampleAll {xs : List (BitVec 12)} (hs : Keeps σ s) : Keeps σ (sampleAll s xs) := by
  unfold sampleAll
  extract_lets one
  exact keeps_withPower hs

theorem keeps_thermalCounts (hs : Keeps σ s) : Keeps σ (thermalCounts s) := by
  unfold thermalCounts
  extract_lets vs pk ms hot
  exact keeps_withPower hs

theorem keeps_capsFrom {was d : Nat} (hs : Keeps σ s) : Keeps σ (capsFrom s was d) := by
  unfold capsFrom
  exact keeps_ite hs (keeps_withPower hs)

theorem keeps_thermalRise {was d : Nat} (hs : Keeps σ s) : Keeps σ (thermalRise s was d) := by
  unfold thermalRise
  extract_lets i src v s1
  have hs1 : Keeps σ s1 := keeps_capsFrom hs
  split
  · exact keeps_warn hs
  · exact keeps_warn (keeps_capsFrom hs)
  · exact keeps_ite (keeps_haltFault (keeps_capsFrom hs)) (keeps_ite (keeps_withBoot hs1) hs1)
  · exact hs

theorem keeps_thermalActs {before : List Nat} {l : List Nat} (hs : Keeps σ s) : Keeps σ (thermalActs before s l) := by
  induction l generalizing s with
  | nil => exact hs
  | cons x l ih =>
    unfold thermalActs
    exact ih (keeps_ite (keeps_thermalRise hs) hs)

theorem keeps_bootCools (hs : Keeps σ s) : Keeps σ (bootCools s) := by
  unfold bootCools
  exact keeps_ite (keeps_withBoot hs) hs

theorem outKeeps_execSensorSample {samples : List (BitVec 12)} (hs : Keeps σ s) :
    OutKeeps σ (execSensorSample samples s) := by
  unfold execSensorSample
  refine outKeeps_next ?_
  split
  · extract_lets before
    exact keeps_agePackage (keeps_bootCools (keeps_thermalActs (keeps_thermalCounts (keeps_sampleAll hs))))
  · exact keeps_agePackage hs

theorem outKeeps_execThmPeakRead (hs : Keeps σ s) : OutKeeps σ (execThmPeakRead s) := by
  unfold execThmPeakRead
  refine outKeeps_next ?_
  split
  · extract_lets
    exact keeps_withPower (keeps_outRead hs)
  · exact hs

theorem outKeeps_execThmSlowtRead (hs : Keeps σ s) : OutKeeps σ (execThmSlowtRead s) := by
  unfold execThmSlowtRead
  refine outKeeps_next ?_
  split
  · extract_lets
    exact keeps_withPower (keeps_outRead hs)
  · exact hs

end Sys2Proof.Machine
end

section
/-! What every command keeps: the update engine. -/

namespace Sys2Proof.Machine

variable {σ s : State}

theorem keeps_svncSet (hs : Keeps σ s) : Keeps σ (svncSet s) := by
  unfold svncSet
  extract_lets n
  exact keeps_ite (keeps_withOtp hs) hs

theorem outKeeps_execSvnCommit (hs : Keeps σ s) : OutKeeps σ (execSvnCommit s) := by
  unfold execSvnCommit
  exact outKeeps_next (keeps_svncSet hs)

theorem keeps_setGood {slot good : Bool} (hs : Keeps σ s) : Keeps σ (setGood s slot good) := by
  unfold setGood
  exact keeps_withBoot hs

theorem keeps_updCmd {op : Nat} {slot : Bool} (hs : Keeps σ s) : Keeps σ (updCmd s op slot) := by
  unfold updCmd
  split
  · exact hs
  · extract_lets refused s1
    have hs1 : Keeps σ s1 := keeps_ite (keeps_setGood hs) hs
    exact keeps_withBoot hs1

theorem outKeeps_execUpdErase {slot : Bool} (hs : Keeps σ s) : OutKeeps σ (execUpdErase slot s) := by
  unfold execUpdErase
  exact outKeeps_next (keeps_updCmd hs)

theorem outKeeps_execUpdWrite {slot : Bool} (hs : Keeps σ s) : OutKeeps σ (execUpdWrite slot s) := by
  unfold execUpdWrite
  exact outKeeps_next (keeps_updCmd hs)

theorem outKeeps_execUpdCheck {slot : Bool} (hs : Keeps σ s) : OutKeeps σ (execUpdCheck slot s) := by
  unfold execUpdCheck
  exact outKeeps_next (keeps_updCmd hs)

theorem keeps_bootWrite {o : Nat} {v : Word} (hs : Keeps σ s) : Keeps σ (bootWrite s o v) := by
  unfold bootWrite
  extract_lets b
  exact keeps_ite (keeps_ite (keeps_svncSet hs) hs) (keeps_ite hs
    (keeps_ite (keeps_withBoot hs) (keeps_ite (keeps_withBoot hs)
    (keeps_ite (keeps_withBoot hs) (keeps_ite (keeps_withBoot hs)
    (keeps_ite (keeps_withBoot hs) (keeps_ite (keeps_updCmd hs) hs)))))))

end Sys2Proof.Machine
end

section
/-! What every command keeps: the register blocks. -/

namespace Sys2Proof.Machine

variable {σ s : State}

/-- Whatever state a read leaves, if there is something to read. -/
def RdKeeps {α : Type} (σ : State) (r : Option (α × State)) : Prop := ∀ a t, r = some (a, t) → Keeps σ t

theorem rdKeeps_none {α : Type} : RdKeeps (α := α) σ none := fun _ _ h => nomatch h

theorem rdKeeps_some {α : Type} {a : α} (hs : Keeps σ s) : RdKeeps σ (some (a, s)) := by
  intro b t h
  cases h
  exact hs

theorem rdKeeps_map {α β : Type} {r : Option (α × State)} {f : α × State → β × State} (hr : RdKeeps σ r)
    (hf : ∀ a t, Keeps σ t → Keeps σ (f (a, t)).2) : RdKeeps σ (r.map f) := by
  cases r with
  | none => exact rdKeeps_none
  | some x => exact rdKeeps_some (hf x.1 x.2 (hr _ _ rfl))

theorem rdKeeps_pure {α : Type} {o : Option α} (hs : Keeps σ s) : RdKeeps σ (o.map fun v => (v, s)) := by
  cases o with
  | none => exact rdKeeps_none
  | some v => exact rdKeeps_some hs

theorem rdKeeps_rdSame {v : Word} (hs : Keeps σ s) : RdKeeps σ (rdSame s v) := rdKeeps_some hs

theorem rdKeeps_fabRead {q d o : Nat} (hs : Keeps σ s) : RdKeeps σ (fabRead s q d o) := by
  unfold fabRead
  extract_lets v
  split
  · exact rdKeeps_some (keeps_setShadow hs)
  · exact rdKeeps_rdSame hs
  · exact rdKeeps_rdSame hs
  · exact rdKeeps_rdSame hs
  · exact rdKeeps_rdSame hs
  · exact rdKeeps_some (keeps_setSysDie hs)
  · exact rdKeeps_rdSame hs
  · exact rdKeeps_none

theorem keeps_fabWrite {d o : Nat} {x : Word} (hs : Keeps σ s) : Keeps σ (fabWrite s d o x) := by
  unfold fabWrite
  extract_lets v
  split
  · exact keeps_setSysDie hs
  · exact keeps_setSysDie hs
  · exact hs

theorem rdKeeps_twrRead {d n o : Nat} (hs : Keeps σ s) : RdKeeps σ (twrRead s d n o) := by
  unfold twrRead
  extract_lets v
  split
  · exact rdKeeps_rdSame hs
  · exact rdKeeps_rdSame hs
  · exact rdKeeps_rdSame hs
  · exact rdKeeps_some (keeps_setTower hs)
  · exact rdKeeps_none

theorem keeps_twrWrite {d n o : Nat} {x : Word} (hs : Keeps σ s) : Keeps σ (twrWrite s d n o x) := by
  unfold twrWrite
  extract_lets v
  split
  · exact keeps_setTower hs
  · exact keeps_setTower hs
  · exact hs

theorem rdKeeps_plnRead {d n o : Nat} (hs : Keeps σ s) : RdKeeps σ (plnRead s d n o) := by
  unfold plnRead
  extract_lets v
  split
  · exact rdKeeps_rdSame hs
  · exact rdKeeps_rdSame hs
  · exact rdKeeps_rdSame hs
  · exact rdKeeps_rdSame hs
  · exact rdKeeps_some (keeps_setPlinth hs)
  · exact rdKeeps_some (keeps_setPlinth hs)
  · exact rdKeeps_none

theorem keeps_plnWrite {d n o : Nat} {x : Word} (hs : Keeps σ s) : Keeps σ (plnWrite s d n o x) := by
  unfold plnWrite
  extract_lets v
  split
  · exact keeps_setPlinth hs
  · exact keeps_plSeedSet hs
  · exact keeps_setPlinth hs
  · exact hs

theorem rdKeeps_domRead {d o : Nat} (hs : Keeps σ s) : RdKeeps σ (domRead s d o) := by
  unfold domRead
  split
  · exact rdKeeps_rdSame hs
  · split
    · extract_lets v
      split <;> exact rdKeeps_rdSame hs
    · exact rdKeeps_none

theorem keeps_domWrite {d o : Nat} {x : Word} (hs : Keeps σ s) : Keeps σ (domWrite s d o x) := by
  unfold domWrite
  split
  · extract_lets n v
    exact keeps_setDome hs
  · exact hs

theorem rdKeeps_lntRead {d n o : Nat} (hs : Keeps σ s) : RdKeeps σ (lntRead s d n o) := by
  unfold lntRead
  extract_lets v
  split
  · exact rdKeeps_rdSame hs
  · exact rdKeeps_rdSame hs
  · exact rdKeeps_rdSame hs
  · exact rdKeeps_rdSame hs
  · exact rdKeeps_some (keeps_setLantern hs)
  · exact rdKeeps_some (keeps_setLantern hs)
  · exact rdKeeps_rdSame hs
  · exact rdKeeps_none

theorem keeps_lntWrite {d n o : Nat} {x : Word} (hs : Keeps σ s) : Keeps σ (lntWrite s d n o x) := by
  unfold lntWrite
  extract_lets v
  split
  · exact keeps_setLantern hs
  · exact keeps_lnSeedSet hs
  · exact keeps_setLantern hs
  · exact keeps_setLantern hs
  · exact hs

theorem keeps_spireStop {d n : Nat} (hs : Keeps σ s) : Keeps σ (spireStop s d n) := by
  unfold spireStop
  extract_lets v
  split
  · split
    · exact keeps_setSpire hs (spireKeeps_spire hs)
    · split
      · exact keeps_setSpire hs (spireKeeps_spire hs)
      · exact keeps_setSpire hs (spireKeeps_haltSpire (spireKeeps_spire hs))
  · split
    · split
      · exact keeps_setSpire hs (spireKeeps_haltSpire (spireKeeps_spire hs))
      · extract_lets s1
        have hs1 : Keeps σ s1 := keeps_setSpire hs (spireKeeps_spire hs)
        exact keeps_ite hs1 (keeps_cancelOp hs1)
    · exact keeps_setSpire hs (spireKeeps_spire hs)
  · exact keeps_setSpire hs (spireKeeps_spire hs)

theorem keeps_sprCtlSet {d n : Nat} {b : Bool} (hs : Keeps σ s) : Keeps σ (sprCtlSet s d n b) := by
  unfold sprCtlSet
  exact keeps_ite (keeps_setSpire hs (spireKeeps_ite (spireKeeps_spireStart (spireKeeps_spire hs))
    (spireKeeps_spireArm (spireKeeps_spire hs)))) (keeps_spireStop hs)

theorem outKeeps_execSprRunStart {d : Fin 4} {n : Fin 32} (hs : Keeps σ s) : OutKeeps σ (execSprRunStart d n s) := by
  unfold execSprRunStart
  exact outKeeps_next (keeps_ite hs (keeps_sprCtlSet hs))

theorem outKeeps_execSprRunStop {d : Fin 4} {n : Fin 32} (hs : Keeps σ s) : OutKeeps σ (execSprRunStop d n s) := by
  unfold execSprRunStop
  exact outKeeps_next (keeps_ite hs (keeps_sprCtlSet hs))

theorem outKeeps_execSprWtrapsRead {d : Fin 4} {n : Fin 32} (hs : Keeps σ s) :
    OutKeeps σ (execSprWtrapsRead d n s) := by
  unfold execSprWtrapsRead
  refine outKeeps_next ?_
  split
  · refine keeps_setSpire (keeps_outRead hs) ?_
    extract_lets
    exact spireKeeps_spire hs
  · exact hs

theorem rdKeeps_sprRead {d n o : Nat} (hs : Keeps σ s) : RdKeeps σ (sprRead s d n o) := by
  unfold sprRead
  extract_lets v
  split
  · exact rdKeeps_rdSame hs
  · exact rdKeeps_rdSame hs
  · exact rdKeeps_rdSame hs
  · exact rdKeeps_rdSame hs
  · exact rdKeeps_rdSame hs
  · exact rdKeeps_some (keeps_setSpire hs (spireKeeps_spire hs))
  · exact rdKeeps_none

theorem keeps_sprWrite {d n o : Nat} {x : Word} (hs : Keeps σ s) : Keeps σ (sprWrite s d n o x) := by
  unfold sprWrite
  extract_lets v
  split
  · exact keeps_sprCtlSet hs
  · exact keeps_setSpire hs (spireKeeps_spire hs)
  · exact keeps_setSpire hs (spireKeeps_spire hs)
  · exact hs

theorem rdKeeps_epRead {e o : Nat} (hs : Keeps σ s) : RdKeeps σ (epRead s e o) := by
  unfold epRead
  extract_lets v
  split
  · exact rdKeeps_rdSame hs
  · exact rdKeeps_rdSame hs
  · exact rdKeeps_rdSame hs
  · exact rdKeeps_some (keeps_setEndp hs)
  · exact rdKeeps_some (keeps_setEndp hs)
  · exact rdKeeps_some (keeps_setEndp hs)
  · exact rdKeeps_some (keeps_setEndp hs)
  · exact rdKeeps_some (keeps_setEndp hs)
  · exact rdKeeps_none

theorem keeps_epWrite {e o : Nat} {x : Word} (hs : Keeps σ s) : Keeps σ (epWrite s e o x) := by
  unfold epWrite
  split
  · exact keeps_epCtlSet hs
  · exact keeps_setEndp hs
  · exact hs

theorem rdKeeps_nldRead {q d o : Nat} (hs : Keeps σ s) : RdKeeps σ (nldRead s q d o) := by
  unfold nldRead
  split
  · split
    · exact rdKeeps_none
    · exact rdKeeps_epRead hs
  · split
    · split
      · exact rdKeeps_rdSame hs
      · exact rdKeeps_rdSame hs
      · exact rdKeeps_rdSame hs
      · exact rdKeeps_rdSame hs
      · exact rdKeeps_some (keeps_setShadow hs)
      · exact rdKeeps_rdSame hs
      · exact rdKeeps_rdSame hs
      · exact rdKeeps_none
    · exact rdKeeps_none

theorem keeps_nldWrite {d o : Nat} {x : Word} (hs : Keeps σ s) : Keeps σ (nldWrite s d o x) := by
  unfold nldWrite
  split
  · split
    · exact hs
    · exact keeps_epWrite hs
  · split
    · split
      · exact keeps_chipidSet hs
      · exact keeps_routeSet hs
      · exact keeps_nldLockSet hs
      · exact hs
    · exact hs

theorem keeps_pmemPut {d o : Nat} {bs : List Byte} (hs : Keeps σ s) : Keeps σ (pmemPut s d o bs) :=
  keeps_setCd hs (dieKeeps_mems (dieKeeps_cd hs d) id id id (memWf_memPut 0 o bs))

theorem rdKeeps_cRegRead {q d o : Nat} (hs : Keeps σ s) : RdKeeps σ (cRegRead s q d o) := by
  unfold cRegRead
  extract_lets r n
  split
  · exact rdKeeps_fabRead hs
  · split
    · exact rdKeeps_twrRead hs
    · exact rdKeeps_none
  · split
    · exact rdKeeps_plnRead hs
    · exact rdKeeps_none
  · exact rdKeeps_domRead hs
  · split
    · exact rdKeeps_lntRead hs
    · exact rdKeeps_none
  · exact rdKeeps_rdSame hs
  · exact rdKeeps_rdSame hs
  · exact rdKeeps_rdSame hs
  · exact rdKeeps_rdSame hs
  · split
    · exact rdKeeps_sprRead hs
    · exact rdKeeps_none
  · exact rdKeeps_nldRead hs
  · split
    · exact rdKeeps_some (keeps_setCd hs (dieKeeps_cd hs _))
    · split
      · exact rdKeeps_rdSame hs
      · exact rdKeeps_none
  · exact rdKeeps_none

theorem keeps_cRegWrite {d o : Nat} {x : Word} (hs : Keeps σ s) : Keeps σ (cRegWrite s d o x) := by
  unfold cRegWrite
  extract_lets r n
  split
  · exact keeps_fabWrite hs
  · exact keeps_twrWrite hs
  · exact keeps_plnWrite hs
  · exact keeps_domWrite hs
  · exact keeps_lntWrite hs
  · exact keeps_pmemPut hs
  · exact keeps_pmemPut hs
  · exact keeps_pmemPut hs
  · exact keeps_pmemPut hs
  · exact keeps_sprWrite hs
  · exact keeps_nldWrite hs
  · exact hs

theorem rdKeeps_bellRead {d o : Nat} (hs : Keeps σ s) : RdKeeps σ (bellRead s d o) := by
  unfold bellRead
  extract_lets b
  split
  · exact rdKeeps_rdSame hs
  · exact rdKeeps_rdSame hs
  · exact rdKeeps_rdSame hs
  · exact rdKeeps_rdSame hs
  · exact rdKeeps_rdSame hs
  · exact rdKeeps_none

theorem keeps_bellWrite {d o : Nat} {x : Word} (hs : Keeps σ s) : Keeps σ (bellWrite s d o x) := by
  unfold bellWrite
  extract_lets n
  split
  · exact keeps_storeBell hs
  · exact keeps_addBell hs
  · exact keeps_belCtlWrite hs
  · exact keeps_setBell hs
  · exact hs

theorem rdKeeps_queRead {d o : Nat} (hs : Keeps σ s) : RdKeeps σ (queRead s d o) := by
  unfold queRead
  extract_lets q v
  split
  · exact rdKeeps_rdSame hs
  · exact rdKeeps_rdSame hs
  · exact rdKeeps_rdSame hs
  · exact rdKeeps_rdSame hs
  · exact rdKeeps_some (keeps_setQueue hs (queueKeeps_queue hs))
  · exact rdKeeps_some (keeps_setQueue hs (queueKeeps_queue hs))
  · exact rdKeeps_rdSame hs
  · exact rdKeeps_none

theorem keeps_queWrite {d o : Nat} {x : Word} (hs : Keeps σ s) : Keeps σ (queWrite s d o x) := by
  unfold queWrite
  extract_lets q
  split
  · exact keeps_queBaseWrite hs
  · exact keeps_queCfgWrite hs
  · exact keeps_queCtlWrite hs
  · exact hs

theorem rdKeeps_faultRead {o : Nat} (hs : Keeps σ s) : RdKeeps σ (faultRead s o) := by
  unfold faultRead
  extract_lets f
  split
  · exact rdKeeps_rdSame hs
  · exact rdKeeps_rdSame hs
  · exact rdKeeps_rdSame hs
  · exact rdKeeps_rdSame hs
  · exact rdKeeps_rdSame hs
  · exact rdKeeps_rdSame hs
  · exact rdKeeps_rdSame hs
  · exact rdKeeps_rdSame hs
  · exact rdKeeps_rdSame hs
  · exact rdKeeps_rdSame hs
  · exact rdKeeps_rdSame hs
  · split
    · exact rdKeeps_rdSame hs
    · exact rdKeeps_none

theorem holds_faultWrite {o : Nat} {x : Word} (hs : Holds σ s) : Holds σ (faultWrite s o x) := by
  unfold faultWrite
  extract_lets f
  split
  · exact (hs.step (.refl _)).step (keeps_settleHost (.refl _))
  · exact (hs.step (.refl _)).step (keeps_settleHost (.refl _))
  · exact hs.step (.refl _)
  · exact hs.step (keeps_flogHeadSet (.refl _))
  · exact hs.step (.refl _)
  · exact holds_wdSet hs
  · exact holds_recovWrite hs
  · exact hs.step (.refl _)
  · exact hs

theorem rdKeeps_govRead {o : Nat} (hs : Keeps σ s) : RdKeeps σ (govRead s o) := by
  unfold govRead
  extract_lets p
  split
  · exact rdKeeps_rdSame hs
  · split
    · exact rdKeeps_rdSame hs
    · split
      · exact rdKeeps_rdSame hs
      · split
        · exact rdKeeps_rdSame hs
        · split
          · exact rdKeeps_rdSame hs
          · split
            · exact rdKeeps_some (keeps_withPower hs)
            · split
              · exact rdKeeps_rdSame hs
              · exact rdKeeps_none

theorem keeps_govWrite {o : Nat} {x : Word} (hs : Keeps σ s) : Keeps σ (govWrite s o x) := by
  unfold govWrite
  extract_lets p
  exact keeps_ite (keeps_withPower hs) (keeps_ite (keeps_withPower hs)
    (keeps_ite (keeps_vreqSet hs) (keeps_ite (keeps_withPower hs) hs)))

theorem rdKeeps_thmRead {o : Nat} (hs : Keeps σ s) : RdKeeps σ (thmRead s o) := by
  unfold thmRead
  split
  · exact rdKeeps_rdSame hs
  · split
    · exact rdKeeps_rdSame hs
    · split
      · exact rdKeeps_some (keeps_withPower hs)
      · split
        · exact rdKeeps_some (keeps_withPower hs)
        · split
          · extract_lets i v
            exact rdKeeps_rdSame hs
          · exact rdKeeps_none

theorem rdKeeps_memRead_ {o : Nat} (hs : Keeps σ s) : RdKeeps σ (memRead_ s o) := by
  unfold memRead_
  extract_lets m v
  split
  · exact rdKeeps_rdSame hs
  · exact rdKeeps_rdSame hs
  · exact rdKeeps_rdSame hs
  · exact rdKeeps_some (keeps_withLpddr hs (fun h => h))
  · exact rdKeeps_some (keeps_withLpddr hs (fun h => h))
  · exact rdKeeps_some (keeps_withLpddr hs (fun h => h))
  · split
    · split
      · exact rdKeeps_rdSame hs
      · split
        · exact rdKeeps_rdSame hs
        · exact rdKeeps_none
    · exact rdKeeps_none

theorem keeps_memWrite_ {o : Nat} {x : Word} (hs : Keeps σ s) : Keeps σ (memWrite_ s o x) := by
  unfold memWrite_
  split
  · exact keeps_memCfgSet hs
  · exact keeps_withLpddr hs (fun h => h)
  · split
    · extract_lets m v
      exact keeps_setMover hs
    · exact hs

theorem rdKeeps_pciRead {o : Nat} (hs : Keeps σ s) : RdKeeps σ (pciRead s o) := by
  unfold pciRead
  split
  · exact rdKeeps_rdSame hs
  · exact rdKeeps_rdSame hs
  · exact rdKeeps_rdSame hs
  · exact rdKeeps_rdSame hs
  · exact rdKeeps_some (keeps_withHost hs rfl)
  · exact rdKeeps_rdSame hs
  · exact rdKeeps_rdSame hs
  · exact rdKeeps_rdSame hs
  · exact rdKeeps_rdSame hs
  · exact rdKeeps_rdSame hs
  · exact rdKeeps_rdSame hs
  · split
    · split
      · exact rdKeeps_rdSame hs
      · exact rdKeeps_none
    · split
      · exact rdKeeps_rdSame hs
      · split
        · exact rdKeeps_rdSame hs
        · split
          · exact rdKeeps_rdSame hs
          · exact rdKeeps_none

theorem keeps_pciWrite {o : Nat} {x : Word} (hs : Keeps σ s) : Keeps σ (pciWrite s o x) := by
  unfold pciWrite
  split
  · exact keeps_withHost hs rfl
  · split
    · extract_lets n
      exact keeps_ite (keeps_sqTailSet hs) (keeps_ite (keeps_cqHeadSet hs) (keeps_setSession hs))
    · exact keeps_ite (keeps_msixTabSet hs) hs

theorem rdKeeps_pciDevRead {o : Nat} (hs : Keeps σ s) : RdKeeps σ (pciDevRead s o) := by
  unfold pciDevRead
  extract_lets h
  split
  · exact rdKeeps_rdSame hs
  · exact rdKeeps_rdSame hs
  · exact rdKeeps_rdSame hs
  · exact rdKeeps_rdSame hs
  · exact rdKeeps_rdSame hs
  · exact rdKeeps_rdSame hs
  · exact rdKeeps_rdSame hs
  · exact rdKeeps_some (keeps_pciCountClear hs)
  · exact rdKeeps_some (keeps_pciCountClear hs)
  · exact rdKeeps_some (keeps_pciCountClear hs)
  · exact rdKeeps_none

theorem holds_bootOnly {t : State} (hs : Holds σ s) (ht : Holds σ t) : Holds σ (bootOnly s t) := holds_ite ht hs

theorem holds_pciDevWrite {o : Nat} {x : Word} (hs : Holds σ s) : Holds σ (pciDevWrite s o x) := by
  unfold pciDevWrite
  extract_lets h
  split
  · exact holds_bootOnly hs (hs.step (keeps_withHost (.refl _) rfl))
  · exact holds_bootOnly hs (hs.step (keeps_withHost (.refl _) rfl))
  · exact holds_bootOnly hs (hs.step (keeps_withHost (.refl _) rfl))
  · exact hs.step (keeps_withHost (.refl _) rfl)
  · exact hs.step (keeps_withHost (.refl _) rfl)
  · exact holds_hbWordSet hs
  · exact hs.step (keeps_msixSwSet (.refl _))
  · exact hs

theorem rdKeeps_ethRead {m o : Nat} (hs : Keeps σ s) : RdKeeps σ (ethRead s m o) := by
  unfold ethRead
  extract_lets v rc
  have counter : ∀ k, RdKeeps σ (rc k) := fun k => rdKeeps_some (keeps_setMac hs)
  clear_value rc
  split
  · exact rdKeeps_rdSame hs
  · exact rdKeeps_rdSame hs
  · exact rdKeeps_rdSame hs
  · exact rdKeeps_rdSame hs
  · exact rdKeeps_rdSame hs
  · exact rdKeeps_rdSame hs
  · exact counter _
  · exact counter _
  · exact counter _
  · exact counter _
  · exact counter _
  · exact rdKeeps_none

theorem keeps_ethWrite {m o : Nat} {x : Word} (hs : Keeps σ s) : Keeps σ (ethWrite s m o x) := by
  unfold ethWrite
  extract_lets v
  split
  · exact keeps_ethCfgSet hs
  · exact keeps_setMac hs
  · exact keeps_setMac hs
  · exact keeps_setMac hs
  · exact keeps_mdioSet hs
  · exact hs

theorem rdKeeps_csiRead {r o : Nat} (hs : Keeps σ s) : RdKeeps σ (csiRead s r o) := by
  unfold csiRead
  extract_lets v rc g
  have counter : ∀ k, RdKeeps σ (rc k) := fun k => rdKeeps_some (keeps_setCsiRx hs)
  clear_value rc
  split
  · split
    · exact rdKeeps_rdSame hs
    · exact rdKeeps_rdSame hs
    · exact rdKeeps_rdSame hs
    · exact rdKeeps_rdSame hs
    · exact rdKeeps_rdSame hs
    · exact rdKeeps_none
  · split
    · exact rdKeeps_rdSame hs
    · exact rdKeeps_rdSame hs
    · exact rdKeeps_rdSame hs
    · exact counter _
    · exact counter _
    · exact counter _
    · exact rdKeeps_none

theorem keeps_csiRegs {r k : Nat} {f : CsiStreamRegs → CsiStreamRegs} (hs : Keeps σ s) :
    Keeps σ (csiRegs s r k f) := by
  unfold csiRegs
  extract_lets v x
  exact keeps_setCsiRx hs

theorem keeps_csiRegWrite {r o : Nat} {x : Word} (hs : Keeps σ s) : Keeps σ (csiRegWrite s r o x) := by
  unfold csiRegWrite
  extract_lets v k
  split
  · split
    · exact keeps_scfgSet hs
    · exact keeps_csiRegs hs
    · exact keeps_csiRegs hs
    · exact keeps_csiRegs hs
    · exact keeps_csiRegs hs
    · exact hs
  · split
    · exact keeps_csiCfgSet hs
    · exact keeps_setCsiRx hs
    · exact keeps_setCsiRx hs
    · exact hs

theorem rdKeeps_uartRead {u o : Nat} (hs : Keeps σ s) : RdKeeps σ (uartRead s u o) := by
  unfold uartRead
  extract_lets v
  split
  · exact rdKeeps_rdSame hs
  · exact rdKeeps_rdSame hs
  · exact rdKeeps_rdSame hs
  · exact rdKeeps_rdSame hs
  · exact rdKeeps_rdSame hs
  · exact rdKeeps_rdSame hs
  · exact rdKeeps_rdSame hs
  · exact rdKeeps_rdSame hs
  · exact rdKeeps_some (keeps_setUart hs)
  · exact rdKeeps_some (keeps_setUart hs)
  · exact rdKeeps_some (keeps_setUart hs)
  · exact rdKeeps_some (keeps_setUart hs)
  · exact rdKeeps_some (keeps_setUart hs)
  · exact rdKeeps_none

theorem keeps_uartWrite {u o : Nat} {x : Word} (hs : Keeps σ s) : Keeps σ (uartWrite s u o x) := by
  unfold uartWrite
  extract_lets v
  split
  · exact keeps_uartCfgWrite hs
  · split
    · exact hs
    · split
      · exact keeps_setUart hs
      · exact keeps_setUart hs
      · exact keeps_setUart hs
      · exact keeps_setUart hs
      · exact keeps_setUart hs
      · exact keeps_setUart hs
      · exact hs

theorem rdKeeps_firstRead {a b : RegRead} (ha : RdKeeps σ a) (hb : RdKeeps σ b) : RdKeeps σ (firstRead a b) := by
  unfold firstRead
  split
  · exact ha
  · exact hb

theorem rdKeeps_hRegRead {q o : Nat} (hs : Keeps σ s) : RdKeeps σ (hRegRead s q o) := by
  unfold hRegRead
  extract_lets r
  split
  · exact rdKeeps_firstRead (rdKeeps_fabRead hs) (rdKeeps_firstRead (rdKeeps_govRead hs) (rdKeeps_faultRead hs))
  · exact rdKeeps_nldRead hs
  · exact rdKeeps_memRead_ hs
  · exact rdKeeps_pure hs
  · exact rdKeeps_pciRead hs
  · split
    · exact rdKeeps_ethRead hs
    · exact rdKeeps_none
  · split
    · exact rdKeeps_csiRead hs
    · exact rdKeeps_none
  · split
    · exact rdKeeps_uartRead hs
    · exact rdKeeps_none
  · exact rdKeeps_thmRead hs
  · split
    · exact rdKeeps_pciDevRead hs
    · exact rdKeeps_none
  · exact rdKeeps_none

theorem holds_hRegWrite {o : Nat} {x : Word} (hs : Holds σ s) : Holds σ (hRegWrite s o x) := by
  unfold hRegWrite
  extract_lets r
  split
  · exact holds_ite (hs.step (keeps_govWrite (.refl _))) (holds_ite (hs.step (keeps_fabWrite (.refl _)))
      (holds_faultWrite hs))
  · exact hs.step (keeps_nldWrite (.refl _))
  · exact hs.step (keeps_memWrite_ (.refl _))
  · exact hs.step (keeps_bootWrite (.refl _))
  · exact hs.step (keeps_pciWrite (.refl _))
  · exact hs.step (keeps_ethWrite (.refl _))
  · exact hs.step (keeps_csiRegWrite (.refl _))
  · exact hs.step (keeps_uartWrite (.refl _))
  · exact holds_pciDevWrite hs
  · exact hs

theorem rdKeeps_aoRead {n o : Nat} (hs : Keeps σ s) : RdKeeps σ (aoRead s n o) := by
  unfold aoRead
  extract_lets v
  split
  · exact rdKeeps_rdSame hs
  · exact rdKeeps_rdSame hs
  · exact rdKeeps_rdSame hs
  · exact rdKeeps_rdSame hs
  · exact rdKeeps_rdSame hs
  · exact rdKeeps_none

theorem rdKeeps_fioStat (hs : Keeps σ s) : RdKeeps σ (fioStat s) := by
  unfold fioStat
  extract_lets t
  have ht : Keeps σ t := keeps_fSupplySeen hs
  exact rdKeeps_some ht

theorem rdKeeps_fioSupply (hs : Keeps σ s) : RdKeeps σ (fioSupply s) :=
  rdKeeps_some (keeps_withF (keeps_withFree hs))

theorem rdKeeps_fioRead {o : Nat} (hs : Keeps σ s) : RdKeeps σ (fioRead s o) := by
  unfold fioRead
  extract_lets f v
  split
  · exact rdKeeps_rdSame hs
  · exact rdKeeps_fioStat hs
  · exact rdKeeps_fioSupply hs
  · exact rdKeeps_rdSame hs
  · exact rdKeeps_rdSame hs
  · exact rdKeeps_rdSame hs
  · exact rdKeeps_rdSame hs
  · exact rdKeeps_rdSame hs
  · exact rdKeeps_rdSame hs
  · exact rdKeeps_rdSame hs
  · exact rdKeeps_rdSame hs
  · exact rdKeeps_rdSame hs
  · exact rdKeeps_rdSame hs
  · exact rdKeeps_rdSame hs
  · split
    · exact rdKeeps_aoRead hs
    · split
      · exact rdKeeps_rdSame hs
      · exact rdKeeps_none

theorem keeps_aoWrite {n o : Nat} {x : Word} (hs : Keeps σ s) : Keeps σ (aoWrite s n o x) := by
  unfold aoWrite
  split
  · exact keeps_aoCfgSet hs
  · exact keeps_aoCodeSet hs
  · exact hs

theorem keeps_fioWrite {o : Nat} {x : Word} (hs : Keeps σ s) : Keeps σ (fioWrite s o x) := by
  unfold fioWrite
  extract_lets f n
  split
  · exact keeps_fioCtlWrite hs
  · exact keeps_fioWdSet hs
  · exact keeps_fWdRestart hs
  · exact keeps_doCmdSet hs
  · exact keeps_withF hs
  · exact keeps_withF hs
  · exact keeps_doClear hs
  · exact keeps_withF hs
  · exact keeps_withF hs
  · exact keeps_ite (keeps_aoWrite hs) (keeps_ite (keeps_setDiCh hs) hs)

theorem rdKeeps_fRegRead {q o : Nat} (hs : Keeps σ s) : RdKeeps σ (fRegRead s q o) := by
  unfold fRegRead
  split
  · exact rdKeeps_fioRead hs
  · exact rdKeeps_nldRead hs
  · exact rdKeeps_none

theorem keeps_fRegWrite {o : Nat} {x : Word} (hs : Keeps σ s) : Keeps σ (fRegWrite s o x) := by
  unfold fRegWrite
  split
  · exact keeps_fioWrite hs
  · exact keeps_nldWrite hs
  · exact hs

theorem rdKeeps_regRead {q d o : Nat} (hs : Keeps σ s) : RdKeeps σ (regRead s q d o) := by
  unfold regRead
  split
  · exact rdKeeps_map (rdKeeps_cRegRead hs) (fun a1 t1 h => keeps_dieSays h)
  · split
    · exact rdKeeps_hRegRead hs
    · exact rdKeeps_fRegRead hs

theorem holds_regWrite {d o : Nat} {x : Word} (hs : Holds σ s) : Holds σ (regWrite s d o x) := by
  unfold regWrite
  exact holds_ite (hs.step (keeps_cRegWrite (.refl _))) (holds_ite (holds_hRegWrite hs)
    (hs.step (keeps_fRegWrite (.refl _))))

end Sys2Proof.Machine
end

section
/-! What every command keeps: accesses to device addresses. -/

namespace Sys2Proof.Machine

variable {σ s : State}

theorem keeps_domView {d o n : Nat} (hs : Keeps σ s) : Keeps σ (domView s d o n).2 := by
  induction n generalizing s o with
  | zero => exact hs
  | succ n ih =>
    unfold domView
    split
    rename_i b s1 drawn
    exact ih (keeps_of_snd_eq drawn (keeps_snd_ite hs (keeps_drawByte hs)))

theorem keeps_plStores {d : Nat} {l : List (Nat × Word)} (hs : Keeps σ s) : Keeps σ (plStores s d l) := by
  induction l generalizing s with
  | nil => exact hs
  | cons x l ih =>
    unfold plStores
    exact ih (keeps_plinthStore hs)

theorem keeps_tileStores {d : Nat} {l : List (Nat × Word)} (hs : Keeps σ s) : Keeps σ (tileStores s d l) := by
  induction l generalizing s with
  | nil => exact hs
  | cons x l ih =>
    unfold tileStores
    extract_lets n
    exact ih (keeps_setLantern hs)

theorem keeps_spireStores {d o : Nat} {bs : List Byte} (hs : Keeps σ s) : Keeps σ (spireStores s d o bs) := by
  unfold spireStores
  extract_lets k s1
  have hs1 : Keeps σ s1 := keeps_putLocal hs
  exact keeps_ite (keeps_putLocal hs1) hs1

theorem rdKeeps_wordsRead {rd : State → Nat → RegRead} {o n : Nat} (hs : Keeps σ s)
    (hrd : ∀ t o, Keeps σ t → RdKeeps σ (rd t o)) : RdKeeps σ (wordsRead rd s o n) := by
  induction n generalizing s o with
  | zero => exact rdKeeps_some hs
  | succ n ih =>
    unfold wordsRead
    split
    · exact rdKeeps_none
    · rename_i w s1 first
      have hs1 : Keeps σ s1 := hrd s o hs _ _ first
      split
      · exact rdKeeps_none
      · rename_i ws s2 rest
        exact rdKeeps_some (ih hs1 _ _ rest)

theorem keeps_wordsWrite {wr : State → Nat → Word → State} {o : Nat} {ws : List Word} (hs : Keeps σ s)
    (hwr : ∀ t o w, Keeps σ t → Keeps σ (wr t o w)) : Keeps σ (wordsWrite wr s o ws) := by
  induction ws generalizing s o with
  | nil => exact hs
  | cons w ws ih =>
    unfold wordsWrite
    exact ih (hwr _ _ _ hs)

theorem holds_wordsWrite {wr : State → Nat → Word → State} {o : Nat} {ws : List Word} (hs : Holds σ s)
    (hwr : ∀ t o w, Holds σ t → Holds σ (wr t o w)) : Holds σ (wordsWrite wr s o ws) := by
  induction ws generalizing s o with
  | nil => exact hs
  | cons w ws ih =>
    unfold wordsWrite
    exact ih (hwr _ _ _ hs)

theorem keeps_regsRead {rd : State → Nat → RegRead} {o n : Nat} (hs : Keeps σ s)
    (hrd : ∀ t o, Keeps σ t → RdKeeps σ (rd t o)) : Keeps σ (regsRead rd s o n).2 := by
  unfold regsRead
  split
  · exact hs
  · split
    · exact hs
    · exact (rdKeeps_wordsRead hs hrd) _ _ ‹_›

theorem keeps_regsWrite {rd : State → Nat → RegRead} {wr : State → Nat → Word → State} {o : Nat} {bs : List Byte}
    (hs : Keeps σ s) (hwr : ∀ t o w, Keeps σ t → Keeps σ (wr t o w)) : Keeps σ (regsWrite rd wr s o bs).2 := by
  unfold regsWrite
  exact keeps_snd_ite hs (keeps_wordsWrite hs hwr)

theorem holds_regsWrite {rd : State → Nat → RegRead} {wr : State → Nat → Word → State} {o : Nat} {bs : List Byte}
    (hs : Holds σ s) (hwr : ∀ t o w, Holds σ t → Holds σ (wr t o w)) : Holds σ (regsWrite rd wr s o bs).2 := by
  unfold regsWrite
  exact holds_snd_ite hs (holds_wordsWrite hs hwr)

theorem keeps_regionRead {g : Agent} {d : Nat} {r : Region} {o n : Nat} (hs : Keeps σ s) :
    Keeps σ (regionRead s g d r o n).2 := by
  unfold regionRead
  split
  · split
    · exact hs
    · split <;> exact keeps_of_snd_eq ‹_› (keeps_rdVault hs)
  · extract_lets v
    exact keeps_domView hs
  · exact hs
  · split <;> exact hs
  · exact hs
  · exact keeps_regsRead hs (fun t1 o1 h => rdKeeps_bellRead h)
  · exact keeps_regsRead hs (fun t1 o1 h => rdKeeps_queRead h)
  · split
    · split
      · exact hs
      · exact keeps_snd_ite hs (keeps_regsRead hs (fun t1 o1 h => rdKeeps_regRead h))
    · exact keeps_regsRead hs (fun t1 o1 h => rdKeeps_regRead h)
  · split
    · exact hs
    · split
      · exact hs
      · split <;> exact keeps_of_snd_eq ‹_› (keeps_lpLoad hs)
  · exact hs

theorem holds_regionWrite {g : Agent} {d o : Nat} {r : Region} {bs : List Byte} (hs : Holds σ s) :
    Holds σ (regionWrite s g d r o bs).2 := by
  have regs : Holds σ (regsWrite (fun t x => regRead t g.req d x) (fun t x v => regWrite t d x v) s o bs).2 :=
    holds_regsWrite hs fun _ _ _ ht => holds_regWrite ht
  unfold regionWrite
  cases r with
  | vault =>
    dsimp only
    split
    · exact hs
    · split
      · exact hs.step (keeps_of_wrVault ‹_› (.refl _))
      · exact hs.step (keeps_of_snd_eq ‹_› (keeps_wrVault (.refl _)))
  | dome => exact hs
  | plinth => exact hs.step (keeps_plStores (.refl _))
  | tile =>
    dsimp only
    split
    · exact hs
    · exact hs.step (keeps_tileStores (.refl _))
  | spire => exact hs.step (keeps_spireStores (.refl _))
  | bell => exact hs.step (keeps_regsWrite (.refl _) fun _ _ _ ht => keeps_bellWrite ht)
  | queue => exact hs.step (keeps_regsWrite (.refl _) fun _ _ _ ht => keeps_queWrite ht)
  | regs =>
    dsimp only
    split
    · split
      · exact hs
      · exact holds_snd_ite (hs.step (keeps_pmemPut (.refl _))) regs
    · exact regs
  | lpddr => exact holds_snd_ite hs (holds_snd_ite hs (hs.step (keeps_lpStore (.refl _))))
  | hbuf => exact hs

theorem keeps_accessTakes {g : Agent} {d : Nat} (hs : Keeps σ s) : Keeps σ (accessTakes s g d) := by
  unfold accessTakes
  exact keeps_ite (keeps_fTakes hs) hs

theorem keeps_dieRead {g : Agent} {d off n : Nat} (hs : Keeps σ s) : Keeps σ (dieRead s g d off n).2 := by
  unfold dieRead
  split
  · exact hs
  · split
    · exact hs
    · split
      · exact hs
      · exact keeps_snd_ite hs (keeps_regionRead (keeps_accessTakes hs))

theorem holds_dieWrite {g : Agent} {d off : Nat} {bs : List Byte} (hs : Holds σ s) :
    Holds σ (dieWrite s g d off bs).2 := by
  unfold dieWrite
  split
  · exact hs
  · split
    · exact hs
    · split
      · exact hs
      · exact holds_snd_ite hs (holds_regionWrite (hs.step (keeps_accessTakes (.refl _))))

theorem keeps_writeRecord {a : Requester} {addr st : Nat} (hs : Keeps σ s) : Keeps σ (writeRecord s a addr st) := by
  unfold writeRecord
  split
  · split
    · exact keeps_addrError hs
    · exact keeps_addrError hs
    · exact hs
  · exact hs

theorem keeps_holdAt {d l : Nat} {h : HeldAccess} (hs : Keeps σ s) : Keeps σ (holdAt s d l h) := by
  unfold holdAt
  exact keeps_setLantern hs

theorem holds_registerPut {a : Requester} {d off addr : Nat} {v : Word} (hs : Holds σ s) :
    Holds σ (registerPut s a d off addr v) := by
  unfold registerPut
  split
  · exact (holds_of_snd_eq ‹_› (holds_dieWrite hs)).step (keeps_writeRecord (.refl _))
  · exact (holds_of_snd_eq ‹_› (holds_dieWrite hs)).step (keeps_holdAt (.refl _))
  · exact holds_of_snd_eq ‹_› (holds_dieWrite hs)

theorem holds_registerLate {a : Requester} {addr : Nat} {v : Word} (hs : Holds σ s) :
    Holds σ (registerLate s a addr v) := by
  unfold registerLate
  split
  · exact holds_registerPut hs
  · exact hs

theorem holds_registerWrite {a : Requester} {addr : Nat} {v : Word} (hs : Holds σ s) :
    Holds σ (registerWrite s a addr v) := by
  unfold registerWrite
  split
  · exact holds_ite (holds_registerPut hs) hs
  · exact holds_ite (hs.step (keeps_writeRecord (.refl _))) hs
  · exact hs

theorem outHolds_execRegisterWrite {a : Requester} {addr : BitVec 48} {v : BitVec 32} (hs : Holds σ s) :
    OutHolds σ (execRegisterWrite a addr v s) := by
  unfold execRegisterWrite
  exact outHolds_next (holds_registerWrite hs)

end Sys2Proof.Machine
end

section
/-! What every command keeps: the boot sequencer. -/

namespace Sys2Proof.Machine

variable {σ s : State} {die : Nat}

theorem keeps_setPhase {p : BitVec 4} (hs : Keeps σ s) : Keeps σ (setPhase s p) := by
  unfold setPhase
  exact keeps_withBoot hs

theorem dieKeeps_dieKeeps {c : CDie} (hc : DieKeeps σ die c) : DieKeeps σ die (dieKeeps c) := by
  obtain ⟨slewed, mem, -, -⟩ := hc
  exact ⟨slewed, fun h => cDie_memOk_iff.2 ⟨rfl, (cDie_memOk_iff.1 (mem h)).2.1, rfl, rfl⟩, fun _ _ _ he => absurd he
    List.not_mem_nil,
    fun _ _ _ he => absurd he List.not_mem_nil⟩

theorem keeps_restoreDies {l : List Nat} (hs : Keeps σ s) : Keeps σ (restoreDies s l) := by
  induction l generalizing s with
  | nil => exact hs
  | cons x l ih =>
    unfold restoreDies
    exact ih (keeps_setCd hs (dieKeeps_dieKeeps (dieKeeps_cd hs _)))

theorem keeps_endAsk {x : Nat × Outst} (hs : Keeps σ s) : Keeps σ (endAsk s x) := by
  unfold endAsk
  extract_lets o ours
  exact keeps_ite hs (keeps_ite (keeps_stopAsk (keeps_orphan hs)) (keeps_dropAsk hs))

theorem keeps_putBack {u : Nat × Nat × Word} (hs : Keeps σ s) : Keeps σ (putBack s u) := by
  unfold putBack
  extract_lets d r x e n
  have head : Keeps σ (if (s.faults.tail - x).toNat ≤ 256 then { s with faults := { s.faults with head := x } } else
    s) := by
    split
    · rename_i room
      exact keeps_withFaults hs fun _ => room
    · exact hs
  refine keeps_ite (keeps_setSysDie hs) (keeps_ite (keeps_withF hs) (keeps_ite (keeps_setEndp hs) ?_))
  refine keeps_ite (keeps_withFaults hs id) (keeps_ite (keeps_withHost hs rfl) (keeps_ite (keeps_withHost hs rfl) ?_))
  refine keeps_ite (keeps_withPower hs) (keeps_ite head (keeps_ite (keeps_withFaults hs id) ?_))
  exact keeps_ite (keeps_withHost hs rfl) (keeps_ite (keeps_setSession hs) (keeps_withHost hs rfl))

theorem keeps_undoRegs (hs : Keeps σ s) : Keeps σ (undoRegs s) := by
  unfold undoRegs
  exact keeps_foldl hs (fun t1 a1 h => keeps_putBack h)

theorem keeps_restoreImage {field : Bool} (hs : Keeps σ s) : Keeps σ (restoreImage s field) := by
  unfold restoreImage
  extract_lets s1
  have hs1 : Keeps σ s1 := keeps_restoreDies (keeps_undoRegs (keeps_foldl hs fun _ _ h => keeps_endAsk h))
  clear_value s1
  obtain ⟨d0, d1, d2, d3, mem, log, tok⟩ := hs1
  exact ⟨d0, d1, d2, d3, fun h => ⟨rfl, (mem h).2⟩, log, tok⟩

theorem dieKeeps_dieSafe {c : CDie} (hc : DieKeeps σ die c) : DieKeeps σ die (dieSafe c) := by
  unfold dieSafe
  exact hc

theorem keeps_enterSafe (hs : Keeps σ s) : Keeps σ (enterSafe s) := by
  unfold enterSafe
  extract_lets s1 _ _ _ s2 s3
  have hs1 : Keeps σ s1 := keeps_restoreImage hs
  have safe : Keeps σ (mapDies s1 dieSafe) := keeps_mapDies hs1 fun _ _ hc => dieKeeps_dieSafe hc
  have free := keeps_withTokenHeld (l := []) safe fun _ => Nat.zero_le 32
  have hs2 : Keeps σ s2 := keeps_withBoot (keeps_withPower free)
  exact keeps_setMState (keeps_setPhase (keeps_raiseFirst hs2))

theorem keeps_slotCause {slot : Bool} {cause : Nat} (hs : Keeps σ s) : Keeps σ (slotCause s slot cause) := by
  unfold slotCause
  extract_lets c _ s1
  have hs1 : Keeps σ s1 := keeps_withBoot hs
  exact keeps_warn hs1

theorem keeps_slotFail {cause : Nat} (hs : Keeps σ s) : Keeps σ (slotFail s cause) := by
  unfold slotFail
  extract_lets s1 s2
  have hs1 : Keeps σ s1 := keeps_slotCause hs
  have hs2 : Keeps σ s2 := keeps_restoreImage hs1
  clear_value s2
  exact keeps_ite (keeps_enterSafe hs1) (keeps_withBoot hs2)

theorem keeps_allFail {cause : Nat} (hs : Keeps σ s) : Keeps σ (allFail s cause) := by
  unfold allFail
  extract_lets s1
  have hs1 : Keeps σ s1 := keeps_slotCause hs
  exact keeps_enterSafe (keeps_ite hs1 (keeps_slotCause hs1))

theorem outKeeps_execBootSlotTimeout (hs : Keeps σ s) : OutKeeps σ (execBootSlotTimeout s) := by
  unfold execBootSlotTimeout
  exact outKeeps_next (keeps_ite (keeps_slotFail hs) hs)

theorem outKeeps_execBootRefclkAbsent (hs : Keeps σ s) : OutKeeps σ (execBootRefclkAbsent s) := by
  unfold execBootRefclkAbsent
  exact outKeeps_next (keeps_ite (keeps_allFail hs) hs)

theorem outKeeps_execFlashReadTimeout (hs : Keeps σ s) : OutKeeps σ (execFlashReadTimeout s) := by
  unfold execFlashReadTimeout
  exact outKeeps_next (keeps_ite (keeps_slotFail hs) hs)

theorem outKeeps_execFlashDiscovery (hs : Keeps σ s) : OutKeeps σ (execFlashDiscovery s) := by
  unfold execFlashDiscovery
  refine outKeeps_next ?_
  split
  · split
    · exact keeps_allFail (keeps_setPhase hs)
    · exact keeps_withBoot hs
  · exact hs

theorem optHolds_bootMake {w : BootWrite} (hs : Holds σ s) : OptHolds σ (bootMake s w) := by
  have noted : ∀ {c : Prop} [Decidable c] {x : Boot}, Holds σ (if c then { s with boot := x } else s) :=
    holds_ite (hs.step (keeps_withBoot (.refl s))) hs
  have failed : ∀ {t st}, Holds σ t → OptHolds σ (some { t with boot := { t.boot with wrBad := some (w.addr, st) } })
    :=
    fun {t _} ht => optHolds_some (ht.step (keeps_withBoot (.refl t)))
  have asked : ∀ {t}, Holds σ t → OptHolds σ (some { t with boot := { t.boot with wrAsk := true } }) :=
    fun {t} ht => optHolds_some (ht.step (keeps_withBoot (.refl t)))
  fun_cases bootMake s w
  case case1 => exact failed noted
  case case2 => exact failed noted
  case case3 sent =>
    refine asked (Holds.stepOpt ?_ (optKeeps_sendAsk (.refl _)) _ sent)
    exact noted
  case case4 => exact failed noted
  case case5 done =>
    refine optHolds_some (holds_of_snd_eq done (holds_dieWrite ?_))
    exact noted
  case case6 done =>
    refine failed (holds_of_snd_eq done (holds_dieWrite ?_))
    exact noted
  case case7 done =>
    refine asked (holds_of_snd_eq done (holds_dieWrite ?_))
    exact noted
  case case8 => exact optHolds_none

theorem holds_bootWrites {k : Nat} (hs : Holds σ s) : Holds σ (bootWrites k s) := by
  induction k generalizing s with
  | zero => exact hs
  | succ k ih =>
    unfold bootWrites
    split
    · exact hs
    · split
      · exact hs
      · split
        · exact ih (optHolds_bootMake (hs.step (keeps_withBoot (.refl _))) _ ‹_›)
        · exact hs

theorem holds_bootGo (hs : Holds σ s) : Holds σ (bootGo s) := by
  unfold bootGo
  exact holds_bootWrites hs

theorem holds_bootStart {x : Option Section} {ws : List BootWrite} (hs : Holds σ s) : Holds σ (bootStart s x ws) := by
  unfold bootStart
  exact holds_bootGo (hs.step (keeps_withBoot (.refl _)))

theorem keeps_bootFails {cause : Nat} (hs : Keeps σ s) : Keeps σ (bootFails s cause) := by
  unfold bootFails
  split
  · exact keeps_slotFail (keeps_writeRecord hs)
  · exact hs

theorem outKeeps_execImageAuth (hs : Keeps σ s) : OutKeeps σ (execImageAuth s) := by
  unfold execImageAuth
  refine outKeeps_next ?_
  split
  · extract_lets _ s1 slot c
    have hs1 : Keeps σ s1 := keeps_withBoot hs
    exact keeps_ite (keeps_slotFail hs1) (keeps_withBoot hs1)
  · exact hs

theorem keeps_phaseAfterConfig (hs : Keeps σ s) : Keeps σ (phaseAfterConfig s) := by
  unfold phaseAfterConfig
  extract_lets b l load
  exact keeps_withBoot hs

theorem keeps_sectionOver (hs : Keeps σ s) : Keeps σ (sectionOver s) := by
  unfold sectionOver
  exact keeps_withBoot hs

theorem keeps_configEnd (hs : Keeps σ s) : Keeps σ (configEnd s) := by
  unfold configEnd
  extract_lets l s1
  have hs1 : Keeps σ s1 := keeps_ite (keeps_trainStart hs) hs
  exact keeps_ite (keeps_slotFail hs) (keeps_phaseAfterConfig (keeps_startLinks hs1))

theorem outHolds_execImageConfig (hs : Holds σ s) : OutHolds σ (execImageConfig s) := by
  unfold execImageConfig
  refine outHolds_next ?_
  split
  · extract_lets s1 s2
    have hs1 : Holds σ s1 := holds_bootGo hs
    have hs2 : Holds σ s2 := hs1.step (keeps_sectionOver (.refl _))
    split
    · exact hs1.step (keeps_bootFails (.refl _))
    · split
      · exact hs1
      · split
        · exact hs2.step (keeps_configEnd (.refl _))
        · exact holds_ite (hs2.step (keeps_slotFail (.refl _))) (holds_bootStart
            (hs2.step (keeps_withBoot (.refl _))))
  · exact hs

theorem keeps_planBank {d n : Nat} {e : DomeEntry} {t b : Bool} (hs : Keeps σ s) :
    Keeps σ (planBank s d n e t b).2 := by
  unfold planBank
  extract_lets k same dig ok _ s1
  have hs1 : Keeps σ s1 := keeps_ite (keeps_withBoot hs) (keeps_ite (keeps_putBank hs) hs)
  exact keeps_snd_ite hs (keeps_snd_ite hs1 (keeps_snd_ite hs1 hs1))

theorem holds_clearStage (hs : Holds σ s) : Holds σ (clearStage s) := by
  unfold clearStage
  split
  · exact holds_bootStart (hs.step (keeps_withBoot (.refl _)))
  · exact (hs.step (keeps_withBoot (.refl _))).step (keeps_setPhase (.refl _))

theorem keeps_stageBank {k : Nat × Nat × Bool} {at_ block : Nat} (hs : Keeps σ s) :
    Keeps σ (stageBank s k at_ block) := by
  unfold stageBank
  exact keeps_withBoot hs

theorem optKeeps_wantProgram {d n : Nat} {b : Bool} {block : Nat} {dig : List Byte} (hs : Keeps σ s) :
    OptKeeps σ (wantProgram s d n b block dig) := by
  unfold wantProgram
  exact optKeeps_map (fun a1 => keeps_stageBank (keeps_putBank hs))

theorem rdKeeps_bootBank {d n : Nat} {e : DomeEntry} {t b : Bool} (hs : Keeps σ s) :
    RdKeeps σ (bootBank s d n e t b) := by
  unfold bootBank
  split
  · exact rdKeeps_some (keeps_of_snd_eq ‹_› (keeps_planBank hs))
  · exact rdKeeps_some (keeps_of_snd_eq ‹_› (keeps_planBank hs))
  · rename_i wb dig s1 planned
    intro x t h
    obtain ⟨u, wanted, same⟩ := Option.map_eq_some_iff.1 h
    cases same
    exact optKeeps_wantProgram (keeps_of_snd_eq planned (keeps_planBank hs)) _ wanted

theorem rdKeeps_bootDome {d n : Nat} {e : DomeEntry} (hs : Keeps σ s) : RdKeeps σ (bootDome s d n e) := by
  unfold bootDome
  extract_lets t record
  have recorded : ∀ x : Bool × State, Keeps σ x.2 → Keeps σ (record x).2 := fun _ hx => keeps_withBoot hx
  clear_value record
  split
  · exact rdKeeps_some hs
  · split
    · exact rdKeeps_some hs
    · split
      · exact rdKeeps_none
      · exact rdKeeps_some (rdKeeps_bootBank hs _ _ ‹_›)
      · rename_i s1 first
        have hs1 : Keeps σ s1 := rdKeeps_bootBank hs _ _ first
        split
        · exact rdKeeps_map (rdKeeps_bootBank hs1) fun _ _ ht => recorded _ ht
        · exact rdKeeps_some (a := (record (true, s1)).1) (recorded (true, s1) hs1)

theorem keeps_stagedWait (hs : Keeps σ s) : Keeps σ (stagedWait s) := by
  unfold stagedWait
  exact hs

theorem holds_domesNext (hs : Holds σ s) : Holds σ (domesNext s) := by
  have failed : ∀ t, Keeps s t → Holds σ (slotFail t brDOME) := fun t ht => hs.step (keeps_slotFail ht)
  unfold domesNext
  split
  · split
    · exact failed _ (.refl _)
    · exact holds_bootGo (hs.step (keeps_stageBank (.refl _)))
  · split
    · split
      · exact hs.step (keeps_slotFail (.refl _))
      · split
        · exact hs
        · exact failed _ (rdKeeps_bootDome (.refl _) _ _ ‹_›)
        · exact holds_bootGo (hs.step (keeps_withBoot (rdKeeps_bootDome (.refl _) _ _ ‹_›)))
    · exact holds_ite (holds_clearStage hs) hs

theorem outHolds_execBootDomeEntry (hs : Holds σ s) : OutHolds σ (execBootDomeEntry s) := by
  unfold execBootDomeEntry
  refine outHolds_next ?_
  split
  · exact hs
  · extract_lets s1
    have hs1 : Holds σ s1 := holds_bootGo hs
    exact holds_ite (hs1.step (keeps_bootFails (.refl _))) (holds_ite hs1
      (holds_ite (hs1.step (keeps_stagedWait (.refl _))) (holds_domesNext hs1)))

theorem keeps_loadOver {x : Section} (hs : Keeps σ s) : Keeps σ (loadOver s x) := by
  unfold loadOver
  exact keeps_ite (keeps_slotFail hs) (keeps_withBoot hs)

theorem outHolds_execSectionLoad (hs : Holds σ s) : OutHolds σ (execSectionLoad s) := by
  unfold execSectionLoad
  refine outHolds_next ?_
  split
  · exact hs
  · extract_lets s1
    have hs1 : Holds σ s1 := holds_bootGo hs
    split
    · exact hs1.step (keeps_bootFails (.refl _))
    · split
      · exact hs1
      · split
        · exact hs1.step (keeps_loadOver (.refl _))
        · exact hs1.step (keeps_setPhase (.refl _))
        · exact holds_bootStart (hs1.step (keeps_withBoot (.refl _)))

theorem keeps_settleLinks {l : List Nat} (hs : Keeps σ s) : Keeps σ (settleLinks s l) := by
  induction l generalizing s with
  | nil => exact hs
  | cons x l ih =>
    unfold settleLinks
    extract_lets s1
    have hs1 : Keeps σ s1 := keeps_ite (keeps_goDown hs) (keeps_ite (keeps_isolateVia hs) hs)
    exact ih hs1

/-- What a later section's writes leave, and how they ended. -/
theorem holds_of_loadLater {l : List Section} {r : State × Nat} (h : loadLater s l = some r) (hs : Holds σ s) :
    Holds σ r.1 := by
  induction l generalizing s with
  | nil =>
    cases h
    exact hs
  | cons x l ih =>
    unfold loadLater at h
    split at h
    · split at h
      · exact ih h (holds_of_snd_eq ‹_› (holds_dieWrite hs))
      · cases h
        exact holds_of_snd_eq ‹_› (holds_dieWrite hs)
    · cases h
      exact (holds_of_snd_eq ‹_› (holds_dieWrite hs)).step (keeps_writeRecord (.refl _))
    · cases h

theorem keeps_poisonIsolated (hs : Keeps σ s) : Keeps σ (poisonIsolated s) := by
  unfold poisonIsolated
  exact keeps_poisonDies hs

theorem outHolds_execBootSettleEnd (hs : Holds σ s) : OutHolds σ (execBootSettleEnd s) := by
  unfold execBootSettleEnd
  extract_lets s1
  have hs1 : Holds σ s1 := hs.step (keeps_poisonIsolated (keeps_settleLinks (.refl _)))
  clear_value s1
  refine outHolds_next (holds_ite ?_ hs)
  split
  · split
    · exact hs
    · have loaded := holds_of_loadLater ‹_› hs1
      exact holds_ite (loaded.step (keeps_slotFail (.refl _))) (loaded.step
        (keeps_setPhase (keeps_withBoot (.refl _))))
  · exact hs1.step (keeps_setPhase (keeps_withBoot (.refl _)))

theorem keeps_activate {l : List (Nat × Nat × Bool)} (hs : Keeps σ s) : Keeps σ (activate s l) := by
  induction l generalizing s with
  | nil => exact hs
  | cons x l ih =>
    unfold activate
    exact ih (keeps_setDome hs)

theorem keeps_doProvision (hs : Keeps σ s) : Keeps σ (doProvision s) := by
  unfold doProvision
  split
  · extract_lets want got _ _ s1
    have hs1 : Keeps σ s1 := keeps_withOtp hs
    exact keeps_ite hs (keeps_warn hs1)
  · exact hs

theorem keeps_startUarts {l : List Nat} (hs : Keeps σ s) : Keeps σ (startUarts s l) := by
  induction l generalizing s with
  | nil => exact hs
  | cons x l ih =>
    unfold startUarts
    exact ih (keeps_ite (keeps_uartApply hs) hs)

theorem keeps_releaseMid (hs : Keeps σ s) : Keeps σ (releaseMid s) := by
  unfold releaseMid
  extract_lets s1 b
  have hs1 : Keeps σ s1 := keeps_doProvision hs
  exact hs1

theorem holds_releaseNext (hs : Holds σ s) : Holds σ (releaseNext s) := by
  unfold releaseNext
  extract_lets step
  have stepped : ∀ t k, Keeps s t → Keeps s (step t k) := fun _ _ ht => keeps_withBoot ht
  clear_value step
  split
  · exact holds_ite (holds_bootStart (hs.step (stepped _ _ (keeps_activate (.refl _))))) hs
  · exact holds_bootStart (hs.step (stepped _ _ (keeps_releaseMid (.refl _))))
  · exact hs.step (keeps_settleHost (keeps_startUarts (keeps_setMState
      (keeps_startAllArmed (stepped _ _ (.refl _))))))

theorem outHolds_execBootRelease (hs : Holds σ s) : OutHolds σ (execBootRelease s) := by
  unfold execBootRelease
  refine outHolds_next ?_
  split
  · extract_lets _ s1
    have hs1 : Holds σ s1 := holds_bootGo (hs.step (keeps_withBoot (.refl _)))
    exact holds_ite hs1 (holds_releaseNext hs1)
  · exact hs

theorem keeps_updEnd {result : Nat} (hs : Keeps σ s) : Keeps σ (updEnd s result) := by
  unfold updEnd
  extract_lets b s1
  have hs1 : Keeps σ s1 := keeps_withBoot hs
  exact keeps_ite (keeps_addNamed hs1) hs1

theorem keeps_updAddr {slot : Bool} (hs : Keeps σ s) : Keeps σ (updAddr s slot) := by
  unfold updAddr
  exact keeps_updEnd (keeps_setGood hs)

theorem keeps_flashWrite {slot : Bool} {o : Nat} {bs : List Byte} (hs : Keeps σ s) :
    Keeps σ (flashWrite s slot o bs) := by
  unfold flashWrite
  exact keeps_ite (keeps_withFlash hs (memWf_memPut flashFill _ _)) (keeps_slotLost hs)

theorem keeps_updFetch {slot : Bool} (hs : Keeps σ s) : Keeps σ (updFetch s slot) := by
  unfold updFetch
  extract_lets b have_ need a
  split
  · exact hs
  · split
    · exact keeps_updAddr hs
    · split
      · exact keeps_updEnd (keeps_flashWrite hs)
      · split
        · exact keeps_updAddr (keeps_ite (keeps_addrError hs) hs)
        · split
          · exact keeps_updAddr hs
          · exact keeps_withBoot ((optKeeps_sendAsk hs) _ ‹_›)
        · split
          · exact keeps_updEnd (keeps_flashWrite (keeps_of_snd_eq ‹_› (keeps_dieRead hs)))
          · exact keeps_updAddr (keeps_ite (keeps_addrError (keeps_of_snd_eq ‹_› (keeps_dieRead hs)))
              (keeps_of_snd_eq ‹_› (keeps_dieRead hs)))
          · exact keeps_of_snd_eq ‹_› (keeps_dieRead hs)
          · exact hs

theorem keeps_eraseSlot {slot : Bool} (hs : Keeps σ s) : Keeps σ (eraseSlot s slot) := by
  unfold eraseSlot
  extract_lets lo
  refine keeps_withFlash hs fun h => ?_
  refine memWfFrom_append flashFill (mid := lo) (memWfFrom_filter flashFill _ h) ?_ ?_ (Nat.zero_le _)
  · exact memWfFrom_mono flashFill (memFrom_from flashFill (lo + slotSize s) h) (Nat.le_add_right _ _)
  · intro c hc
    simp only [memBelow, List.mem_filter, decide_eq_true_eq] at hc
    exact hc.2

theorem outKeeps_execUpdCommandEnd (hs : Keeps σ s) : OutKeeps σ (execUpdCommandEnd s) := by
  unfold execUpdCommandEnd
  refine outKeeps_next ?_
  split
  · exact hs
  · split
    · exact hs
    · split
      · exact keeps_updEnd hs
      · split
        · exact keeps_updEnd (keeps_eraseSlot hs)
        · split
          · exact keeps_ite (keeps_updAddr hs) (keeps_updFetch hs)
          · extract_lets c
            exact keeps_updEnd (keeps_ite (keeps_setGood hs) hs)

end Sys2Proof.Machine
end

section
/-! What every command keeps: Spire instructions. -/

namespace Sys2Proof.Machine

variable {σ s : State} {die : Nat}

theorem keeps_spFault {d n : Nat} {hc : BitVec 4} {kind : Nat} (hs : Keeps σ s) :
    Keeps σ (spFault s d n hc kind) := by
  unfold spFault
  extract_lets v s1 r
  have hs1 : Keeps σ s1 := keeps_setSpire hs (spireKeeps_haltSpire (spireKeeps_spire hs))
  exact keeps_ite (keeps_haltFault hs1) (keeps_raise hs1)

theorem spireKeeps_trapEntry {v : Spire} {c : CDie} {n code : Nat} {acause : BitVec 4} {xcause : Word} {xwin : BitVec 3}
    (hv : SpireKeeps σ die v) : SpireKeeps σ die (trapEntry c n v code acause xcause xwin) :=
  fun hσ w => ⟨(by decide : 7 < 8), (hv hσ w).2⟩

theorem keeps_spTrap {d n : Nat} {code : Nat} {acause : BitVec 4} {xcause : Word} (hs : Keeps σ s) :
    Keeps σ (spTrap s d n code acause xcause) := by
  unfold spTrap
  extract_lets v
  exact keeps_ite (keeps_spFault hs) (keeps_setSpire hs (spireKeeps_trapEntry (spireKeeps_spire hs)))

theorem keeps_winTrap {d n : Nat} {code win : Nat} (hs : Keeps σ s) : Keeps σ (winTrap s d n code win) := by
  unfold winTrap
  exact keeps_setSpire hs (spireKeeps_trapEntry (spireKeeps_spire hs))

theorem keeps_spIssue {d n : Nat} {w : Word} {i : SpOp} {k : State} (hs : Keeps σ s) (hk : Keeps σ k) :
    Keeps σ (spIssue s d n w i k) := by
  unfold spIssue
  extract_lets v
  split
  · exact hs
  · split
    · exact keeps_spTrap hs
    · split
      · exact keeps_spTrap hs
      · split
        · exact hs
        · split
          · exact keeps_spTrap hs
          · exact keeps_ite hk hs

theorem holds_spIssue {d n : Nat} {w : Word} {i : SpOp} {k : State} (hs : Holds σ s) (hk : Holds σ k) :
    Holds σ (spIssue s d n w i k) := by
  unfold spIssue
  extract_lets v
  split
  · exact hs
  · split
    · exact hs.step (keeps_spTrap (.refl _))
    · split
      · exact hs.step (keeps_spTrap (.refl _))
      · split
        · exact hs
        · split
          · exact hs.step (keeps_spTrap (.refl _))
          · exact holds_ite hk hs

theorem spireKeeps_spNext {v : Spire} (hv : SpireKeeps σ die v) : SpireKeeps σ die (spNext v) := by
  unfold spNext
  exact hv

theorem keeps_spWrite {d n : Nat} {w : Word} {x : Word} (hs : Keeps σ s) : Keeps σ (spWrite s d n w x) := by
  unfold spWrite
  exact keeps_setSpire hs (spireKeeps_spNext (spireKeeps_spSet (spireKeeps_spire hs)))

theorem keeps_spAluOp {f : Word → Word → Word} {i : SpOp} {d : Fin 4} {n : Fin 32} {w : Word} (hs : Keeps σ s) :
    Keeps σ (spAluOp f i d n w s) := by
  unfold spAluOp
  extract_lets v
  exact keeps_spIssue hs (keeps_spWrite hs)

theorem keeps_spImmOp {f : Word → Word → Word} {b : Word} {i : SpOp} {d : Fin 4} {n : Fin 32} {w : Word} (hs : Keeps σ s) :
    Keeps σ (spImmOp f b i d n w s) := by
  unfold spImmOp
  exact keeps_spIssue hs (keeps_spWrite hs)

theorem keeps_fpWrite {d n : Nat} {w : Word} {r : Nat × Exc} (hs : Keeps σ s) : Keeps σ (fpWrite s d n w r) := by
  unfold fpWrite
  extract_lets v
  exact keeps_setSpire hs (spireKeeps_spNext (spireKeeps_spSet (spireKeeps_spire hs)))

theorem keeps_spFpOp {f : Nat → Nat → Nat → Nat × Exc} {i : SpOp} {d : Fin 4} {n : Fin 32} {w : Word} (hs : Keeps σ s) :
    Keeps σ (spFpOp f i d n w s) := by
  unfold spFpOp
  extract_lets v
  exact keeps_spIssue hs (keeps_fpWrite hs)

theorem outKeeps_execAdd {d : Fin 4} {n : Fin 32} {w : BitVec 32} (hs : Keeps σ s) :
    OutKeeps σ (execAdd d n w s) := by
  unfold execAdd
  exact outKeeps_next (keeps_spAluOp hs)

theorem outKeeps_execSub {d : Fin 4} {n : Fin 32} {w : BitVec 32} (hs : Keeps σ s) :
    OutKeeps σ (execSub d n w s) := by
  unfold execSub
  exact outKeeps_next (keeps_spAluOp hs)

theorem outKeeps_execAndR {d : Fin 4} {n : Fin 32} {w : BitVec 32} (hs : Keeps σ s) :
    OutKeeps σ (execAndR d n w s) := by
  unfold execAndR
  exact outKeeps_next (keeps_spAluOp hs)

theorem outKeeps_execOrR {d : Fin 4} {n : Fin 32} {w : BitVec 32} (hs : Keeps σ s) :
    OutKeeps σ (execOrR d n w s) := by
  unfold execOrR
  exact outKeeps_next (keeps_spAluOp hs)

theorem outKeeps_execXorR {d : Fin 4} {n : Fin 32} {w : BitVec 32} (hs : Keeps σ s) :
    OutKeeps σ (execXorR d n w s) := by
  unfold execXorR
  exact outKeeps_next (keeps_spAluOp hs)

theorem outKeeps_execSll {d : Fin 4} {n : Fin 32} {w : BitVec 32} (hs : Keeps σ s) :
    OutKeeps σ (execSll d n w s) := by
  unfold execSll
  exact outKeeps_next (keeps_spAluOp hs)

theorem outKeeps_execSrl {d : Fin 4} {n : Fin 32} {w : BitVec 32} (hs : Keeps σ s) :
    OutKeeps σ (execSrl d n w s) := by
  unfold execSrl
  exact outKeeps_next (keeps_spAluOp hs)

theorem outKeeps_execSra {d : Fin 4} {n : Fin 32} {w : BitVec 32} (hs : Keeps σ s) :
    OutKeeps σ (execSra d n w s) := by
  unfold execSra
  exact outKeeps_next (keeps_spAluOp hs)

theorem outKeeps_execSlt {d : Fin 4} {n : Fin 32} {w : BitVec 32} (hs : Keeps σ s) :
    OutKeeps σ (execSlt d n w s) := by
  unfold execSlt
  exact outKeeps_next (keeps_spAluOp hs)

theorem outKeeps_execSltu {d : Fin 4} {n : Fin 32} {w : BitVec 32} (hs : Keeps σ s) :
    OutKeeps σ (execSltu d n w s) := by
  unfold execSltu
  exact outKeeps_next (keeps_spAluOp hs)

theorem outKeeps_execMul {d : Fin 4} {n : Fin 32} {w : BitVec 32} (hs : Keeps σ s) :
    OutKeeps σ (execMul d n w s) := by
  unfold execMul
  exact outKeeps_next (keeps_spAluOp hs)

theorem outKeeps_execMulh {d : Fin 4} {n : Fin 32} {w : BitVec 32} (hs : Keeps σ s) :
    OutKeeps σ (execMulh d n w s) := by
  unfold execMulh
  exact outKeeps_next (keeps_spAluOp hs)

theorem outKeeps_execMulhu {d : Fin 4} {n : Fin 32} {w : BitVec 32} (hs : Keeps σ s) :
    OutKeeps σ (execMulhu d n w s) := by
  unfold execMulhu
  exact outKeeps_next (keeps_spAluOp hs)

theorem outKeeps_execDiv {d : Fin 4} {n : Fin 32} {w : BitVec 32} (hs : Keeps σ s) :
    OutKeeps σ (execDiv d n w s) := by
  unfold execDiv
  exact outKeeps_next (keeps_spAluOp hs)

theorem outKeeps_execDivu {d : Fin 4} {n : Fin 32} {w : BitVec 32} (hs : Keeps σ s) :
    OutKeeps σ (execDivu d n w s) := by
  unfold execDivu
  exact outKeeps_next (keeps_spAluOp hs)

theorem outKeeps_execRem {d : Fin 4} {n : Fin 32} {w : BitVec 32} (hs : Keeps σ s) :
    OutKeeps σ (execRem d n w s) := by
  unfold execRem
  exact outKeeps_next (keeps_spAluOp hs)

theorem outKeeps_execRemu {d : Fin 4} {n : Fin 32} {w : BitVec 32} (hs : Keeps σ s) :
    OutKeeps σ (execRemu d n w s) := by
  unfold execRemu
  exact outKeeps_next (keeps_spAluOp hs)

theorem outKeeps_execFadd {d : Fin 4} {n : Fin 32} {w : BitVec 32} (hs : Keeps σ s) :
    OutKeeps σ (execFadd d n w s) := by
  unfold execFadd
  exact outKeeps_next (keeps_spFpOp hs)

theorem outKeeps_execFsub {d : Fin 4} {n : Fin 32} {w : BitVec 32} (hs : Keeps σ s) :
    OutKeeps σ (execFsub d n w s) := by
  unfold execFsub
  exact outKeeps_next (keeps_spFpOp hs)

theorem outKeeps_execFmul {d : Fin 4} {n : Fin 32} {w : BitVec 32} (hs : Keeps σ s) :
    OutKeeps σ (execFmul d n w s) := by
  unfold execFmul
  exact outKeeps_next (keeps_spFpOp hs)

theorem outKeeps_execFdiv {d : Fin 4} {n : Fin 32} {w : BitVec 32} (hs : Keeps σ s) :
    OutKeeps σ (execFdiv d n w s) := by
  unfold execFdiv
  exact outKeeps_next (keeps_spFpOp hs)

theorem outKeeps_execFsqrt {d : Fin 4} {n : Fin 32} {w : BitVec 32} (hs : Keeps σ s) :
    OutKeeps σ (execFsqrt d n w s) := by
  unfold execFsqrt
  exact outKeeps_next (keeps_spFpOp hs)

theorem outKeeps_execFmin {d : Fin 4} {n : Fin 32} {w : BitVec 32} (hs : Keeps σ s) :
    OutKeeps σ (execFmin d n w s) := by
  unfold execFmin
  exact outKeeps_next (keeps_spFpOp hs)

theorem outKeeps_execFmax {d : Fin 4} {n : Fin 32} {w : BitVec 32} (hs : Keeps σ s) :
    OutKeeps σ (execFmax d n w s) := by
  unfold execFmax
  exact outKeeps_next (keeps_spFpOp hs)

theorem outKeeps_execFeq {d : Fin 4} {n : Fin 32} {w : BitVec 32} (hs : Keeps σ s) :
    OutKeeps σ (execFeq d n w s) := by
  unfold execFeq
  exact outKeeps_next (keeps_spFpOp hs)

theorem outKeeps_execFlt {d : Fin 4} {n : Fin 32} {w : BitVec 32} (hs : Keeps σ s) :
    OutKeeps σ (execFlt d n w s) := by
  unfold execFlt
  exact outKeeps_next (keeps_spFpOp hs)

theorem outKeeps_execFle {d : Fin 4} {n : Fin 32} {w : BitVec 32} (hs : Keeps σ s) :
    OutKeeps σ (execFle d n w s) := by
  unfold execFle
  exact outKeeps_next (keeps_spFpOp hs)

theorem outKeeps_execFcvtWS {d : Fin 4} {n : Fin 32} {w : BitVec 32} (hs : Keeps σ s) :
    OutKeeps σ (execFcvtWS d n w s) := by
  unfold execFcvtWS
  exact outKeeps_next (keeps_spFpOp hs)

theorem outKeeps_execFcvtWuS {d : Fin 4} {n : Fin 32} {w : BitVec 32} (hs : Keeps σ s) :
    OutKeeps σ (execFcvtWuS d n w s) := by
  unfold execFcvtWuS
  exact outKeeps_next (keeps_spFpOp hs)

theorem outKeeps_execFcvtSW {d : Fin 4} {n : Fin 32} {w : BitVec 32} (hs : Keeps σ s) :
    OutKeeps σ (execFcvtSW d n w s) := by
  unfold execFcvtSW
  exact outKeeps_next (keeps_spFpOp hs)

theorem outKeeps_execFcvtSWu {d : Fin 4} {n : Fin 32} {w : BitVec 32} (hs : Keeps σ s) :
    OutKeeps σ (execFcvtSWu d n w s) := by
  unfold execFcvtSWu
  exact outKeeps_next (keeps_spFpOp hs)

theorem outKeeps_execFclass {d : Fin 4} {n : Fin 32} {w : BitVec 32} (hs : Keeps σ s) :
    OutKeeps σ (execFclass d n w s) := by
  unfold execFclass
  exact outKeeps_next (keeps_spFpOp hs)

theorem outKeeps_execFma {d : Fin 4} {n : Fin 32} {w : BitVec 32} (hs : Keeps σ s) :
    OutKeeps σ (execFma d n w s) := by
  unfold execFma
  extract_lets v
  exact outKeeps_next (keeps_spIssue hs (keeps_fpWrite hs))

theorem outKeeps_execAddi {d : Fin 4} {n : Fin 32} {w : BitVec 32} (hs : Keeps σ s) :
    OutKeeps σ (execAddi d n w s) := by
  unfold execAddi
  exact outKeeps_next (keeps_spImmOp hs)

theorem outKeeps_execAndi {d : Fin 4} {n : Fin 32} {w : BitVec 32} (hs : Keeps σ s) :
    OutKeeps σ (execAndi d n w s) := by
  unfold execAndi
  exact outKeeps_next (keeps_spImmOp hs)

theorem outKeeps_execOri {d : Fin 4} {n : Fin 32} {w : BitVec 32} (hs : Keeps σ s) :
    OutKeeps σ (execOri d n w s) := by
  unfold execOri
  exact outKeeps_next (keeps_spImmOp hs)

theorem outKeeps_execXori {d : Fin 4} {n : Fin 32} {w : BitVec 32} (hs : Keeps σ s) :
    OutKeeps σ (execXori d n w s) := by
  unfold execXori
  exact outKeeps_next (keeps_spImmOp hs)

theorem outKeeps_execSlli {d : Fin 4} {n : Fin 32} {w : BitVec 32} (hs : Keeps σ s) :
    OutKeeps σ (execSlli d n w s) := by
  unfold execSlli
  exact outKeeps_next (keeps_spImmOp hs)

theorem outKeeps_execSrli {d : Fin 4} {n : Fin 32} {w : BitVec 32} (hs : Keeps σ s) :
    OutKeeps σ (execSrli d n w s) := by
  unfold execSrli
  exact outKeeps_next (keeps_spImmOp hs)

theorem outKeeps_execSrai {d : Fin 4} {n : Fin 32} {w : BitVec 32} (hs : Keeps σ s) :
    OutKeeps σ (execSrai d n w s) := by
  unfold execSrai
  exact outKeeps_next (keeps_spImmOp hs)

theorem outKeeps_execSlti {d : Fin 4} {n : Fin 32} {w : BitVec 32} (hs : Keeps σ s) :
    OutKeeps σ (execSlti d n w s) := by
  unfold execSlti
  exact outKeeps_next (keeps_spImmOp hs)

theorem outKeeps_execSltiu {d : Fin 4} {n : Fin 32} {w : BitVec 32} (hs : Keeps σ s) :
    OutKeeps σ (execSltiu d n w s) := by
  unfold execSltiu
  exact outKeeps_next (keeps_spImmOp hs)

theorem outKeeps_execLui {d : Fin 4} {n : Fin 32} {w : BitVec 32} (hs : Keeps σ s) :
    OutKeeps σ (execLui d n w s) := by
  unfold execLui
  exact outKeeps_next (keeps_spImmOp hs)

theorem optHolds_meshGo {d n : Nat} {m : MeshAcc} (hs : Holds σ s) : OptHolds σ (meshGo s d n m) := by
  have answered : ∀ {t st value}, Holds σ t → OptHolds σ (some (meshAnswer t d n st value)) := fun {t _ _} ht =>
    optHolds_some (ht.step (keeps_meshAnswer (.refl t)))
  have accessed : ∀ {k off t a}, (if m.isStore then dieWrite s (spireAgent d n) k off (meshBytes m)
      else dieRead s (spireAgent d n) k off m.size) = (a, t) → Holds σ t := fun h =>
    holds_of_snd_eq h (holds_snd_ite (holds_dieWrite hs) (hs.step (keeps_dieRead (.refl s))))
  fun_cases meshGo s d n m
  case case1 => exact answered hs
  case case2 => exact answered hs
  case case3 sent => exact optHolds_some (hs.stepOpt (optKeeps_sendAsk (.refl s)) _ sent)
  case case4 done => exact answered (accessed done)
  case case5 done => exact answered (accessed done)
  case case6 done => exact optHolds_some (accessed done)
  case case7 => exact optHolds_none
  case case8 =>
    exact optHolds_some (hs.step (keeps_holdAt (keeps_setSpire (.refl s) (spireKeeps_spire (.refl s)))))

theorem holds_spAccess {d n : Nat} {isStore sgn : Bool} {size rd : Nat} {a x : Word} (hs : Holds σ s) :
    Holds σ (spAccess s d n isStore sgn size rd a x) := by
  unfold spAccess
  extract_lets v s1
  have hs1 : Holds σ s1 := hs.step (keeps_putLocal (.refl _))
  split
  · exact hs.step (keeps_spTrap (.refl _))
  · split
    · exact holds_ite (hs1.step (keeps_setSpire (.refl _) (spireKeeps_spNext (spireKeeps_spire (.refl _)))))
        (hs.step (keeps_setSpire (.refl _) (spireKeeps_spNext (spireKeeps_spSet (spireKeeps_spire (.refl _))))))
    · split
      · exact (hs.step (keeps_addrError (.refl _))).step (keeps_spTrap (.refl _))
      · extract_lets m
        exact holds_getD (optHolds_meshGo (hs.step (keeps_setSpire (.refl _) (spireKeeps_spire (.refl _))))) hs

theorem holds_spLoad {size : Nat} {sgn : Bool} {i : SpOp} {d : Fin 4} {n : Fin 32} {w : Word} (hs : Holds σ s) :
    Holds σ (spLoad size sgn i d n w s) := by
  unfold spLoad
  exact holds_spIssue hs (holds_spAccess hs)

theorem holds_spStore {size : Nat} {i : SpOp} {d : Fin 4} {n : Fin 32} {w : Word} (hs : Holds σ s) :
    Holds σ (spStore size i d n w s) := by
  unfold spStore
  extract_lets v
  exact holds_spIssue hs (holds_spAccess hs)

theorem outHolds_execLw {d : Fin 4} {n : Fin 32} {w : BitVec 32} (hs : Holds σ s) : OutHolds σ (execLw d n w s) := by
  unfold execLw
  exact outHolds_next (holds_spLoad hs)

theorem outHolds_execLh {d : Fin 4} {n : Fin 32} {w : BitVec 32} (hs : Holds σ s) : OutHolds σ (execLh d n w s) := by
  unfold execLh
  exact outHolds_next (holds_spLoad hs)

theorem outHolds_execLhu {d : Fin 4} {n : Fin 32} {w : BitVec 32} (hs : Holds σ s) :
    OutHolds σ (execLhu d n w s) := by
  unfold execLhu
  exact outHolds_next (holds_spLoad hs)

theorem outHolds_execLb {d : Fin 4} {n : Fin 32} {w : BitVec 32} (hs : Holds σ s) : OutHolds σ (execLb d n w s) := by
  unfold execLb
  exact outHolds_next (holds_spLoad hs)

theorem outHolds_execLbu {d : Fin 4} {n : Fin 32} {w : BitVec 32} (hs : Holds σ s) :
    OutHolds σ (execLbu d n w s) := by
  unfold execLbu
  exact outHolds_next (holds_spLoad hs)

theorem outHolds_execSw {d : Fin 4} {n : Fin 32} {w : BitVec 32} (hs : Holds σ s) : OutHolds σ (execSw d n w s) := by
  unfold execSw
  exact outHolds_next (holds_spStore hs)

theorem outHolds_execSh {d : Fin 4} {n : Fin 32} {w : BitVec 32} (hs : Holds σ s) : OutHolds σ (execSh d n w s) := by
  unfold execSh
  exact outHolds_next (holds_spStore hs)

theorem outHolds_execSb {d : Fin 4} {n : Fin 32} {w : BitVec 32} (hs : Holds σ s) : OutHolds σ (execSb d n w s) := by
  unfold execSb
  exact outHolds_next (holds_spStore hs)

theorem keeps_meshBoundary {d n : Nat} {run : Bool} (hs : Keeps σ s) : Keeps σ (meshBoundary s d n run) := by
  unfold meshBoundary
  extract_lets v
  exact keeps_ite (keeps_setSpire hs (spireKeeps_haltSpire (spireKeeps_spire hs))) hs

theorem keeps_meshEnd {d n : Nat} {m : MeshAcc} {st : Nat} {x : Word} (hs : Keeps σ s) :
    Keeps σ (meshEnd s d n m st x) := by
  unfold meshEnd
  extract_lets v s1
  have hs1 : Keeps σ s1 := keeps_setSpire hs (spireKeeps_spire hs)
  exact keeps_ite (keeps_setSpire hs (spireKeeps_meshDone (spireKeeps_spire hs))) (keeps_spTrap (keeps_accessRec hs1))

theorem outKeeps_execMeshAccessComplete {d : Fin 4} {n : Fin 32} (hs : Keeps σ s) :
    OutKeeps σ (execMeshAccessComplete d n s) := by
  unfold execMeshAccessComplete
  refine outKeeps_next ?_
  split
  · exact hs
  · split
    · exact hs
    · exact keeps_meshBoundary (keeps_meshEnd hs)

theorem keeps_spJump {d n : Nat} {v : Spire} {pc : Word} (hs : Keeps σ s) (hv : SpireKeeps σ d v) :
    Keeps σ (spJump s d n v pc) := keeps_setSpire hs hv

theorem keeps_spBr {f : Word → Word → Bool} {i : SpOp} {d : Fin 4} {n : Fin 32} {w : Word} (hs : Keeps σ s) :
    Keeps σ (spBr f i d n w s) := by
  unfold spBr
  extract_lets v
  exact keeps_spIssue hs (keeps_spJump hs (spireKeeps_spire hs))

theorem outKeeps_execBeq {d : Fin 4} {n : Fin 32} {w : BitVec 32} (hs : Keeps σ s) :
    OutKeeps σ (execBeq d n w s) := by
  unfold execBeq
  exact outKeeps_next (keeps_spBr hs)

theorem outKeeps_execBne {d : Fin 4} {n : Fin 32} {w : BitVec 32} (hs : Keeps σ s) :
    OutKeeps σ (execBne d n w s) := by
  unfold execBne
  exact outKeeps_next (keeps_spBr hs)

theorem outKeeps_execBlt {d : Fin 4} {n : Fin 32} {w : BitVec 32} (hs : Keeps σ s) :
    OutKeeps σ (execBlt d n w s) := by
  unfold execBlt
  exact outKeeps_next (keeps_spBr hs)

theorem outKeeps_execBge {d : Fin 4} {n : Fin 32} {w : BitVec 32} (hs : Keeps σ s) :
    OutKeeps σ (execBge d n w s) := by
  unfold execBge
  exact outKeeps_next (keeps_spBr hs)

theorem outKeeps_execBltu {d : Fin 4} {n : Fin 32} {w : BitVec 32} (hs : Keeps σ s) :
    OutKeeps σ (execBltu d n w s) := by
  unfold execBltu
  exact outKeeps_next (keeps_spBr hs)

theorem outKeeps_execBgeu {d : Fin 4} {n : Fin 32} {w : BitVec 32} (hs : Keeps σ s) :
    OutKeeps σ (execBgeu d n w s) := by
  unfold execBgeu
  exact outKeeps_next (keeps_spBr hs)

theorem outKeeps_execCall {d : Fin 4} {n : Fin 32} {w : BitVec 32} (hs : Keeps σ s) :
    OutKeeps σ (execCall d n w s) := by
  unfold execCall
  extract_lets v
  exact outKeeps_next (keeps_spIssue hs (keeps_spJump hs (spireKeeps_spSet (spireKeeps_spire hs))))

theorem outKeeps_execJalr {d : Fin 4} {n : Fin 32} {w : BitVec 32} (hs : Keeps σ s) :
    OutKeeps σ (execJalr d n w s) := by
  unfold execJalr
  extract_lets v
  exact outKeeps_next (keeps_spIssue hs (keeps_spJump hs (spireKeeps_spSet (spireKeeps_spire hs))))

theorem spireKeeps_winSet {v : Spire} {k r : Nat} {x : Word} (hv : SpireKeeps σ die v) :
    SpireKeeps σ die (winSet v k r x) := by
  unfold winSet
  exact hv

theorem keeps_spEnter {d n : Nat} {w : Word} (hs : Keeps σ s) : Keeps σ (spEnter s d n w) := by
  unfold spEnter
  extract_lets v k v1
  have hv : SpireKeeps σ d v := spireKeeps_spire hs
  split
  · exact keeps_spFault hs
  · split
    · exact keeps_spTrap hs
    · split
      · exact keeps_winTrap hs
      · rename_i notFull
        refine keeps_setSpire hs fun hσ whole => ?_
        obtain ⟨-, -, most⟩ := hv hσ whole
        have ring : (v.cwp + 1) % 7 < 8 := by omega
        exact ⟨ring, Nat.le_add_left _ _, (by omega : v.live + 1 ≤ 7)⟩

theorem keeps_spLeave {d n : Nat} {w : Word} (hs : Keeps σ s) : Keeps σ (spLeave s d n w) := by
  unfold spLeave
  extract_lets v k v1
  have hv : SpireKeeps σ d v := spireKeeps_spire hs
  split
  · exact keeps_spFault hs
  · split
    · exact keeps_spTrap hs
    · split
      · exact keeps_winTrap hs
      · rename_i notOne
        refine keeps_setSpire hs fun hσ whole => ?_
        obtain ⟨-, least, most⟩ := hv hσ whole
        have ring : (v.cwp + 6) % 7 < 8 := by omega
        exact ⟨ring, (by omega : 1 ≤ v.live - 1), (by omega : v.live - 1 ≤ 7)⟩

theorem outKeeps_execEnter {d : Fin 4} {n : Fin 32} {w : BitVec 32} (hs : Keeps σ s) :
    OutKeeps σ (execEnter d n w s) := by
  unfold execEnter
  exact outKeeps_next (keeps_spIssue hs (keeps_spEnter hs))

theorem outKeeps_execLeave {d : Fin 4} {n : Fin 32} {w : BitVec 32} (hs : Keeps σ s) :
    OutKeeps σ (execLeave d n w s) := by
  unfold execLeave
  exact outKeeps_next (keeps_spIssue hs (keeps_spLeave hs))

theorem spireKeeps_winLoad {v : Spire} {k r : Nat} {l : List Word} (hv : SpireKeeps σ die v) :
    SpireKeeps σ die (winLoad v k r l) := by
  induction l generalizing v r with
  | nil => exact hv
  | cons x l ih => exact ih (spireKeeps_winSet hv)

theorem live_ne_of_moveCheck {v : Spire} {w : Word} {limit : Nat} (h : moveCheck v w limit = none) : v.live ≠ limit := by
  unfold moveCheck at h
  dsimp only at h
  split at h
  · cases h
  · rename_i may
    exact fun e => may (.inr (.inl e))

theorem outKeeps_execWspill {d : Fin 4} {n : Fin 32} {w : BitVec 32} (hs : Keeps σ s) :
    OutKeeps σ (execWspill d n w s) := by
  unfold execWspill
  extract_lets v s1
  refine outKeeps_next (keeps_spIssue hs ?_)
  have hv : SpireKeeps σ d v := spireKeeps_spire hs
  have hs1 : Keeps σ s1 := keeps_putLocal hs
  split
  · exact keeps_spTrap hs
  · have more := live_ne_of_moveCheck ‹_›
    refine keeps_setSpire hs1 fun hσ whole => ?_
    obtain ⟨-, least, most⟩ := hv hσ whole
    obtain ⟨window, -⟩ := spireKeeps_spire (n := n) hs1 hσ whole
    exact ⟨window, (by omega : 1 ≤ v.live - 1), (by omega : v.live - 1 ≤ 7)⟩

theorem outKeeps_execWfill {d : Fin 4} {n : Fin 32} {w : BitVec 32} (hs : Keeps σ s) :
    OutKeeps σ (execWfill d n w s) := by
  unfold execWfill
  extract_lets v ws u
  refine outKeeps_next (keeps_spIssue hs ?_)
  have hv : SpireKeeps σ d v := spireKeeps_spire hs
  have loaded : SpireKeeps σ d u := spireKeeps_winLoad hv
  clear_value u
  split
  · exact keeps_spTrap hs
  · have room := live_ne_of_moveCheck ‹_›
    refine keeps_setSpire hs fun hσ whole => ?_
    obtain ⟨-, -, most⟩ := hv hσ whole
    obtain ⟨window, -⟩ := loaded hσ whole
    exact ⟨window, Nat.le_add_left _ _, (by omega : v.live + 1 ≤ 7)⟩

theorem outKeeps_execNop {d : Fin 4} {n : Fin 32} {w : BitVec 32} (hs : Keeps σ s) :
    OutKeeps σ (execNop d n w s) := by
  unfold execNop
  exact outKeeps_next (keeps_spIssue hs (keeps_setSpire hs (spireKeeps_spNext (spireKeeps_spire hs))))

theorem outKeeps_execIflush {d : Fin 4} {n : Fin 32} {w : BitVec 32} (hs : Keeps σ s) :
    OutKeeps σ (execIflush d n w s) := by
  unfold execIflush
  refine outKeeps_next ?_
  refine keeps_spIssue hs ?_
  refine keeps_setSpire hs ?_
  refine spireKeeps_spNext ?_
  extract_lets
  exact spireKeeps_spire hs

theorem keeps_spRft {d n : Nat} {w k : Word} (hs : Keeps σ s) : Keeps σ (spRft s d n w k) := by
  unfold spRft
  refine keeps_ite (keeps_spTrap hs) (keeps_setSpire hs fun hσ whole => ?_)
  obtain ⟨-, live⟩ := spireKeeps_spire (n := n) hs hσ whole
  exact ⟨BitVec.isLt _, live⟩

theorem outKeeps_execRftR {d : Fin 4} {n : Fin 32} {w : BitVec 32} (hs : Keeps σ s) :
    OutKeeps σ (execRftR d n w s) := by
  unfold execRftR
  exact outKeeps_next (keeps_spIssue hs (keeps_spRft hs))

theorem outKeeps_execRftN {d : Fin 4} {n : Fin 32} {w : BitVec 32} (hs : Keeps σ s) :
    OutKeeps σ (execRftN d n w s) := by
  unfold execRftN
  exact outKeeps_next (keeps_spIssue hs (keeps_spRft hs))

theorem outKeeps_execHalt {d : Fin 4} {n : Fin 32} {w : BitVec 32} (hs : Keeps σ s) :
    OutKeeps σ (execHalt d n w s) := by
  unfold execHalt
  exact outKeeps_next (keeps_spIssue hs (keeps_setSpire hs (spireKeeps_haltSpire
    (spireKeeps_spNext (spireKeeps_spire hs)))))

theorem outKeeps_execTrap {d : Fin 4} {n : Fin 32} {w : BitVec 32} (hs : Keeps σ s) :
    OutKeeps σ (execTrap d n w s) := by
  unfold execTrap
  exact outKeeps_next (keeps_spIssue hs (keeps_spTrap hs))

theorem rdKeeps_spSpecial {d : Fin 4} {n : Fin 32} {r : Nat} (hs : Keeps σ s) : RdKeeps σ (spSpecial s d n r) := by
  unfold spSpecial
  extract_lets v
  split
  · exact rdKeeps_rdSame hs
  · exact rdKeeps_rdSame hs
  · exact rdKeeps_rdSame hs
  · exact rdKeeps_rdSame hs
  · exact rdKeeps_rdSame hs
  · exact rdKeeps_rdSame hs
  · exact rdKeeps_rdSame hs
  · exact rdKeeps_rdSame hs
  · exact rdKeeps_rdSame hs
  · exact rdKeeps_rdSame hs
  · exact rdKeeps_rdSame hs
  · exact rdKeeps_rdSame hs
  · exact rdKeeps_some (keeps_tbLoRead hs)
  · exact rdKeeps_rdSame hs
  · exact rdKeeps_rdSame hs
  · exact rdKeeps_none

theorem outKeeps_execRds {d : Fin 4} {n : Fin 32} {w : BitVec 32} (hs : Keeps σ s) :
    OutKeeps σ (execRds d n w s) := by
  unfold execRds
  refine outKeeps_next (keeps_spIssue hs ?_)
  split
  · exact keeps_spTrap hs
  · exact keeps_spWrite (rdKeeps_spSpecial hs _ _ ‹_›)

/-- A special register written moves no window. -/
theorem windows_spSpecialSet {v u : Spire} {r : Nat} {x : Word} (h : spSpecialSet v r x = some u) :
    u.cwp = v.cwp ∧ u.live = v.live := by
  unfold spSpecialSet at h
  split at h
  case h_7 =>
    split at h
    · cases h
    · cases h
      exact ⟨rfl, rfl⟩
  case h_16 => cases h
  all_goals
    cases h
    exact ⟨rfl, rfl⟩

theorem outKeeps_execWrs {d : Fin 4} {n : Fin 32} {w : BitVec 32} (hs : Keeps σ s) :
    OutKeeps σ (execWrs d n w s) := by
  unfold execWrs
  extract_lets v
  refine outKeeps_next (keeps_spIssue hs ?_)
  split
  · exact keeps_spTrap hs
  · refine keeps_setSpire hs fun hσ whole => ?_
    obtain ⟨window, live⟩ := windows_spSpecialSet ‹_›
    have fits : WindowsFit v := spireKeeps_spire hs hσ whole
    unfold WindowsFit at fits ⊢
    rwa [← window, ← live] at fits

theorem keeps_spWaiting {d n : Nat} {w : Word} {k : SpWaitKind} {a : Word} (hs : Keeps σ s) :
    Keeps σ (spWaiting s d n w k a) := by
  unfold spWaiting
  extract_lets v name
  exact keeps_setSpire hs (spireKeeps_spire hs)

theorem keeps_spReply {r : Reply} {d n : Nat} (hr : Keeps σ r.2) : Keeps σ (spReply r d n) := by
  unfold spReply
  split
  · exact keeps_spireDone hr
  · exact hr

theorem keeps_payloadTrap {d n k : Nat} {a : Word} {go : State} (hs : Keeps σ s) (hgo : Keeps σ go) :
    Keeps σ (payloadTrap s d n k a go) := keeps_ite (keeps_spTrap hs) (keeps_ite (keeps_spTrap hs) hgo)

theorem keeps_spNamed {d n : Nat} {name : Word} {r : Reply} (hs : Keeps σ s) (hr : Keeps σ r.2) :
    Keeps σ (spNamed s d n name r) := keeps_ite (keeps_spireDone hs) (keeps_spReply hr)

theorem outKeeps_execQpush {d : Fin 4} {n : Fin 32} {w : BitVec 32} (hs : Keeps σ s) :
    OutKeeps σ (execQpush d n w s) := by
  unfold execQpush
  extract_lets v name a s1
  have hs1 : Keeps σ s1 := keeps_spWaiting hs
  exact outKeeps_next (keeps_spIssue hs (keeps_payloadTrap hs (keeps_spNamed hs1 (keeps_sendQpush hs1))))

theorem outKeeps_execQpop {d : Fin 4} {n : Fin 32} {w : BitVec 32} (hs : Keeps σ s) :
    OutKeeps σ (execQpop d n w s) := by
  unfold execQpop
  extract_lets v name a s1
  have hs1 : Keeps σ s1 := keeps_spWaiting hs
  exact outKeeps_next (keeps_spIssue hs (keeps_payloadTrap hs (keeps_spNamed hs1 (keeps_sendQpop hs1))))

theorem outKeeps_execBadd {d : Fin 4} {n : Fin 32} {w : BitVec 32} (hs : Keeps σ s) :
    OutKeeps σ (execBadd d n w s) := by
  unfold execBadd
  extract_lets v name s1
  have hs1 : Keeps σ s1 := keeps_spWaiting hs
  exact outKeeps_next (keeps_spIssue hs (keeps_spNamed hs1 (keeps_sendBadd hs1)))

theorem outKeeps_execBwait {d : Fin 4} {n : Fin 32} {w : BitVec 32} (hs : Keeps σ s) :
    OutKeeps σ (execBwait d n w s) := by
  unfold execBwait
  extract_lets v name s1
  have hs1 : Keeps σ s1 := keeps_spWaiting hs
  exact outKeeps_next (keeps_spIssue hs (keeps_spNamed hs1 (keeps_sendBwait hs1)))

theorem outKeeps_execWaitt {d : Fin 4} {n : Fin 32} {w : BitVec 32} (hs : Keeps σ s) :
    OutKeeps σ (execWaitt d n w s) := by
  unfold execWaitt
  extract_lets v t
  exact outKeeps_next (keeps_spIssue hs (keeps_ite (keeps_spWrite hs)
    (keeps_ite (keeps_spWrite hs) (keeps_setSpire hs (spireKeeps_spire hs)))))

theorem outKeeps_execWaittReached {d : Fin 4} {n : Fin 32} (hs : Keeps σ s) :
    OutKeeps σ (execWaittReached d n s) := by
  unfold execWaittReached
  refine outKeeps_next ?_
  split
  · exact keeps_ite (keeps_spireDone hs) hs
  · exact hs

theorem keeps_waitServe {w : SpWait} (hs : Keeps σ s) : Keeps σ (waitServe s w) := by
  unfold waitServe
  exact keeps_ite (keeps_admitAll hs) hs

theorem outKeeps_execDeadlineTimeout {d : Fin 4} {n : Fin 32} (hs : Keeps σ s) :
    OutKeeps σ (execDeadlineTimeout d n s) := by
  unfold execDeadlineTimeout
  refine outKeeps_next ?_
  split
  · exact hs
  · split
    · exact hs
    · split
      · exact hs
      · extract_lets s1 s2
        have hs1 : Keeps σ s1 := keeps_waitServe hs
        have hs2 : Keeps σ s2 := keeps_withdraw hs1
        split
        · exact hs1
        · exact keeps_spireDone hs2

theorem outKeeps_execTimer {d : Fin 4} {n : Fin 32} (hs : Keeps σ s) : OutKeeps σ (execTimer d n s) := by
  unfold execTimer
  extract_lets v
  refine outKeeps_next ?_
  split
  · exact hs
  · split
    · exact keeps_spTrap hs
    · split
      · exact hs
      · split
        · exact keeps_spTrap (keeps_setSpire hs (spireKeeps_spire hs))
        · extract_lets s1
          have hs1 : Keeps σ s1 := keeps_cancelOp (keeps_setSpire hs (spireKeeps_spire hs))
          exact keeps_ite (keeps_spTrap hs1) hs1

end Sys2Proof.Machine
end

section
/-! What every command keeps: the host's memory requests. -/

namespace Sys2Proof.Machine

variable {σ s : State}

theorem keeps_setStall {n : Nat} {id : Word} {b : Bool} (hs : Keeps σ s) : Keeps σ (setStall s n id b) := by
  unfold setStall
  extract_lets v others
  exact keeps_setSession (keeps_withHost hs rfl)

theorem holds_hostMem {f : Frame} (hs : Holds σ s) : Holds σ (hostMem s f) := by
  unfold hostMem
  extract_lets n id a store
  split
  · exact hs.step (keeps_hostComplete (.refl _))
  · exact (hs.step (keeps_askOut (.refl _))).step (keeps_hostDone (.refl _))
  · split
    · exact (holds_of_snd_eq ‹_› (holds_snd_ite (holds_dieWrite hs) (hs.step (keeps_dieRead (.refl _))))).step
        (keeps_hostComplete (.refl _))
    · exact (holds_of_snd_eq ‹_› (holds_snd_ite (holds_dieWrite hs) (hs.step (keeps_dieRead (.refl _))))).step
        (keeps_hostComplete (.refl _))
    · exact holds_of_snd_eq ‹_› (holds_snd_ite (holds_dieWrite hs) (hs.step (keeps_dieRead (.refl _))))
    · exact hs.step (keeps_setStall (.refl _))

theorem holds_hostRetry {n : Nat} {id : Word} (hs : Holds σ s) : Holds σ (hostRetry s n id) := by
  unfold hostRetry
  split
  · exact holds_hostMem (hs.step (keeps_setStall (.refl _)))
  · exact hs

theorem holds_foldl {α : Type} {f : State → α → State} {l : List α} (hs : Holds σ s)
    (hf : ∀ t a, Holds σ t → Holds σ (f t a)) : Holds σ (l.foldl f s) := by
  induction l generalizing s with
  | nil => exact hs
  | cons a l ih => exact ih (hf s a hs)

theorem outHolds_execRefclkReturn (hs : Holds σ s) : OutHolds σ (execRefclkReturn s) := by
  unfold execRefclkReturn
  extract_lets _ s1
  have hs1 : Keeps s s1 := Keeps.refl s
  exact outHolds_next (holds_foldl (hs.step hs1) fun _ _ h => holds_hostRetry h)

theorem holds_takeRequest {e : InFrame} {act : State → State} (hs : Holds σ s) (hact : ∀ t, Holds σ t → Holds σ (act t)) :
    Holds σ (takeRequest s e act) := by
  unfold takeRequest
  extract_lets ep f n v
  split
  · exact hs.step (keeps_reply (.refl _))
  · split
    · exact hs.step (keeps_reply (.refl _))
    · split
      · exact hs.step (keeps_reply (.refl _))
      · split
        · exact (hs.step (keeps_setSession (.refl _))).step (keeps_countDup (.refl _))
        · split
          · exact (hs.step (keeps_countDup (.refl _))).step (keeps_replyCached (.refl _))
          · exact holds_ite ((hs.step (keeps_withHost (.refl _) rfl)).step (keeps_reply (.refl _)))
              (holds_ite (hs.step (keeps_timeoutReq (.refl _))) (hact _ (hs.step (keeps_setSession (.refl _)))))

theorem holds_hostRow {kind : Nat} {act : State → InFrame → State} (hs : Holds σ s)
    (hact : ∀ t e, Holds σ t → Holds σ (act t e)) : Holds σ (hostRow s kind act) := by
  unfold hostRow
  split
  · split
    · exact hs
    · extract_lets _ s1
      have hs1 : Holds σ s1 := hact _ _ (hs.step (keeps_withHost (.refl _) rfl))
      exact (hs1.step (keeps_pauseCheck (.refl _))).step (keeps_pauseCheck (.refl _))
  · exact hs

theorem holds_memRow {kind : Nat} (hs : Holds σ s) : Holds σ (memRow s kind) :=
  holds_hostRow hs fun _ _ ht => holds_takeRequest ht fun _ hu => holds_hostMem hu

theorem outHolds_execHostRd (hs : Holds σ s) : OutHolds σ (execHostRd s) := by
  unfold execHostRd
  exact outHolds_next (holds_memRow hs)

theorem outHolds_execHostWr (hs : Holds σ s) : OutHolds σ (execHostWr s) := by
  unfold execHostWr
  exact outHolds_next (holds_memRow hs)

theorem keeps_wuPush {n : Nat} {f : Frame} (hs : Keeps σ s) : Keeps σ (wuPush s n f) := by
  have noted : ∀ {x}, Keeps σ { s with host := { s.host with wupdLast := x } } := keeps_withHost hs rfl
  fun_cases wuPush s n f
  case case1 => exact keeps_wuEnd noted
  case case2 => exact keeps_wuEnd noted
  case case3 sent =>
    refine keeps_withHost (optKeeps_sendAsk ?_ _ sent) rfl
    exact noted
  case case4 => exact keeps_wuEnd noted

theorem keeps_wuRead {n need : Nat} {f : Frame} (hs : Keeps σ s) : Keeps σ (wuRead s n f need).1 := by
  have read : ∀ {d off len a t}, dieRead s hostAgent d off len = (a, t) → Keeps σ t := fun h =>
    keeps_of_snd_eq h (keeps_dieRead hs)
  fun_cases wuRead s n f need
  case case1 => exact keeps_wuEnd hs
  case case2 => exact keeps_wuEnd hs
  case case3 sent => exact keeps_withHost (optKeeps_sendAsk hs _ sent) rfl
  case case4 done => exact keeps_withHost (read done) rfl
  case case5 done => exact keeps_wuEnd (read done)
  case case6 done => exact read done

theorem keeps_wuGo {k : Nat} (hs : Keeps σ s) : Keeps σ (wuGo k s) := by
  induction k generalizing s with
  | zero => exact hs
  | succ k ih =>
    unfold wuGo
    split
    · exact hs
    · split
      · exact ih (keeps_withHost hs rfl)
      · refine keeps_ite hs (keeps_ite (ih (keeps_wuEnd hs)) ?_)
        split
        · exact ih (keeps_wuEnd hs)
        · split
          · exact ih (keeps_ite (keeps_wuPush hs) (keeps_wuEnd hs))
          · exact keeps_ite (ih (keeps_wuRead hs)) (keeps_wuRead hs)

theorem outKeeps_execWupd (hs : Keeps σ s) : OutKeeps σ (execWupd s) := by
  unfold execWupd
  extract_lets s1
  have hs1 : Keeps σ s1 := keeps_hostRow hs (fun t1 e1 h => keeps_takeRequest h (fun t2 h1 => keeps_withHost h1 rfl))
  exact outKeeps_next (keeps_wuGo hs1)

end Sys2Proof.Machine
end

section
/-! What every command keeps: the movers. -/

namespace Sys2Proof.Machine

variable {σ s : State}

theorem keeps_plPlace {d : Nat} {l : List (Nat × Word)} (hs : Keeps σ s) : Keeps σ (plPlace s d l) := by
  induction l generalizing s with
  | nil => exact hs
  | cons x l ih =>
    unfold plPlace
    extract_lets p i a
    exact ih (keeps_setPlinth hs)

theorem keeps_placeArea {d : Nat} {r : Region} {o : Nat} {bs : List Byte} (hs : Keeps σ s) :
    Keeps σ (placeArea s d r o bs) := by
  unfold placeArea
  cases r with
  | vault => exact keeps_setCd hs (dieKeeps_mems (dieKeeps_cd hs d) (memWf_memPut 0 o bs) id id id)
  | plinth => exact keeps_plPlace hs
  | tile => exact keeps_tileStores hs
  | spire => exact keeps_spireStores hs
  | regs => exact keeps_ite (keeps_pmemPut hs) hs
  | lpddr => exact keeps_withLpddr hs (memRises_lpPut _ _ _)
  | dome => exact hs
  | bell => exact hs
  | queue => exact hs
  | hbuf => exact hs

theorem keeps_loseRow {c : CopyCmd} {r : Nat} (hs : Keeps σ s) : Keeps σ (loseRow s c r) := by
  unfold loseRow
  extract_lets a
  split
  · split
    · exact keeps_placeArea (keeps_withFree hs)
    · exact hs
  · exact hs

theorem keeps_loseRows {c : CopyCmd} {l : List Nat} (hs : Keeps σ s) : Keeps σ (loseRows s c l) := by
  induction l generalizing s with
  | nil => exact hs
  | cons x l ih =>
    unfold loseRows
    exact ih (keeps_loseRow hs)

theorem keeps_moverErr {m : Fin 8} {a st : Nat} (hs : Keeps σ s) : Keeps σ (moverErr s m a st) := by
  unfold moverErr
  exact keeps_ite (keeps_addrError hs) hs

theorem keeps_copyFails {m : Fin 8} {c : CopyCmd} {r a st : Nat} (hs : Keeps σ s) :
    Keeps σ (copyFails s m c r a st) := by
  unfold copyFails
  exact keeps_moverFail (keeps_moverErr (keeps_loseRows hs))

theorem keeps_setRun {m : Fin 8} {r : CopyRun} (hs : Keeps σ s) : Keeps σ (setRun s m r) := by
  unfold setRun
  exact keeps_setMover hs

/-- Where a COPY goes on, and what it leaves where it does not. -/
theorem keeps_copyReads {m : Fin 8} {c : CopyCmd} {r : CopyRun} (hs : Keeps σ s) :
    OptKeeps σ (copyReads s m c r).1 ∧ Keeps σ (copyReads s m c r).2 := by
  have failed : ∀ {t a st}, Keeps σ t → OptKeeps σ none ∧ Keeps σ (copyFails t m c r.row a st) := fun ht =>
    ⟨optKeeps_none, keeps_copyFails ht⟩
  have read : ∀ {d off a t}, dieRead s (moverAgent m) d off c.len = (a, t) → Keeps σ t := fun h =>
    keeps_of_snd_eq h (keeps_dieRead hs)
  fun_cases copyReads s m c r
  case case1 => exact failed hs
  case case2 sent => exact ⟨optKeeps_none, keeps_setRun (optKeeps_sendAsk hs _ sent)⟩
  case case3 => exact failed hs
  case case4 done => exact ⟨optKeeps_some (keeps_setRun (read done)), read done⟩
  case case5 done => exact failed (read done)
  case case6 done => exact ⟨optKeeps_none, read done⟩

theorem holds_copyWrites {m : Fin 8} {c : CopyCmd} {r : CopyRun} {bs0 : List Byte} (hs : Holds σ s) :
    OptHolds σ (copyWrites s m c r bs0).1 ∧ Holds σ (copyWrites s m c r bs0).2 := by
  have failed : ∀ {t a st}, Holds σ t → OptHolds σ none ∧ Holds σ (copyFails t m c r.row a st) := fun ht =>
    ⟨optHolds_none, ht.step (keeps_copyFails (.refl _))⟩
  have drawn : ∀ {bs t}, (if copyOverlaps c = true then drawBytes s bs0.length else (bs0, s)) = (bs, t) → Holds σ t :=
    fun h => holds_of_snd_eq h (holds_snd_ite (hs.step (keeps_drawBytes (.refl s))) hs)
  have written : ∀ {t d off bs a u}, Holds σ t → dieWrite t (moverAgent m) d off bs = (a, u) → Holds σ u := fun ht h
    =>
    holds_of_snd_eq h (holds_dieWrite ht)
  fun_cases copyWrites s m c r bs0
  case case1 took _ _ => exact failed (drawn took)
  case case2 took _ _ sent =>
    exact ⟨optHolds_none, (Holds.stepOpt (drawn took) (optKeeps_sendAsk (.refl _)) _ sent).step
      (keeps_setRun (.refl _))⟩
  case case3 took _ _ => exact failed (drawn took)
  case case4 took _ _ _ _ _ done =>
    have h := written (drawn took) done
    exact ⟨optHolds_some (h.step (keeps_setRun (.refl _))), h⟩
  case case5 took _ _ _ _ _ done => exact failed (written (drawn took) done)
  case case6 took _ _ _ _ _ _ _ done => exact ⟨optHolds_none, written (drawn took) done⟩

theorem holds_copyGo {k : Nat} {m : Fin 8} {c : CopyCmd} (hs : Holds σ s) : Holds σ (copyGo k s m c) := by
  induction k generalizing s with
  | zero => exact hs
  | succ k ih =>
    unfold copyGo
    split
    · exact hs
    · rename_i r _
      split
      · exact hs.step (keeps_copyFails (.refl _))
      · split
        · exact hs
        · split
          · exact hs.step (keeps_finishCmd (keeps_setMover (.refl _)))
          · extract_lets t
            have ht : OptHolds σ t.1 ∧ Holds σ t.2 := by
              unfold t
              split
              · exact ⟨hs.stepOpt (keeps_copyReads (.refl s)).1, hs.step (keeps_copyReads (.refl s)).2⟩
              · exact holds_copyWrites hs
            clear_value t
            obtain ⟨go, stay⟩ := ht
            split
            · exact ih (go _ rfl)
            · exact stay

theorem holds_moverGo {m : Fin 8} (hs : Holds σ s) : Holds σ (moverGo s m) := by
  unfold moverGo
  split
  · exact holds_copyGo hs
  · exact hs

theorem holds_copyStart {m : Fin 8} {c : CopyCmd} (hs : Holds σ s) : Holds σ (copyStart s m c) := by
  unfold copyStart
  extract_lets es
  split
  · exact hs.step (keeps_finishCmd (.refl _))
  · split
    · exact (hs.step (keeps_moverErr (.refl _))).step (keeps_finishCmd (.refl _))
    · exact holds_copyGo (hs.step (keeps_setRun (.refl _)))

theorem outHolds_execMoverCopy {m : Fin 8} (hs : Holds σ s) : OutHolds σ (execMoverCopy m s) := by
  unfold execMoverCopy
  refine outHolds_next ?_
  split
  · exact hs
  · extract_lets c
    exact holds_ite hs (holds_ite (holds_moverGo hs) (holds_ite (holds_copyStart hs)
      (hs.step (keeps_finishCmd (.refl _)))))

end Sys2Proof.Machine
end

section
/-! What every command keeps: requests over links. -/

namespace Sys2Proof.Machine

variable {σ s : State} {die : Nat}

theorem keeps_answerDup {e p : Nat} {w : WinEntry} (hs : Keeps σ s) : Keeps σ (answerDup s e p w) := by
  unfold answerDup
  extract_lets _ s0
  have hs0 : Keeps σ s0 := keeps_setEndp hs
  split
  · split
    · exact keeps_sendTxn hs0
    · exact hs0
  · exact keeps_setParty hs0

theorem keeps_of_relayTo {die : Nat} {t : Txn} {who : Origin} {u : State} (h : relayTo s die t who = .ok u)
    (hs : Keeps σ s) : Keeps σ u := by
  unfold relayTo at h
  split at h
  · cases h
  · cases h
  · split at h
    · cases h
    · cases h
      exact keeps_sendAs hs

theorem keeps_rspTo {e : Nat} {t : Txn} {st : Nat} {data : List Byte} (hs : Keeps σ s) :
    Keeps σ (rspTo s e t st data) := by
  unfold rspTo
  exact keeps_respond hs

theorem optHolds_txnAccess {a : Access} {e : Nat} {t : Txn} (ha : Holds σ a.2) : OptHolds σ (txnAccess a e t) := by
  unfold txnAccess
  split
  · exact optHolds_some (Holds.step ha (keeps_rspTo (.refl _)))
  · exact optHolds_some (Holds.step ha (keeps_rspTo (.refl _)))
  · exact optHolds_some ha
  · exact optHolds_some (Holds.step ha (keeps_holdAt (.refl _)))
  · exact optHolds_none

theorem keeps_txnReply {r : Reply} {e : Nat} {t : Txn} {who : Origin} (hr : Keeps σ r.2) : Keeps σ (txnReply r e t who) := by
  unfold txnReply
  split
  · exact keeps_rspTo hr
  · exact keeps_ite (keeps_withNld hr) hr

theorem optKeeps_mapState {o : Option State} {f : State → State} (ho : OptKeeps σ o) (hf : ∀ t, Keeps σ t → Keeps σ (f t)) :
    OptKeeps σ (o.map f) := by
  cases o with
  | none => exact optKeeps_none
  | some t => exact optKeeps_some (hf t (ho t rfl))

theorem optKeeps_chnGo {e : Nat} {t : Txn} (hs : Keeps σ s) : OptKeeps σ (chnGo s e t) := by
  unfold chnGo
  split
  · exact optKeeps_some (keeps_rspTo hs)
  · extract_lets cols
    split
    · exact optKeeps_mapState (optKeeps_chainTake hs) fun _ h => keeps_chainPump (keeps_rspTo h)
    · exact optKeeps_none

theorem optHolds_txnHere {e : Nat} {t : Txn} (hs : Holds σ s) : OptHolds σ (txnHere s e t) := by
  unfold txnHere
  extract_lets k a die who g named
  have hnamed : ∀ at_ op, (∀ w, Keeps s (op w).2) → OptHolds σ (named at_ op) := by
    intro at_ op hop
    unfold named
    apply optHolds_some
    split
    · exact hs.step (keeps_rspTo (.refl s))
    · exact hs.step (keeps_txnReply (hop _))
  clear_value named
  refine optHolds_ite (optHolds_txnAccess (hs.step (keeps_dieRead (.refl s)))) ?_
  refine optHolds_ite (optHolds_txnAccess (holds_dieWrite hs)) ?_
  refine optHolds_ite (hnamed _ _ fun _ => keeps_localBadd (.refl s)) ?_
  refine optHolds_ite (hnamed _ _ fun _ => keeps_localBwait (.refl s)) ?_
  refine optHolds_ite (hnamed _ _ fun _ => keeps_localQpush (.refl s)) ?_
  refine optHolds_ite (hnamed _ _ fun _ => keeps_localQpop (.refl s)) ?_
  refine optHolds_ite (hs.stepOpt (optKeeps_chnGo (.refl s))) (optHolds_some ?_)
  split
  · exact hs.step (keeps_rspTo (.refl s))
  · exact hs.step (keeps_rspTo (keeps_setPlinth (.refl s)))

theorem holds_heldGo {h : HeldAccess} (hs : Holds σ s) : Holds σ (heldGo s h) := by
  unfold heldGo
  split
  · exact holds_registerLate hs
  · exact holds_getD (optHolds_txnHere hs) hs
  · split
    · exact holds_ite (holds_getD (optHolds_meshGo hs) hs) hs
    · exact hs
  · exact hs

theorem holds_lanternGo {d n : Nat} (hs : Holds σ s) : Holds σ (lanternGo s d n) := by
  unfold lanternGo
  extract_lets l
  split
  · exact holds_heldGo (hs.step (keeps_setLantern (.refl _)))
  · exact hs

theorem outHolds_execLanternMemAccess {d : Fin 4} {n : Fin 8} (hs : Holds σ s) :
    OutHolds σ (execLanternMemAccess d n s) := by
  unfold execLanternMemAccess
  exact outHolds_next (holds_lanternGo hs)

theorem optHolds_txnGo {e : Nat} {t : Txn} (hs : Holds σ s) : OptHolds σ (txnGo s e t) := by
  unfold txnGo
  split
  · exact optHolds_txnHere hs
  · split
    · exact optHolds_some (hs.step (keeps_of_relayTo ‹_› (.refl s)))
    · exact optHolds_some (hs.step (keeps_rspTo (.refl s)))

theorem keeps_dropVoid {p : Nat} {x : Nat × BitVec 16} (hs : Keeps σ s) : Keeps σ (dropVoid s p x) := by
  unfold dropVoid
  exact keeps_setParty hs

theorem holds_nldRow {e : Nat} {k : Nat} (hs : Holds σ s) : Holds σ (nldRow s e k) := by
  unfold nldRow
  split
  · extract_lets s1 ch
    have hs1 : Holds σ s1 := hs.step (keeps_takeTxn (.refl _))
    split
    · exact hs1
    · split
      · exact (hs1.step (keeps_dropVoid (.refl _))).step (keeps_rspTo (.refl _))
      · split
        · split
          · exact hs1.step (keeps_answerDup (.refl _))
          · exact holds_getD (optHolds_txnGo (hs1.step (keeps_setParty (.refl _)))) hs
        · exact holds_getD (optHolds_txnGo hs1) hs
  · exact hs

theorem outHolds_execNldRd {e : Ep} (hs : Holds σ s) : OutHolds σ (execNldRd e s) := by
  unfold execNldRd
  exact outHolds_next (holds_nldRow hs)

theorem outHolds_execNldWr {e : Ep} (hs : Holds σ s) : OutHolds σ (execNldWr e s) := by
  unfold execNldWr
  exact outHolds_next (holds_nldRow hs)

theorem outHolds_execNldBadd {e : Ep} (hs : Holds σ s) : OutHolds σ (execNldBadd e s) := by
  unfold execNldBadd
  exact outHolds_next (holds_nldRow hs)

theorem outHolds_execNldChn {e : Ep} (hs : Holds σ s) : OutHolds σ (execNldChn e s) := by
  unfold execNldChn
  exact outHolds_next (holds_nldRow hs)

theorem outHolds_execNldChbrk {e : Ep} (hs : Holds σ s) : OutHolds σ (execNldChbrk e s) := by
  unfold execNldChbrk
  exact outHolds_next (holds_nldRow hs)

theorem keeps_servePushes {who : Origin} {l : List (Nat × Nat)} (hs : Keeps σ s) : Keeps σ (servePushes s who l) := by
  induction l generalizing s with
  | nil => exact hs
  | cons x l ih =>
    unfold servePushes
    exact ih (keeps_ite (keeps_admitAll hs) hs)

theorem keeps_expireHolds {l : List (Origin × Time)} (hs : Keeps σ s) : Keeps σ (expireHolds s l) := by
  induction l generalizing s with
  | nil => exact hs
  | cons x l ih =>
    unfold expireHolds
    extract_lets _ s1 s2
    have hs1 : Keeps σ s1 := keeps_servePushes hs
    have hs2 : Keeps σ s2 := keeps_ite (keeps_answerOp (keeps_withdraw hs1)) hs1
    exact keeps_ite (ih (keeps_withNld hs)) (keeps_ite (ih hs) (ih (keeps_withNld hs2)))

theorem holds_heldRow {e k : Nat} (hs : Holds σ s) : Holds σ (heldRow s e k) := by
  unfold heldRow
  exact holds_nldRow (hs.step (keeps_expireHolds (.refl _)))

theorem outHolds_execNldBwait {e : Ep} (hs : Holds σ s) : OutHolds σ (execNldBwait e s) := by
  unfold execNldBwait
  exact outHolds_next (holds_heldRow hs)

theorem outHolds_execNldQpush {e : Ep} (hs : Holds σ s) : OutHolds σ (execNldQpush e s) := by
  unfold execNldQpush
  exact outHolds_next (holds_heldRow hs)

theorem outHolds_execNldQpop {e : Ep} (hs : Holds σ s) : OutHolds σ (execNldQpop e s) := by
  unfold execNldQpop
  exact outHolds_next (holds_heldRow hs)

theorem outKeeps_execNldCancel {e : Ep} (hs : Keeps σ s) : OutKeeps σ (execNldCancel e s) := by
  unfold execNldCancel
  refine outKeeps_next ?_
  split
  · exact hs
  · extract_lets s1
    have hs1 : Keeps σ s1 := keeps_takeTxn hs
    split
    · exact hs1
    · exact keeps_cancelOp hs1

theorem holds_afterAsk {o : Outst} (hs : Holds σ s) : Holds σ (afterAsk s o) := by
  unfold afterAsk
  split
  · exact holds_moverGo hs
  · exact hs

theorem outHolds_execNldRsp {e : Ep} (hs : Holds σ s) : OutHolds σ (execNldRsp e s) := by
  unfold execNldRsp
  refine outHolds_next ?_
  split
  · extract_lets s1 st
    have hs1 : Holds σ s1 := hs.step (keeps_takeTxn (.refl _))
    split
    · exact hs1
    · extract_lets s2
      have hs2 : Holds σ s2 := holds_afterAsk ((hs1.step (keeps_dropAsk (.refl _))).step (keeps_askDone (.refl _)))
      exact holds_ite (hs2.step (keeps_farDieCut (.refl _))) hs2
  · exact hs

theorem outKeeps_execNldTsync {p : Fin 4} {m : TsyncMsg} (hs : Keeps σ s) : OutKeeps σ (execNldTsync p m s) := by
  unfold execNldTsync
  refine outKeeps_next ?_
  split
  · exact hs
  · extract_lets s1
    have hs1 : Keeps σ s1 := keeps_takeTxn hs
    split
    · exact keeps_ite hs (keeps_tsyncLeg hs1)
    · exact hs1

theorem outKeeps_execNldIso {e : Ep} (hs : Keeps σ s) : OutKeeps σ (execNldIso e s) := by
  unfold execNldIso
  refine outKeeps_next ?_
  split
  · exact hs
  · extract_lets s1 c
    have hs1 : Keeps σ s1 := keeps_takeTxn hs
    split
    · split
      · exact keeps_of_relayTo ‹_› hs1
      · exact hs1
    · exact keeps_ite (keeps_isolateChip hs1) hs1

end Sys2Proof.Machine
end

section
/-! What every command keeps: every command. -/

namespace Sys2Proof.Machine

variable {σ s : State}

theorem outHolds_exec {i : Instr} (hs : Holds σ s) : OutHolds σ (exec i s) := by
  unfold exec
  split
  · exact outHolds_execPowerUp hs
  · exact hs.stepOut (outKeeps_execPowerGood (.refl _))
  · exact outHolds_execBrownOut hs
  · exact outHolds_execRstNLow hs
  · exact hs.stepOut (outKeeps_execRstNHigh (.refl _))
  · exact outHolds_execVcoreFastSlew hs
  · exact hs.stepOut (outKeeps_execTimeBaseStart (.refl _))
  · exact hs.stepOut (outKeeps_execRefclkLost (.refl _))
  · exact outHolds_execRefclkReturn hs
  · exact hs.stepOut (outKeeps_execSpeedWindowEnd (.refl _))
  · exact hs.stepOut (outKeeps_execSysTbLoRead (.refl _))
  · exact hs.stepOut (outKeeps_execNldTofsLoRead (.refl _))
  · exact hs.stepOut (outKeeps_execPciTbLoRead (.refl _))
  · exact hs.stepOut (outKeeps_execStallLong (.refl _))
  · exact hs.stepOut (outKeeps_execStallEpisodeEnd (.refl _))
  · exact hs.stepOut (outKeeps_execSysStallCntRead (.refl _))
  · exact outHolds_execRegisterWrite hs
  · exact hs.stepOut (outKeeps_execSeedWrite (.refl _))
  · exact hs.stepOut (outKeeps_execPass (.refl _))
  · exact hs.stepOut (outKeeps_execProgram (.refl _))
  · exact hs.stepOut (outKeeps_execProgramTokenGrant (.refl _))
  · exact hs.stepOut (outKeeps_execProgramEnd (.refl _))
  · exact hs.stepOut (outKeeps_execVerify (.refl _))
  · exact hs.stepOut (outKeeps_execVerifyEnd (.refl _))
  · exact hs.stepOut (outKeeps_execSwap (.refl _))
  · exact hs.stepOut (outKeeps_execDomeDeferredResume (.refl _))
  · exact hs.stepOut (outKeeps_execTowerMul (.refl _))
  · exact hs.stepOut (outKeeps_execPlinthPairIntake (.refl _))
  · exact hs.stepOut (outKeeps_execClear (.refl _))
  · exact hs.stepOut (outKeeps_execPreload (.refl _))
  · exact hs.stepOut (outKeeps_execDrain (.refl _))
  · exact hs.stepOut (outKeeps_execReadt (.refl _))
  · exact hs.stepOut (outKeeps_execWritet (.refl _))
  · exact hs.stepOut (outKeeps_execChain (.refl _))
  · exact hs.stepOut (outKeeps_execPlinthSettled (.refl _))
  · exact hs.stepOut (outKeeps_execChainCombine (.refl _))
  · exact hs.stepOut (outKeeps_execPlinthStore (.refl _))
  · exact hs.stepOut (outKeeps_execLntRun (.refl _))
  · exact hs.stepOut (outKeeps_execLntNop (.refl _))
  · exact hs.stepOut (outKeeps_execLntEnd (.refl _))
  · exact hs.stepOut (outKeeps_execLntSetrm (.refl _))
  · exact hs.stepOut (outKeeps_execLntLane (.refl _))
  · exact hs.stepOut (outKeeps_execLntLd (.refl _))
  · exact hs.stepOut (outKeeps_execLntSt (.refl _))
  · exact hs.stepOut (outKeeps_execLntStn (.refl _))
  · exact hs.stepOut (outKeeps_execLntStk (.refl _))
  · exact hs.stepOut (outKeeps_execLntPrd (.refl _))
  · exact hs.stepOut (outKeeps_execLntPrdx (.refl _))
  · exact hs.stepOut (outKeeps_execLntMov (.refl _))
  · exact hs.stepOut (outKeeps_execLntTrn (.refl _))
  · exact hs.stepOut (outKeeps_execLntBcr (.refl _))
  · exact hs.stepOut (outKeeps_execLntBcc (.refl _))
  · exact hs.stepOut (outKeeps_execLntLid (.refl _))
  · exact hs.stepOut (outKeeps_execLntRix (.refl _))
  · exact hs.stepOut (outKeeps_execLntSel (.refl _))
  · exact hs.stepOut (outKeeps_execLntAdd (.refl _))
  · exact hs.stepOut (outKeeps_execLntSub (.refl _))
  · exact hs.stepOut (outKeeps_execLntMul (.refl _))
  · exact hs.stepOut (outKeeps_execLntFma (.refl _))
  · exact hs.stepOut (outKeeps_execLntMin (.refl _))
  · exact hs.stepOut (outKeeps_execLntMax (.refl _))
  · exact hs.stepOut (outKeeps_execLntAbs (.refl _))
  · exact hs.stepOut (outKeeps_execLntNeg (.refl _))
  · exact hs.stepOut (outKeeps_execLntDiv (.refl _))
  · exact hs.stepOut (outKeeps_execLntSqrt (.refl _))
  · exact hs.stepOut (outKeeps_execLntAnd (.refl _))
  · exact hs.stepOut (outKeeps_execLntOr (.refl _))
  · exact hs.stepOut (outKeeps_execLntXor (.refl _))
  · exact hs.stepOut (outKeeps_execLntShl (.refl _))
  · exact hs.stepOut (outKeeps_execLntShr (.refl _))
  · exact hs.stepOut (outKeeps_execLntCeq (.refl _))
  · exact hs.stepOut (outKeeps_execLntClt (.refl _))
  · exact hs.stepOut (outKeeps_execLntCle (.refl _))
  · exact hs.stepOut (outKeeps_execLntCun (.refl _))
  · exact hs.stepOut (outKeeps_execLntCvt (.refl _))
  · exact hs.stepOut (outKeeps_execLntExp (.refl _))
  · exact hs.stepOut (outKeeps_execLntLn (.refl _))
  · exact hs.stepOut (outKeeps_execLntSigm (.refl _))
  · exact hs.stepOut (outKeeps_execLntTanh (.refl _))
  · exact hs.stepOut (outKeeps_execLntRcp (.refl _))
  · exact hs.stepOut (outKeeps_execLntRsqrt (.refl _))
  · exact hs.stepOut (outKeeps_execLntRed (.refl _))
  · exact hs.stepOut (outKeeps_execLntCprs (.refl _))
  · exact hs.stepOut (outKeeps_execLntXpnd (.refl _))
  · exact outHolds_execLanternMemAccess hs
  · exact hs.stepOut (outKeeps_execAdd (.refl _))
  · exact hs.stepOut (outKeeps_execSub (.refl _))
  · exact hs.stepOut (outKeeps_execAndR (.refl _))
  · exact hs.stepOut (outKeeps_execOrR (.refl _))
  · exact hs.stepOut (outKeeps_execXorR (.refl _))
  · exact hs.stepOut (outKeeps_execSll (.refl _))
  · exact hs.stepOut (outKeeps_execSrl (.refl _))
  · exact hs.stepOut (outKeeps_execSra (.refl _))
  · exact hs.stepOut (outKeeps_execSlt (.refl _))
  · exact hs.stepOut (outKeeps_execSltu (.refl _))
  · exact hs.stepOut (outKeeps_execMul (.refl _))
  · exact hs.stepOut (outKeeps_execMulh (.refl _))
  · exact hs.stepOut (outKeeps_execMulhu (.refl _))
  · exact hs.stepOut (outKeeps_execDiv (.refl _))
  · exact hs.stepOut (outKeeps_execDivu (.refl _))
  · exact hs.stepOut (outKeeps_execRem (.refl _))
  · exact hs.stepOut (outKeeps_execRemu (.refl _))
  · exact hs.stepOut (outKeeps_execFadd (.refl _))
  · exact hs.stepOut (outKeeps_execFsub (.refl _))
  · exact hs.stepOut (outKeeps_execFmul (.refl _))
  · exact hs.stepOut (outKeeps_execFdiv (.refl _))
  · exact hs.stepOut (outKeeps_execFsqrt (.refl _))
  · exact hs.stepOut (outKeeps_execFmin (.refl _))
  · exact hs.stepOut (outKeeps_execFmax (.refl _))
  · exact hs.stepOut (outKeeps_execFeq (.refl _))
  · exact hs.stepOut (outKeeps_execFlt (.refl _))
  · exact hs.stepOut (outKeeps_execFle (.refl _))
  · exact hs.stepOut (outKeeps_execFcvtWS (.refl _))
  · exact hs.stepOut (outKeeps_execFcvtWuS (.refl _))
  · exact hs.stepOut (outKeeps_execFcvtSW (.refl _))
  · exact hs.stepOut (outKeeps_execFcvtSWu (.refl _))
  · exact hs.stepOut (outKeeps_execFclass (.refl _))
  · exact hs.stepOut (outKeeps_execFma (.refl _))
  · exact hs.stepOut (outKeeps_execAddi (.refl _))
  · exact hs.stepOut (outKeeps_execAndi (.refl _))
  · exact hs.stepOut (outKeeps_execOri (.refl _))
  · exact hs.stepOut (outKeeps_execXori (.refl _))
  · exact hs.stepOut (outKeeps_execSlli (.refl _))
  · exact hs.stepOut (outKeeps_execSrli (.refl _))
  · exact hs.stepOut (outKeeps_execSrai (.refl _))
  · exact hs.stepOut (outKeeps_execSlti (.refl _))
  · exact hs.stepOut (outKeeps_execSltiu (.refl _))
  · exact hs.stepOut (outKeeps_execLui (.refl _))
  · exact outHolds_execLw hs
  · exact outHolds_execLh hs
  · exact outHolds_execLhu hs
  · exact outHolds_execLb hs
  · exact outHolds_execLbu hs
  · exact outHolds_execSw hs
  · exact outHolds_execSh hs
  · exact outHolds_execSb hs
  · exact hs.stepOut (outKeeps_execMeshAccessComplete (.refl _))
  · exact hs.stepOut (outKeeps_execBeq (.refl _))
  · exact hs.stepOut (outKeeps_execBne (.refl _))
  · exact hs.stepOut (outKeeps_execBlt (.refl _))
  · exact hs.stepOut (outKeeps_execBge (.refl _))
  · exact hs.stepOut (outKeeps_execBltu (.refl _))
  · exact hs.stepOut (outKeeps_execBgeu (.refl _))
  · exact hs.stepOut (outKeeps_execCall (.refl _))
  · exact hs.stepOut (outKeeps_execJalr (.refl _))
  · exact hs.stepOut (outKeeps_execEnter (.refl _))
  · exact hs.stepOut (outKeeps_execLeave (.refl _))
  · exact hs.stepOut (outKeeps_execNop (.refl _))
  · exact hs.stepOut (outKeeps_execIflush (.refl _))
  · exact hs.stepOut (outKeeps_execRftR (.refl _))
  · exact hs.stepOut (outKeeps_execRftN (.refl _))
  · exact hs.stepOut (outKeeps_execHalt (.refl _))
  · exact hs.stepOut (outKeeps_execRds (.refl _))
  · exact hs.stepOut (outKeeps_execWrs (.refl _))
  · exact hs.stepOut (outKeeps_execTrap (.refl _))
  · exact hs.stepOut (outKeeps_execWspill (.refl _))
  · exact hs.stepOut (outKeeps_execWfill (.refl _))
  · exact hs.stepOut (outKeeps_execQpush (.refl _))
  · exact hs.stepOut (outKeeps_execQpop (.refl _))
  · exact hs.stepOut (outKeeps_execBadd (.refl _))
  · exact hs.stepOut (outKeeps_execBwait (.refl _))
  · exact hs.stepOut (outKeeps_execWaitt (.refl _))
  · exact hs.stepOut (outKeeps_execWaittReached (.refl _))
  · exact hs.stepOut (outKeeps_execDeadlineTimeout (.refl _))
  · exact hs.stepOut (outKeeps_execTimer (.refl _))
  · exact hs.stepOut (outKeeps_execSprRunStart (.refl _))
  · exact hs.stepOut (outKeeps_execSprRunStop (.refl _))
  · exact hs.stepOut (outKeeps_execSprWtrapsRead (.refl _))
  · exact hs.stepOut (outKeeps_execBellAdd (.refl _))
  · exact hs.stepOut (outKeeps_execBellSet (.refl _))
  · exact hs.stepOut (outKeeps_execBellPoison (.refl _))
  · exact hs.stepOut (outKeeps_execBellUnpoison (.refl _))
  · exact hs.stepOut (outKeeps_execBellWaitSatisfied (.refl _))
  · exact hs.stepOut (outKeeps_execQueuePushAdmit (.refl _))
  · exact hs.stepOut (outKeeps_execQueueFrontEndTake (.refl _))
  · exact hs.stepOut (outKeeps_execWaitEntry (.refl _))
  · exact hs.stepOut (outKeeps_execRingEntry (.refl _))
  · exact hs.stepOut (outKeeps_execRingAdd (.refl _))
  · exact hs.stepOut (outKeeps_execCommandComplete (.refl _))
  · exact hs.stepOut (outKeeps_execQueStop (.refl _))
  · exact hs.stepOut (outKeeps_execQueResume (.refl _))
  · exact hs.stepOut (outKeeps_execQueFlush (.refl _))
  · exact hs.stepOut (outKeeps_execQueConfigWrite (.refl _))
  · exact hs.stepOut (outKeeps_execQueHwcntRead (.refl _))
  · exact hs.stepOut (outKeeps_execQueDiscRead (.refl _))
  · exact hs.stepOut (outKeeps_execFlitReceive (.refl _))
  · exact hs.stepOut (outKeeps_execFlitSend (.refl _))
  · exact hs.stepOut (outKeeps_execNakReceive (.refl _))
  · exact hs.stepOut (outKeeps_execAckDue (.refl _))
  · exact outHolds_execNldRd hs
  · exact outHolds_execNldWr hs
  · exact outHolds_execNldBadd hs
  · exact outHolds_execNldBwait hs
  · exact outHolds_execNldQpush hs
  · exact outHolds_execNldQpop hs
  · exact hs.stepOut (outKeeps_execNldCancel (.refl _))
  · exact outHolds_execNldChn hs
  · exact outHolds_execNldChbrk hs
  · exact hs.stepOut (outKeeps_execNldTsync (.refl _))
  · exact hs.stepOut (outKeeps_execNldIso (.refl _))
  · exact outHolds_execNldRsp hs
  · exact hs.stepOut (outKeeps_execLaneLockLoss (.refl _))
  · exact hs.stepOut (outKeeps_execLaneNoProgress (.refl _))
  · exact hs.stepOut (outKeeps_execNldRetrainWrite (.refl _))
  · exact hs.stepOut (outKeeps_execNldResumeFlit (.refl _))
  · exact hs.stepOut (outKeeps_execRetrainLimitExpiry (.refl _))
  · exact hs.stepOut (outKeeps_execExtPortTrainTimeout (.refl _))
  · exact hs.stepOut (outKeeps_execTsyncPeriod (.refl _))
  · exact hs.stepOut (outKeeps_execHfKeepalive (.refl _))
  · exact hs.stepOut (outKeeps_execNldLockWrite (.refl _))
  · exact hs.stepOut (outKeeps_execNldEpCounterRead (.refl _))
  · exact hs.stepOut (outKeeps_execVaultClearDone (.refl _))
  · exact hs.stepOut (outKeeps_execLpddrTrainingEnd (.refl _))
  · exact hs.stepOut (outKeeps_execMr4Poll (.refl _))
  · exact hs.stepOut (outKeeps_execLpddrRefreshLost (.refl _))
  · exact hs.stepOut (outKeeps_execMemCfgWrite (.refl _))
  · exact hs.stepOut (outKeeps_execMemVcorrRead (.refl _))
  · exact hs.stepOut (outKeeps_execMemBurstCountRead (.refl _))
  · exact outHolds_execMoverCopy hs
  · exact hs.stepOut (outKeeps_execFlashDiscovery (.refl _))
  · exact hs.stepOut (outKeeps_execFlashReadTimeout (.refl _))
  · exact hs.stepOut (outKeeps_execImageAuth (.refl _))
  · exact outHolds_execImageConfig hs
  · exact outHolds_execBootDomeEntry hs
  · exact outHolds_execSectionLoad hs
  · exact outHolds_execBootSettleEnd hs
  · exact outHolds_execBootRelease hs
  · exact hs.stepOut (outKeeps_execBootSlotTimeout (.refl _))
  · exact hs.stepOut (outKeeps_execBootRefclkAbsent (.refl _))
  · exact hs.stepOut (outKeeps_execSvnCommit (.refl _))
  · exact hs.stepOut (outKeeps_execUpdErase (.refl _))
  · exact hs.stepOut (outKeeps_execUpdWrite (.refl _))
  · exact hs.stepOut (outKeeps_execUpdCheck (.refl _))
  · exact hs.stepOut (outKeeps_execUpdCommandEnd (.refl _))
  · exact hs.stepOut (outKeeps_execOpenSession (.refl _))
  · exact hs.stepOut (outKeeps_execCloseSession (.refl _))
  · exact hs.stepOut (outKeeps_execPing (.refl _))
  · exact outHolds_execHostRd hs
  · exact outHolds_execHostWr hs
  · exact hs.stepOut (outKeeps_execHostBadd (.refl _))
  · exact hs.stepOut (outKeeps_execHostBwait (.refl _))
  · exact hs.stepOut (outKeeps_execHostQpush (.refl _))
  · exact hs.stepOut (outKeeps_execHostQpop (.refl _))
  · exact hs.stepOut (outKeeps_execWupd (.refl _))
  · exact hs.stepOut (outKeeps_execHostDeadline (.refl _))
  · exact hs.stepOut (outKeeps_execPciSqTailWrite (.refl _))
  · exact hs.stepOut (outKeeps_execPciCqHeadWrite (.refl _))
  · exact hs.stepOut (outKeeps_execCqFrameWrite (.refl _))
  · exact hs.stepOut (outKeeps_execPciMsixSwWrite (.refl _))
  · exact hs.stepOut (outKeeps_execHeartbeat (.refl _))
  · exact hs.stepOut (outKeeps_execEventQueuePop (.refl _))
  · exact hs.stepOut (outKeeps_execPciePerst (.refl _))
  · exact hs.stepOut (outKeeps_execFunctionLevelReset (.refl _))
  · exact hs.stepOut (outKeeps_execEthFrameReceive (.refl _))
  · exact hs.stepOut (outKeeps_execEthPauseReceive (.refl _))
  · exact hs.stepOut (outKeeps_execEthLinkDownTimeout (.refl _))
  · exact hs.stepOut (outKeeps_execEthEnable (.refl _))
  · exact hs.stepOut (outKeeps_execMdioFrame (.refl _))
  · exact hs.stepOut (outKeeps_execMdioFrameEnd (.refl _))
  · exact hs.stepOut (outKeeps_execPciCounterRead (.refl _))
  · exact hs.stepOut (outKeeps_execEthCounterRead (.refl _))
  · exact hs.stepOut (outKeeps_execCsiTriggerPulse (.refl _))
  · exact hs.stepOut (outKeeps_execCsiFrameStart (.refl _))
  · exact hs.stepOut (outKeeps_execCsiLongPacket (.refl _))
  · exact hs.stepOut (outKeeps_execCsiFrameEnd (.refl _))
  · exact hs.stepOut (outKeeps_execCsiFrameTimeout (.refl _))
  · exact hs.stepOut (outKeeps_execCsiEnable (.refl _))
  · exact hs.stepOut (outKeeps_execCsiCounterRead (.refl _))
  · exact hs.stepOut (outKeeps_execUartCharReceived (.refl _))
  · exact hs.stepOut (outKeeps_execUartRxEngineTake (.refl _))
  · exact hs.stepOut (outKeeps_execUartTxChar (.refl _))
  · exact hs.stepOut (outKeeps_execUartTxDone (.refl _))
  · exact hs.stepOut (outKeeps_execUartCtsChange (.refl _))
  · exact hs.stepOut (outKeeps_execUartSyncChar (.refl _))
  · exact hs.stepOut (outKeeps_execUartSleepEntry (.refl _))
  · exact hs.stepOut (outKeeps_execUartWake (.refl _))
  · exact hs.stepOut (outKeeps_execDeepWakeReady (.refl _))
  · exact hs.stepOut (outKeeps_execUartEnable (.refl _))
  · exact hs.stepOut (outKeeps_execUartDisable (.refl _))
  · exact hs.stepOut (outKeeps_execUartCounterRead (.refl _))
  · exact hs.stepOut (outKeeps_execMstateReport (.refl _))
  · exact hs.stepOut (outKeeps_execVfieldRise (.refl _))
  · exact hs.stepOut (outKeeps_execFReset (.refl _))
  · exact hs.stepOut (outKeeps_execFuvTimeout (.refl _))
  · exact hs.stepOut (outKeeps_execFLinkTimeout (.refl _))
  · exact hs.stepOut (outKeeps_execFioSafe (.refl _))
  · exact hs.stepOut (outKeeps_execFioRearm (.refl _))
  · exact hs.stepOut (outKeeps_execFioWdKick (.refl _))
  · exact hs.stepOut (outKeeps_execFioWdWrite (.refl _))
  · exact hs.stepOut (outKeeps_execFioWdExpiry (.refl _))
  · exact hs.stepOut (outKeeps_execAoCmdWrite (.refl _))
  · exact hs.stepOut (outKeeps_execAoMeasUpdate (.refl _))
  · exact hs.stepOut (outKeeps_execAoComplianceSet (.refl _))
  · exact hs.stepOut (outKeeps_execAoComplianceClear (.refl _))
  · exact hs.stepOut (outKeeps_execAoOpenSet (.refl _))
  · exact hs.stepOut (outKeeps_execAoOpenClear (.refl _))
  · exact hs.stepOut (outKeeps_execDoCmdWrite (.refl _))
  · exact hs.stepOut (outKeeps_execDoOverload (.refl _))
  · exact hs.stepOut (outKeeps_execDoLatchOff (.refl _))
  · exact hs.stepOut (outKeeps_execDoRetry (.refl _))
  · exact hs.stepOut (outKeeps_execDoRetryReset (.refl _))
  · exact hs.stepOut (outKeeps_execDoFaultClear (.refl _))
  · exact hs.stepOut (outKeeps_execDoOpenldSet (.refl _))
  · exact hs.stepOut (outKeeps_execDoOpenldClear (.refl _))
  · exact hs.stepOut (outKeeps_execDoExtDriveSet (.refl _))
  · exact hs.stepOut (outKeeps_execDoExtDriveClear (.refl _))
  · exact hs.stepOut (outKeeps_execDiFilteredChange (.refl _))
  · exact hs.stepOut (outKeeps_execGovernorTick (.refl _))
  · exact hs.stepOut (outKeeps_execVreqWrite (.refl _))
  · exact hs.stepOut (outKeeps_execSensorSample (.refl _))
  · exact hs.stepOut (outKeeps_execThmPeakRead (.refl _))
  · exact hs.stepOut (outKeeps_execThmSlowtRead (.refl _))
  · exact hs.stepOut (outKeeps_execSysGovcntRead (.refl _))
  · exact hs.stepOut (outKeeps_execTwrWaitRead (.refl _))
  · exact hs.stepOut (outKeeps_execPlnDiscRead (.refl _))
  · exact hs.stepOut (outKeeps_execPlnFoldflushRead (.refl _))
  · exact hs.stepOut (outKeeps_execLntStallRead (.refl _))
  · exact hs.stepOut (outKeeps_execLntStepsRead (.refl _))
  · exact hs.stepOut (outKeeps_execFaultRecordLog (.refl _))
  · exact hs.stepOut (outKeeps_execFaultQueueDeliver (.refl _))
  · exact hs.stepOut (outKeeps_execFlogHeadWrite (.refl _))
  · exact outHolds_execPciHbWordWrite hs
  · exact outHolds_execSysWdWrite hs
  · exact outHolds_execMachineWdogExpiry hs
  · exact outHolds_execResumeAction hs
  · exact outHolds_execResetAction hs
  · exact hs.stepOut (outKeeps_execBlockLockAcquired (.refl _))
  · exact hs.stepOut (outKeeps_execEthLinkChange (.refl _))
  · exact hs.stepOut (outKeeps_execPauseTimerExpiry (.refl _))
  · exact hs.stepOut (outKeeps_execMsixImodExpiry (.refl _))
  · exact hs.stepOut (outKeeps_execPciePerstRelease (.refl _))
  · exact hs.stepOut (outKeeps_execUartRxHighBitTime (.refl _))

end Sys2Proof.Machine
end

section
/-! What every command keeps: every step. -/

namespace Sys2Proof.Machine

variable {σ s : State}

theorem outHolds_step (hs : Holds σ s) : OutHolds σ (step s) := by
  unfold step
  split
  · exact outHolds_next (hs.step (keeps_idleTick (.refl _)))
  · exact outHolds_exec (hs.step (keeps_withPending (.refl _)))

end Sys2Proof.Machine

open Sys2Proof.Machine in
/-- Settles O60: the one relation `Holds` between the states before and after, which every operation of the model keeps. -/
theorem stepKeepsMemory : Obligations.StepKeepsMemory := by
  unfold Obligations.StepKeepsMemory
  have holds : ∀ {s t : State}, step s = .next t → Holds s t := fun h => outHolds_step (Holds.refl _) _ h
  refine ⟨fun s t ok h => ?_, fun s t ok h => ?_, fun s t ok h => ?_, fun s t ok h => ?_, fun s t ok h => ?_⟩
  all_goals obtain ⟨mem, queues, log, windows, tokens⟩ := holds h
  · exact mem ok
  · exact queues ok
  · exact log ok
  · exact windows ok
  · exact tokens ok
end

section
/-! A register write beside a collection of units that is out of order (00 R7; 04 R97). -/

namespace Sys2Proof.Machine

/-- Die 0 lists Dome 3, whose bank 0 is in PROG, behind Dome 5. No command of the model lists units in this order; the statement,
which asks of the die only that its contents are specified, ranges over it. -/
def domeOutOfOrder : State := { c0 := { domes := [(5, {}), (3, { b0 := { st := .prog } })] } }

/-- A write of DOM_CMDQ of Dome 3 lists that Dome a second time, in front of Dome 5, and the register that counts the banks in PROG,
offset 0x40000, reads 2 where it read 1. -/
theorem progCount_changes_with_cmdqWrite :
    (regRead domeOutOfOrder 0 0 0x40000).map Prod.fst = some 1 ∧
      (regRead (regWrite domeOutOfOrder 0 0x4103C 0) 0 0 0x40000).map Prod.fst = some 2 := by decide

end Sys2Proof.Machine

open Sys2Proof.Machine in
/-- Refutes O32: its second clause fails at DOM_CMDQ of Dome 3, where the Domes of the die are listed out of order: the write lists the
Dome twice, and the count of banks in PROG, another register, reads 2 in place of 1. -/
theorem not_registerWrites : ¬ Obligations.RegisterWrites := by
  unfold Obligations.RegisterWrites
  rintro ⟨-, readBack, -⟩
  obtain ⟨-, others⟩ := readBack domeOutOfOrder 0 0 3 0 rfl (0, 0x4103C, 0x7F) (by decide) rfl
  have same := others 0 0x40000 rfl (by decide)
  obtain ⟨before, after⟩ := progCount_changes_with_cmdqWrite
  exact absurd (after.symm.trans (same.trans before)) (by decide)
end

section
/-! A mover whose own COPY resets the part (11 R265; 17 R406). -/

namespace Sys2Proof.Machine

/-- The machine runs, and mover 0 of H has taken a COPY of one row of 4 bytes from LPDDR address 0 to SYS_RECOV, offset 0x240 of H's
registers (17 Table 17-3). The bytes there are the word of the RESET action (R406). -/
def copyToRecov : State :=
  { mstate := .run, tb := 10, tbStarted := true,
    mem := {
      st := .ready, psize := 1, lpddr := [(0, 0x02), (1, 0x00), (2, 0xC3), (3, 0xA5)],
      movers := [(0, { en := true, cmd := some { w := [0x1000_0000, 0, 0x800, 0x240, 0x80F, 3, 0, 0] } })] } }

/-- The COPY's write takes the part into RESET, where the time base is 0, and the mover then notes there that it has ended. -/
theorem exec_copyToRecov : ∃ t, exec (.moverCopy 0) copyToRecov = .next t ∧ t.tb = 0 ∧ t.mem.movers = [(0, {})] :=
  ⟨_, rfl, by decide, by decide⟩

/-- As a command leaves the part that it has taken into RESET, no mover has been in use. -/
theorem movers_of_cameReset {t : State} (h : t.cameReset) : t.mem.movers = [] := by
  obtain ⟨-, -, -, mem, -⟩ := h
  rw [mem]
  rfl

end Sys2Proof.Machine

open Sys2Proof Sys2Proof.Machine in
/-- Refutes O59: its last clause fails at a COPY that writes the RESET action to SYS_RECOV. The time base goes from 10 to 0, and the memory
controller is not as RESET leaves it, since the mover's end has been noted in it. -/
theorem not_stepKeepsTimeBase : ¬ Obligations.StepKeepsTimeBase := by
  unfold Obligations.StepKeepsTimeBase
  rintro ⟨-, -, -, commands⟩
  obtain ⟨t, runs, tb, movers⟩ := exec_copyToRecov
  rcases commands _ _ t runs with same | ⟨start, -⟩ | reset
  · exact absurd (tb.symm.trans same) (by decide)
  · exact absurd start (by decide)
  · exact absurd (movers.symm.trans (movers_of_cameReset reset)) (by decide)
end

section
/-! One step, and the state that reset leaves. -/

namespace Sys2Proof.Machine

/-- With a command at the front of the queue a step performs it on the rest. -/
theorem step_of_pending {s : State} {c : Instr} {rest : List Instr} (h : s.pending = c :: rest) :
    step s = exec c { s with pending := rest } := by
  simp only [step, h]

/-- With an empty queue a step is an edge of REFCLK_IN (log entry 4). -/
theorem step_of_idle {s : State} (h : s.pending = []) : step s = .next (idleTick s) := by
  simp only [step, h]

/-- Every C-die is in its reset state (01 R32). -/
theorem cd_reset (d : Nat) : cd State.reset d = {} := by
  match d with
  | 0 => rfl
  | 1 => rfl
  | 2 => rfl
  | _ + 3 => rfl

theorem spire_reset (d n : Nat) : spire State.reset d n = {} := by
  rw [spire, cd_reset]
  rfl

theorem bell_reset (d n : Nat) : bell State.reset d n = {} := by
  rw [bell, cd_reset]
  rfl

theorem queue_reset (d n : Nat) : queue State.reset d n = {} := by
  rw [queue, cd_reset]
  rfl

/-- Every register of a Spire in its reset state reads 0 (08 R200). -/
theorem spReg_reset (r : Nat) : spReg {} r = 0 := by
  unfold spReg
  split
  · rfl
  · rfl

end Sys2Proof.Machine

open Sys2Proof.Machine in
/-- Settles O25: the two cases of `step`. -/
theorem stepRunsFrontCommand : Obligations.StepRunsFrontCommand :=
  ⟨fun _ _ _ h => step_of_pending h, fun _ h => step_of_idle h⟩

open Sys2Proof.Machine in
/-- Settles O26: the package's own fields are read off the reset state, and every unit of a die is in its reset state. -/
theorem resetState : Obligations.ResetState := by
  refine ⟨rfl, rfl, rfl, rfl, rfl, rfl, rfl, rfl, rfl, rfl, rfl, rfl, rfl, rfl, rfl, rfl, rfl, rfl, rfl, fun d => ?_, fun n => rfl⟩
  refine ⟨fun n => ?_, fun b => ?_, fun q => ?_⟩
  · rw [spire_reset]
    exact ⟨rfl, fun r => spReg_reset r, rfl, rfl, rfl, rfl⟩
  · rw [bell_reset]
    exact ⟨rfl, rfl⟩
  · rw [queue_reset]
end

section
/-! The time base: an edge, the loss and the return of REFCLK_IN, the speed window, and the captured words (02 R46-R53). -/

namespace Sys2Proof.Machine

/-! ### The running time base -/

theorem tbRuns_iff {s : State} : tbRuns s = true ↔ s.tbStarted = true ∧ s.refclk = true ∧ s.mstate ≠ .reset := by
  simp [tbRuns, and_assoc]

/-- A collection whose units have each been replaced by a function of number and unit. -/
theorem tabGet_map {α : Type} (d : α) (f : Nat → α → α) (t : Tab α) (k : Nat) :
    tabGet d (t.map fun e => (e.1, f e.1 e.2)) k = ((tabFind? t k).map (f k)).getD d := by
  induction t with
  | nil => rfl
  | cons e t ih =>
    simp only [List.map_cons, tabGet, tabFind?]
    split
    · rename_i same
      rw [same]
      rfl
    · exact ih

theorem tabGet_eq_find {α : Type} (d : α) (t : Tab α) (k : Nat) : tabGet d t k = (tabFind? t k).getD d := by
  induction t with
  | nil => rfl
  | cons e t ih =>
    simp only [tabGet, tabFind?]
    split
    · rfl
    · exact ih

/-- An endpoint that nothing lists is DOWN, and no flit of it waits. -/
theorem epStalled_default (ext : Bool) : epStalled ext {} = false := rfl

/-- The endpoints after their counters of waiting flits have ticked (10 Table 10-9). -/
theorem tabGet_stallTick (l : Tab Endp) (e : Nat) : tabGet {} (stallTick l) e =
    if epStalled (isExt e) (tabGet {} l e) then { tabGet {} l e with cstall := satAdd (tabGet {} l e).cstall 1 }
    else tabGet {} l e := by
  unfold stallTick
  rw [tabGet_map {} (fun k v => if epStalled (isExt k) v then { v with cstall := satAdd v.cstall 1 } else v), tabGet_eq_find]
  cases tabFind? l e with
  | none => rfl
  | some v => rfl

/-- A flit waits where its channel has fewer credits than it needs (10 R234; log entry 54). -/
theorem epStalled_iff (e : Nat) (v : Endp) : epStalled (isExt e) v = true ↔ v.st = .up ∧ ∃ f ∈ v.txq,
    v.credits.getD f.vc 0 < if f.fk = 3 ∧ ¬ (17 ≤ e ∧ e < 21) then 2 else 1 := by
  have needs : ∀ f, creditsFor (isExt e) f = if f.fk = 3 ∧ ¬ (17 ≤ e ∧ e < 21) then 2 else 1 := fun f => by
    simp only [creditsFor, isExt, Bool.and_eq_true, Bool.not_eq_true', Bool.and_eq_false_iff, decide_eq_false_iff_not,
      decide_eq_true_eq, ← not_and_or, and_comm]
  simp [epStalled, needs]

/-- What one edge of REFCLK_IN adds to the counter of waiting flits of an endpoint (10 Table 10-9). -/
theorem endp_stallTick (s : State) (e : Nat) :
    endp { s with nld := { s.nld with eps := stallTick s.nld.eps } } e =
      { endp s e with cstall := if (endp s e).st = .up ∧ (∃ f ∈ (endp s e).txq,
        (endp s e).credits.getD f.vc 0 < if f.fk = 3 ∧ ¬ (17 ≤ e ∧ e < 21) then 2 else 1) then satAdd (endp s e).cstall 1
        else (endp s e).cstall } := by
  simp only [← epStalled_iff]
  show tabGet {} (stallTick s.nld.eps) e = _
  rw [tabGet_stallTick]
  change (if epStalled (isExt e) (endp s e) = true then _ else endp s e) = _
  split <;> rfl

/-! ### An edge -/

/-- Some die of the package is unspecified (16 R376). -/
theorem anySlewed_iff {s : State} : (upTo 4).any (fun d => (cd s d).slewed) = true ↔ ∃ d < 4, (cd s d).slewed = true := by
  rw [show upTo 4 = List.range 4 from rfl]
  simp [List.any_eq_true, List.mem_range]

/-- Where no die is unspecified an edge draws nothing. -/
theorem slewTick_whole {s : State} (h : ∀ d : Fin 4, (cd s d).slewed = false) : slewTick s = s := by
  rw [slewTick, if_neg]
  rw [anySlewed_iff]
  rintro ⟨d, lt, slewed⟩
  exact absurd (h ⟨d, lt⟩) (by simp [slewed])

/-- The endpoint e after an edge: drawn again where it is listed and its die is unspecified, and otherwise as it was (16 R376). -/
theorem endp_slewTick (s : State) (e : Nat) : endp (slewTick s) e =
    if epSlewed s e = true ∧ tabFind? s.nld.eps e ≠ none then slewedEndp (3 * s.free + e) else endp s e := by
  unfold slewTick
  split
  · show tabGet {} (s.nld.eps.map fun x => (x.1, if epSlewed s x.1 then slewedEndp (3 * s.free + x.1) else x.2)) e = _
    rw [tabGet_map {} (fun k v => if epSlewed s k then slewedEndp (3 * s.free + k) else v), endp, tabGet_eq_find]
    cases tabFind? s.nld.eps e with
    | none => simp
    | some v => simp
  · rename_i whole
    rw [if_neg]
    rintro ⟨slewed, -⟩
    simp only [epSlewed, Bool.and_eq_true, decide_eq_true_eq] at slewed
    exact whole (anySlewed_iff.2 ⟨e / 3, by omega, slewed.2⟩)

/-- An edge draws nothing but endpoints and free values. -/
theorem slewTick_frame (s : State) :
    slewTick s = { s with nld := { s.nld with eps := (slewTick s).nld.eps }, free := (slewTick s).free } := by
  unfold slewTick
  split <;> rfl

theorem tabFind?_stallTick (l : Tab Endp) (e : Nat) : tabFind? (stallTick l) e = none ↔ tabFind? l e = none := by
  induction l with
  | nil => rfl
  | cons x l ih =>
    show (if x.1 = e then some _ else tabFind? (stallTick l) e) = none ↔ _
    simp only [tabFind?]
    split
    · simp
    · exact ih

/-! ### The loss of REFCLK_IN -/

/-- The registers of a die that notices the loss: its bit set and the running window spoiled (02 R52, R53). -/
def lostOn (v : SysDie) (w : Nat) : SysDie := { v with refclkLost := true, speedBad := spoil v.speedBad w }

/-- Every die notices the loss. -/
theorem clockLostOn_whole {s : State} (whole : ∀ d : Fin 4, (cd s d).slewed = false) :
    clockLostOn s (upTo 5) =
      { s with
        c0 := { s.c0 with sys := lostOn s.c0.sys (s.tb.toNat / 1000) },
        c1 := { s.c1 with sys := lostOn s.c1.sys (s.tb.toNat / 1000) },
        c2 := { s.c2 with sys := lostOn s.c2.sys (s.tb.toNat / 1000) },
        c3 := { s.c3 with sys := lostOn s.c3.sys (s.tb.toNat / 1000) },
        hsys := lostOn s.hsys (s.tb.toNat / 1000) } := by
  have h0 : s.c0.slewed = false := whole 0
  have h1 : s.c1.slewed = false := whole 1
  have h2 : s.c2.slewed = false := whole 2
  have h3 : s.c3.slewed = false := whole 3
  rw [show upTo 5 = [0, 1, 2, 3, 4] from rfl]
  simp [clockLostOn, setSysDie, setCd, sysDie, cd, putCd, lostOn, windowsPassed, h0, h1, h2, h3]

/-- What stopping the programming makes of a die (04 R105). -/
def dieStops (c : CDie) : CDie :=
  { c with domes := c.domes.map (fun e => (e.1, { e.2 with b0 := bankStops e.2.b0, b1 := bankStops e.2.b1 })) }

theorem stopProgramming_whole {s : State} (whole : ∀ d : Fin 4, (cd s d).slewed = false) :
    stopProgramming s =
      { s with c0 := dieStops s.c0, c1 := dieStops s.c1, c2 := dieStops s.c2, c3 := dieStops s.c3, tokenHeld := [] } := by
  have h0 : s.c0.slewed = false := whole 0
  have h1 : s.c1.slewed = false := whole 1
  have h2 : s.c2.slewed = false := whole 2
  have h3 : s.c3.slewed = false := whole 3
  simp [stopProgramming, mapDies, setCd, cd, putCd, dieStops, h0, h1, h2, h3]

@[simp] theorem setCd_mstate (s : State) (d : Nat) (c : CDie) : (setCd s d c).mstate = s.mstate := by
  unfold setCd
  split <;> exact putCd_mstate s d _

@[simp] theorem setSysDie_mstate (s : State) (d : Nat) (v : SysDie) : (setSysDie s d v).mstate = s.mstate := by
  unfold setSysDie
  split
  · exact setCd_mstate s d _
  · rfl

@[simp] theorem clockLostOn_mstate (s : State) (l : List Nat) : (clockLostOn s l).mstate = s.mstate := by
  induction l generalizing s with
  | nil => rfl
  | cons d l ih => exact (ih _).trans (setSysDie_mstate s d _)

@[simp] theorem stopProgramming_mstate (s : State) : (stopProgramming s).mstate = s.mstate := by
  simp [stopProgramming, mapDies]

/-- The words of the record REFCLK_LOST, which H itself writes (17 Table 17-4). -/
theorem mkRec_refclkLost (s : State) :
    mkRec s sevFatal 3 (srcWord s skDie 4 0) 0x0011 (loWord s.tb) (hiWord s.tb) 0 =
      [BitVec.ofNat 32 (3 * 2 ^ 28 + 2 * 2 ^ 26 + 0x11),
        BitVec.ofNat 32 (3 * 2 ^ 29 + 11 * 2 ^ 24 + s.nld.chip.toNat * 2 ^ 13 + 4 * 2 ^ 9), 0, s.tb.extractLsb' 0 32,
        s.tb.extractLsb' 32 32, s.tb.extractLsb' 0 32, s.tb.extractLsb' 32 32, 0] := by
  have chip := s.nld.chip.isLt
  have src : (srcWord s skDie 4 0).toNat = 11 * 2 ^ 24 + s.nld.chip.toNat * 2 ^ 13 + 4 * 2 ^ 9 := by
    simp only [srcWord, w32, skDie, ownChip, BitVec.toNat_ofNat]
    omega
  have die : field (srcWord s skDie 4 0) 12 9 = 4 := by
    rw [field, src]
    omega
  simp [mkRec, die, toldFree, src, sevFatal, w32, loWord, hiWord]
  exact congrArg (BitVec.ofNat 32) (by omega)

/-! ### What the statement's parts come to -/

/-- The state after an edge, but for what it draws: the time base and the counters of waiting flits (02 R47; 10 Table 10-9). -/
def edgeCounts (s : State) : State := { s with tb := tbNext s.tb, nld := { s.nld with eps := stallTick s.nld.eps } }

variable {s : State}

theorem step_edge (idle : s.pending = []) (started : s.tbStarted = true) (clock : s.refclk = true) (up : s.mstate ≠ .reset) :
    step s = .next (slewTick (edgeCounts s)) := by
  rw [step_of_idle idle, idleTick, if_pos (tbRuns_iff.2 ⟨started, clock, up⟩)]
  rfl

theorem endp_edge_whole {e : Nat} (whole : e < 12 → (cd s (e / 3)).slewed = false) :
    endp (slewTick (edgeCounts s)) e = endp { s with nld := { s.nld with eps := stallTick s.nld.eps } } e := by
  rw [endp_slewTick, if_neg]
  · rfl
  · rintro ⟨slewed, -⟩
    simp only [epSlewed, Bool.and_eq_true, decide_eq_true_eq] at slewed
    obtain ⟨lt, slewed⟩ := slewed
    exact absurd ((whole lt).symm.trans slewed) (by decide)

theorem endp_edge_slewed {e : Nat} (lt : e < 12) (slewed : (cd s (e / 3)).slewed = true)
    (listed : tabFind? s.nld.eps e ≠ none) : endp (slewTick (edgeCounts s)) e = slewedEndp (3 * s.free + e) := by
  rw [endp_slewTick, if_pos]
  · rfl
  · exact ⟨by simp only [epSlewed, Bool.and_eq_true, decide_eq_true_eq]; exact ⟨lt, slewed⟩,
      fun h => listed ((tabFind?_stallTick _ _).1 h)⟩

theorem free_edge_whole (whole : ∀ d : Fin 4, (cd s d).slewed = false) : (slewTick (edgeCounts s)).free = s.free := by
  rw [slewTick_whole (s := edgeCounts s) whole]
  rfl

/-- The state behind a loss of REFCLK_IN, before the machine leaves RUN (02 R52). -/
def clockGone (s : State) : State := stopProgramming (clockLostOn { s with refclk := false } (upTo 5))

theorem clockGone_mstate (s : State) : (clockGone s).mstate = s.mstate := by
  rw [clockGone, stopProgramming_mstate, clockLostOn_mstate]

theorem exec_refclkLost (up : s.mstate ≠ .reset) (clock : s.refclk = true) :
    exec .refclkLost s = .next (clockLoss (clockGone s)) := by
  show Host.Outcome.next (if s.mstate = .reset then _ else if s.refclk = true then _ else _) = _
  rw [if_neg up, if_pos clock]
  rfl

theorem clockGone_whole (whole : ∀ d : Fin 4, (cd s d).slewed = false) :
    (clockGone s).refclk = false ∧ (clockGone s).tb = s.tb ∧ (clockGone s).tokenHeld = [] ∧
      ∀ d : Fin 5, sysDie (clockGone s) d = lostOn (sysDie s d) (s.tb.toNat / 1000) := by
  rw [clockGone, clockLostOn_whole (s := { s with refclk := false }) whole, stopProgramming_whole]
  · refine ⟨rfl, rfl, rfl, fun d => ?_⟩
    match d with
    | 0 | 1 | 2 | 3 | 4 => rfl
  · intro d
    match d with
    | 0 => exact whole 0
    | 1 => exact whole 1
    | 2 => exact whole 2
    | 3 => exact whole 3

theorem clockLoss_halting (h : s.mstate = .run ∨ s.mstate = .halt) :
    clockLoss s = haltFault s 1 (mkRec s sevFatal 3 (srcWord s skDie 4 0) 0x0011 (loWord s.tb) (hiWord s.tb) 0) := if_pos h

/-- A window that has ended is reported once, and one in which REFCLK_IN was lost never (02 R53). -/
theorem windowDue_iff {d : Nat} : windowDue s d = true ↔
    s.tb.toNat / 1000 ≠ 0 ∧ s.tb.toNat / 1000 ≠ (sysDie s d).speedSeen ∧
      s.tb.toNat / 1000 - 1 ∉ (sysDie s d).speedBad := by
  simp only [windowDue, Bool.and_eq_true, decide_eq_true_eq, and_assoc]
  rfl

theorem exec_sysTbLoRead {a : Requester} {d : Fin 5} (reaches : reqReaches s a d = true) :
    exec (.sysTbLoRead a d) s = .next (outOf (tbLoRead s a d)) :=
  congrArg _ (if_pos reaches)

/-- A die whose contents are unspecified gives out a free word (16 R376). -/
theorem dieSays_slewed {s : State} {d : Nat} (w : Word) (lt : d < 4) (slewed : (cd s d).slewed = true) :
    dieSays s d w = drawWord s := if_pos ⟨lt, slewed⟩

end Sys2Proof.Machine

open Sys2Proof Sys2Proof.Machine in
/-- Settles O27: an edge changes the endpoints one by one; a loss that halts nothing leaves a state that can be written down, and one in
RUN or HALT is `haltFault` on that state; the other parts are the cases of their commands. -/
theorem timeBase : Obligations.TimeBase := by
  unfold Obligations.TimeBase
  intro s
  refine ⟨?_, endp_stallTick s, ?_, rfl, ?_, ?_, ?_, ?_, ?_, ?_, ?_, ?_, ?_, ?_⟩
  · intro idle started clock up
    exact ⟨_, step_edge idle started clock up, slewTick_frame (edgeCounts s), fun e => endp_edge_whole,
      fun e => endp_edge_slewed, free_edge_whole⟩
  · exact fun up started clock => congrArg _ (if_pos (by simp [up, started, clock]))
  · exact fun reset => congrArg _ (if_pos reset)
  · exact fun up gone => congrArg _ ((if_neg up).trans (if_neg (by simp [gone])))
  · intro waits clock whole
    obtain ⟨gone, tb, tokens, dies⟩ := clockGone_whole whole
    have up : s.mstate ≠ .reset := by rcases waits with h | h <;> simp [h]
    have stays : clockLoss (clockGone s) = clockGone s := by
      rw [clockLoss, clockGone_mstate, if_neg]
      rcases waits with h | h <;> simp [h]
    exact ⟨clockGone s, by rw [exec_refclkLost up clock, stays], gone, tb, clockGone_mstate s, tokens, dies⟩
  · intro halts clock
    have up : s.mstate ≠ .reset := by rcases halts with h | h <;> simp [h]
    have halting : (clockGone s).mstate = .run ∨ (clockGone s).mstate = .halt := by rwa [clockGone_mstate]
    rw [exec_refclkLost up clock, clockLoss_halting halting, mkRec_refclkLost]
    rfl
  · intro started clock up d rate
    have runs : tbRuns s = true := tbRuns_iff.2 ⟨started, clock, up⟩
    show Host.Outcome.next (if (tbRuns s && windowDue s d) = true then _ else _) = _
    simp only [runs, Bool.true_and, windowDue_iff]
    rfl
  · intro a d reaches
    refine ⟨fun whole => ?_, fun lt slewed => ?_⟩
    · rw [exec_sysTbLoRead reaches, tbLoRead, dieSays_whole _ whole, dieSays_whole _ whole]
      rfl
    · rw [exec_sysTbLoRead reaches, tbLoRead, dieSays_slewed _ lt slewed, dieSays_slewed _ lt]
      · rfl
      · exact slewed
  · exact fun a reaches => congrArg _ (if_pos reaches)
  · exact fun a d far => congrArg _ (if_neg (by simp [far]))
  · exact fun a far => congrArg _ (if_neg (by simp [far]))
  · exact fun up => congrArg _ (if_pos up)
end

section
/-! The captured high words of the requesters (02 R49; 10 R250), which no operation changes but a read of a low word and RESET. Shown here
for the operations that a trap of a Spire's instruction can come to: a fault's record, and the HALT that it can cause. -/

namespace Sys2Proof.Machine

@[simp] theorem ite_shadows (p : Prop) [Decidable p] (s t : State) :
    (if p then s else t).shadows = if p then s.shadows else t.shadows := apply_ite State.shadows p s t

theorem foldl_shadows {α : Type} {f : State → α → State} (s : State) (l : List α)
    (h : ∀ t a, (f t a).shadows = t.shadows) : (l.foldl f s).shadows = s.shadows := by
  induction l generalizing s with
  | nil => rfl
  | cons a l ih => exact (ih _).trans (h s a)

theorem getD_shadows {s : State} {o : Option State} (h : ∀ t, o = some t → t.shadows = s.shadows) :
    (o.getD s).shadows = s.shadows := by
  cases o with
  | none => rfl
  | some t => exact h t rfl

variable (s : State)

/-! ### Dies and their units -/

@[simp] theorem setCd_shadows (d : Nat) (c : CDie) : (setCd s d c).shadows = s.shadows := by
  simp [setCd]

@[simp] theorem mapDies_shadows (f : CDie → CDie) : (mapDies s f).shadows = s.shadows := by
  simp [mapDies]

@[simp] theorem setDome_shadows (d n : Nat) (v : Dome) : (setDome s d n v).shadows = s.shadows := by
  simp [setDome]

@[simp] theorem setTower_shadows (d n : Nat) (v : Tower) : (setTower s d n v).shadows = s.shadows := by
  simp [setTower]

@[simp] theorem setPlinth_shadows (d n : Nat) (v : Plinth) : (setPlinth s d n v).shadows = s.shadows := by
  simp [setPlinth]

@[simp] theorem setLantern_shadows (d n : Nat) (v : Lantern) : (setLantern s d n v).shadows = s.shadows := by
  simp [setLantern]

@[simp] theorem setBell_shadows (d n : Nat) (v : Bell) : (setBell s d n v).shadows = s.shadows := by
  simp [setBell]

@[simp] theorem setSpire_shadows (d n : Nat) (v : Spire) : (setSpire s d n v).shadows = s.shadows := by
  simp [setSpire]

@[simp] theorem setQueue_shadows (d n : Nat) (v : Queue) : (setQueue s d n v).shadows = s.shadows := by
  simp [setQueue]

/-! ### Requests and responses on the links -/

@[simp] theorem putTxn_shadows (e : Nat) (t : Txn) (ask : Nat) : (putTxn s e t ask).shadows = s.shadows := by
  simp [putTxn]

@[simp] theorem sendTxn_shadows (e : Nat) (t : Txn) : (sendTxn s e t).shadows = s.shadows := by
  simp [sendTxn]

@[simp] theorem sendAs_shadows (e p : Nat) (who : Origin) (t : Txn) : (sendAs s e p who t).shadows = s.shadows := by
  simp [sendAs]

theorem sendAsk_shadows {q : Ask} {who : Origin} {t : State} (h : sendAsk s q who = some t) : t.shadows = s.shadows := by
  unfold sendAsk at h
  split at h
  · cases h
  · obtain ⟨p, -, rfl⟩ := Option.map_eq_some_iff.1 h
    exact sendAs_shadows s _ _ _ _

/-- A request sent where it can be. -/
@[simp] theorem getD_sendAsk_shadows {s u : State} {q : Ask} {who : Origin} (h : u.shadows = s.shadows) :
    ((sendAsk u q who).getD s).shadows = s.shadows :=
  getD_shadows fun _ sent => (sendAsk_shadows u sent).trans h

@[simp] theorem sendTimes_shadows (e : Nat) (t : Txn) (n : Nat) : (sendTimes s e t n).shadows = s.shadows := by
  induction n generalizing s with
  | zero => rfl
  | succ n ih => simp [sendTimes, ih]

@[simp] theorem respond_shadows (e : Nat) (tid : BitVec 16) (src : Word) (addr ch st : Nat) (data : List Byte) :
    (respond s e tid src addr ch st data).shadows = s.shadows := by
  unfold respond
  dsimp only
  split
  · rfl
  · split <;> simp

@[simp] theorem addBell_shadows (d n : Nat) (v : Word) : (addBell s d n v).shadows = s.shadows := by
  simp [addBell]

@[simp] theorem addNamed_shadows (die src : Nat) (w : Nat) (v : Word) (who : Origin) :
    (addNamed s die src w v who).shadows = s.shadows := by
  simp [addNamed]

/-! ### The host engine -/

@[simp] theorem macSendOne_shadows (m : Nat) : (macSendOne s m).shadows = s.shadows := by
  unfold macSendOne
  split
  · split <;> simp
  · rfl

@[simp] theorem macSends_shadows (k : Nat) : (macSends k s).shadows = s.shadows := by
  induction k generalizing s with
  | zero => rfl
  | succ k ih => simp [macSends, ih]

@[simp] theorem macFlush_shadows : (macFlush s).shadows = s.shadows := by
  simp [macFlush]

@[simp] theorem sendTo_shadows (ep : HostEp) (n : Nat) (f : Frame) (record : Option Word) :
    (sendTo s ep n f record).shadows = s.shadows := by
  unfold sendTo
  split <;> simp

@[simp] theorem reply_shadows (ep : HostEp) (f : Frame) (st : Nat) (data : List Byte) :
    (reply s ep f st data).shadows = s.shadows := by
  simp [reply]

@[simp] theorem sendAll_shadows (ft kind : Nat) (data : List Byte) (record : Option Word) (l : List (Nat × Session)) :
    (sendAll s ft kind data record l).shadows = s.shadows := by
  induction l generalizing s with
  | nil => rfl
  | cons x l ih =>
    unfold sendAll
    split <;> simp [ih]

@[simp] theorem sendEvent_shadows (kind : Nat) (data : List Byte) (record : Option Word) :
    (sendEvent s kind data record).shadows = s.shadows := by
  simp [sendEvent]

@[simp] theorem msixSend_shadows (k : Nat) : (msixSend s k).shadows = s.shadows := by
  simp [msixSend]

@[simp] theorem rewindHost_shadows (rs : List Word) : (rewindHost s rs).shadows = s.shadows := by
  simp [rewindHost]

@[simp] theorem replyTimes_shadows (ep : HostEp) (f : Frame) (st : Nat) (data : List Byte) (n : Nat) :
    (replyTimes s ep f st data n).shadows = s.shadows := by
  induction n generalizing s with
  | zero => rfl
  | succ n ih => simp [replyTimes, ih]

/-! ### The fault log -/

@[simp] theorem offerHost_shadows (k : Nat) : (offerHost k s).shadows = s.shadows := by
  induction k generalizing s with
  | zero => rfl
  | succ k ih => simp [offerHost, ih]

@[simp] theorem autoFree_shadows (k : Nat) : (autoFree k s).shadows = s.shadows := by
  induction k generalizing s with
  | zero => rfl
  | succ k ih => simp [autoFree, ih]

@[simp] theorem settleHost_shadows : (settleHost s).shadows = s.shadows := by
  simp [settleHost]

@[simp] theorem closeIfDone_shadows (n : Nat) : (closeIfDone s n).shadows = s.shadows := by
  unfold closeIfDone
  dsimp only
  split
  · rfl
  · split
    · rw [settleHost_shadows]
      split <;> simp
    · rfl

@[simp] theorem hostComplete_shadows (n : Nat) (reqid : Word) (st : Nat) (data : List Byte) :
    (hostComplete s n reqid st data).shadows = s.shadows := by
  unfold hostComplete
  dsimp only
  split
  · rfl
  · rw [closeIfDone_shadows]
    split <;> simp

@[simp] theorem logTake_shadows (r : List Word) : (logTake s r).shadows = s.shadows := by
  simp [logTake]

@[simp] theorem raise_shadows (r : List Word) : (raise s r).shadows = s.shadows := by
  simp [raise]

@[simp] theorem logHeldOf_shadows (n : Nat) (src : Word) : (logHeldOf n s src).shadows = s.shadows := by
  induction n generalizing s with
  | zero => rfl
  | succ n ih =>
    unfold logHeldOf
    split
    · rfl
    · split <;> simp [ih]

@[simp] theorem raiseFirst_shadows (r : List Word) : (raiseFirst s r).shadows = s.shadows := by
  simp [raiseFirst]

@[simp] theorem haltNote_shadows (bitNo : Nat) (r : List Word) : (haltNote s bitNo r).shadows = s.shadows := by
  simp [haltNote]

@[simp] theorem addrError_shadows (agent : Nat) (src : Word) (port : Word) (addr : Nat) :
    (addrError s agent src port addr).shadows = s.shadows := by
  unfold addrError
  dsimp only
  split
  · rfl
  · split <;> simp

@[simp] theorem accessRec_shadows (d n st a : Nat) : (accessRec s d n st a).shadows = s.shadows := by
  simp [accessRec]

/-! ### Spires, queue front-ends and units -/

@[simp] theorem putLocal_shadows (d n a : Nat) (bs : List Byte) : (putLocal s d n a bs).shadows = s.shadows := by
  simp [putLocal]

@[simp] theorem spireDone_shadows (d n : Nat) (st : Nat) (data : List Byte) : (spireDone s d n st data).shadows = s.shadows := by
  unfold spireDone
  dsimp only
  split <;> simp

@[simp] theorem meshAnswer_shadows (d n : Nat) (st : Nat) (value : Word) : (meshAnswer s d n st value).shadows = s.shadows := by
  unfold meshAnswer
  dsimp only
  split <;> simp

@[simp] theorem ringCtl_shadows (d : Nat) (ctl : Word) : (ringCtl s d ctl).shadows = s.shadows := by
  simp [ringCtl]

@[simp] theorem feFinish_shadows (d q : Nat) : (feFinish s d q).shadows = s.shadows := by
  unfold feFinish
  split <;> simp

@[simp] theorem feComplete_shadows (d q : Nat) (st phase : Nat) : (feComplete s d q st phase).shadows = s.shadows := by
  unfold feComplete
  split <;> simp

@[simp] theorem feEnd_shadows (d q : Nat) (st : Nat) : (feEnd s d q st).shadows = s.shadows := by
  unfold feEnd
  split <;> simp

@[simp] theorem answerRemote_shadows (ep : Nat) (tid : BitVec 16) (src : Word) (addr ch st : Nat) (data : List Byte) :
    (answerRemote s ep tid src addr ch st data).shadows = s.shadows := by
  simp [answerRemote]

@[simp] theorem answerOp_shadows (who : Origin) (st : Nat) (data : List Byte) :
    (answerOp s who st data).shadows = s.shadows := by
  unfold answerOp
  split <;> simp

@[simp] theorem setUnitCmd_shadows (u : UnitRef) (c : Option UnitCmd) : (setUnitCmd s u c).shadows = s.shadows := by
  unfold setUnitCmd
  split <;> simp

@[simp] theorem setUnitDones_shadows (u : UnitRef) (l : List Done) : (setUnitDones s u l).shadows = s.shadows := by
  unfold setUnitDones
  split <;> simp

@[simp] theorem addDone_shadows (u : UnitRef) (c : UnitCmd) (st : Nat) (counters result : Word) :
    (addDone s u c st counters result).shadows = s.shadows := by
  simp [addDone]

@[simp] theorem finishCmd_shadows (u : UnitRef) (st : Nat) (counters result : Word) :
    (finishCmd s u st counters result).shadows = s.shadows := by
  unfold finishCmd
  split <;> simp

@[simp] theorem unitOver_shadows (u : UnitRef) : (unitOver s u).shadows = s.shadows := by
  unfold unitOver
  split
  · rfl
  · dsimp only
    split <;> simp

/-! ### Plinths and chains -/

@[simp] theorem plFlags_shadows (d n : Nat) (f : TFlags) : (plFlags s d n f).shadows = s.shadows := by
  simp [plFlags]

@[simp] theorem spoilAcc_shadows (d n i : Nat) : (spoilAcc s d n i).shadows = s.shadows := by
  rw [spoilAcc]
  exact setPlinth_shadows _ d n _

@[simp] theorem foldInto_shadows (d n : Nat) (x : Pair) : (foldInto s d n x).shadows = s.shadows := by
  unfold foldInto
  dsimp only
  split
  · simp
  · rw [plFlags_shadows]
    exact setPlinth_shadows _ d n _

@[simp] theorem foldPair_shadows (d n : Nat) (x : Pair) : (foldPair s d n x).shadows = s.shadows := by
  simp [foldPair]

@[simp] theorem foldHeld_shadows (k : Nat) (d : Nat) (n : Nat) (i : Nat) : (foldHeld k s d n i).shadows = s.shadows := by
  induction k generalizing s d n i with
  | zero => rfl
  | succ k ih =>
    unfold foldHeld
    dsimp only
    split <;> simp [ih]

theorem takePair_shadows {d n : Nat} {x : Pair} {t : State} (h : takePair s d n x = some t) : t.shadows = s.shadows := by
  unfold takePair at h
  dsimp only at h
  split at h
  · cases h
  · split at h
    · cases h
      simp
    · split at h
      · cases h
      · cases h
        simp

@[simp] theorem dropAsk_shadows (p : Nat) (o : Outst) : (dropAsk s p o).shadows = s.shadows := by
  simp [dropAsk]

@[simp] theorem orphan_shadows (p : Nat) (o : Outst) : (orphan s p o).shadows = s.shadows := by
  simp [orphan]

@[simp] theorem forsake_shadows (p : Nat) (o : Outst) : (forsake s p o).shadows = s.shadows := by
  simp [forsake]

@[simp] theorem chainEnd_shadows (d : Fin 4) (n : Fin 8) (st : Nat) : (chainEnd s d n st).shadows = s.shadows := by
  simp [chainEnd]

theorem chainTake_shadows {d n k : Nat} {chid : BitVec 16} {m cols r : Nat} {row : List (Word × Word × Nat)} {t : State}
    (h : chainTake s d n k chid m cols r row = some t) : t.shadows = s.shadows := by
  unfold chainTake at h
  dsimp only at h
  split at h
  · obtain ⟨q, -, rfl⟩ := Option.map_eq_some_iff.1 h
    exact setPlinth_shadows s _ _ _
  · cases h

@[simp] theorem handRows_shadows (k : Nat) (d : Fin 4) (n : Fin 8) : (handRows k s d n).shadows = s.shadows := by
  induction k generalizing s d n with
  | zero => rfl
  | succ k ih =>
    unfold handRows
    dsimp only
    split
    · split
      · rfl
      · rename_i taken
        rw [ih, setPlinth_shadows, chainTake_shadows s taken]
    · rfl

@[simp] theorem chainGo_shadows (d : Fin 4) (n : Fin 8) : (chainGo s d n).shadows = s.shadows := by
  simp [chainGo]

theorem takePairs_shadows {d n : Nat} {l : List Pair} {t : State} (h : takePairs s d n l = some t) :
    t.shadows = s.shadows := by
  induction l generalizing s with
  | nil =>
    cases h
    rfl
  | cons x l ih =>
    unfold takePairs at h
    split at h
    · cases h
    · rename_i taken
      exact (ih _ h).trans (takePair_shadows s taken)

theorem getD_takePairs_shadows {s u v : State} {d n : Nat} {l : List Pair} (hu : u.shadows = s.shadows)
    (hv : v.shadows = s.shadows) : ((takePairs u d n l).getD v).shadows = s.shadows :=
  (getD_shadows fun _ taken => (takePairs_shadows u taken).trans (hu.trans hv.symm)).trans hv

@[simp] theorem drainRowsIn_shadows (k : Nat) (d n : Nat) (t : Bool) : (drainRowsIn k s d n t).shadows = s.shadows := by
  induction k generalizing s d n t with
  | zero => rfl
  | succ k ih =>
    unfold drainRowsIn
    split
    · rfl
    · exact (ih _ _ _ _).trans (getD_takePairs_shadows (by simp) (by simp))

@[simp] theorem chainPump_shadows (k : Nat) (d : Fin 4) (n : Nat) : (chainPump k s d n).shadows = s.shadows := by
  induction k generalizing s d n with
  | zero => rfl
  | succ k ih =>
    unfold chainPump
    dsimp only
    split <;> simp [ih]

@[simp] theorem chainFree_shadows (d : Fin 4) (n : Nat) (chid : BitVec 16) : (chainFree s d n chid).shadows = s.shadows := by
  simp [chainFree]

@[simp] theorem dropRows_shadows (d : Fin 4) (n : Fin 8) : (dropRows s d n).shadows = s.shadows := by
  exact foldl_shadows _ _ fun t x => by simp

@[simp] theorem chainBreak_shadows (d : Fin 4) (n : Fin 8) : (chainBreak s d n).shadows = s.shadows := by
  unfold chainBreak
  split
  · rfl
  · simp

@[simp] theorem chainScan_shadows (l : List (Fin 4 × Fin 8)) : (chainScan s l).shadows = s.shadows := by
  induction l generalizing s with
  | nil => rfl
  | cons x l ih => simp [chainScan, ih]

@[simp] theorem chainAnswer_shadows (d : Fin 4) (n : Fin 8) (st : Nat) : (chainAnswer s d n st).shadows = s.shadows := by
  simp [chainAnswer]

/-! ### Answers -/

@[simp] theorem moverAnswer_shadows (m : Fin 8) (st : Nat) (data : List Byte) :
    (moverAnswer s m st data).shadows = s.shadows := by
  unfold moverAnswer
  split <;> simp

@[simp] theorem moverPushed_shadows (m : Fin 8) (st : Nat) : (moverPushed s m st).shadows = s.shadows := by
  unfold moverPushed
  split
  · rfl
  · split
    · simp
    · split
      · split
        · rename_i asked
          exact sendAsk_shadows s asked
        · simp
      · simp

@[simp] theorem moverTold_shadows (m : Fin 8) (k st : Nat) (data : List Byte) :
    (moverTold s m k st data).shadows = s.shadows := by
  simp [moverTold]

@[simp] theorem faultTaken_shadows (i : Word) : (faultTaken s i).shadows = s.shadows := by
  simp [faultTaken]

@[simp] theorem wuEnd_shadows (n : Nat) (id : Word) (st : Nat) : (wuEnd s n id st).shadows = s.shadows := by
  simp [wuEnd]

@[simp] theorem wuPushed_shadows (n : Nat) (id : Word) (st : Nat) : (wuPushed s n id st).shadows = s.shadows := by
  simp [wuPushed]

@[simp] theorem cameraDone_shadows (r k n : Nat) (ready : Option Nat) : (cameraDone s r k n ready).shadows = s.shadows := by
  unfold cameraDone
  split <;> simp

@[simp] theorem serialGot_shadows (u gen st : Nat) (data : List Byte) : (serialGot s u gen st data).shadows = s.shadows := by
  simp [serialGot]

@[simp] theorem engineErr_shadows (agent unit : Nat) (port : Word) (o : Outst) (st : Nat) :
    (engineErr s agent unit port o st).shadows = s.shadows := by
  simp [engineErr]

@[simp] theorem askDone_shadows (o : Outst) (st : Nat) (data : List Byte) : (askDone s o st data).shadows = s.shadows := by
  unfold askDone
  split <;> simp

/-! ### Isolation -/

@[simp] theorem withdrawFrom_shadows (who : Origin) (l : List Nat) : (withdrawFrom s who l).shadows = s.shadows := by
  induction l generalizing s with
  | nil => rfl
  | cons x l ih => simp [withdrawFrom, ih]

@[simp] theorem withdraw_shadows (who : Origin) : (withdraw s who).shadows = s.shadows := by
  simp [withdraw]

@[simp] theorem releaseAll_shadows (st : Nat) (l : List Waiter) : (releaseAll s st l).shadows = s.shadows := by
  induction l generalizing s with
  | nil => rfl
  | cons x l ih => simp [releaseAll, ih]

@[simp] theorem poisonBell_shadows (d n : Nat) : (poisonBell s d n).shadows = s.shadows := by
  simp [poisonBell]

@[simp] theorem poisonSome_shadows (d : Nat) (t : Bell → Bool) (l : List Nat) : (poisonSome s d t l).shadows = s.shadows := by
  induction l generalizing s with
  | nil => rfl
  | cons x l ih => simp [poisonSome, ih]

@[simp] theorem poisonDies_shadows (t : Nat → Bell → Bool) (l : List Nat) : (poisonDies s t l).shadows = s.shadows := by
  induction l generalizing s with
  | nil => rfl
  | cons x l ih =>
    unfold poisonDies
    rw [ih, poisonSome_shadows]

@[simp] theorem cutHeld_shadows (t : Nat → Origin → Bool) (l : List Nat) : (cutHeld s t l).shadows = s.shadows := by
  induction l generalizing s with
  | nil => rfl
  | cons x l ih => simp [cutHeld, ih]

@[simp] theorem closeEps_shadows (l : List Nat) : (closeEps s l).shadows = s.shadows := by
  induction l generalizing s with
  | nil => rfl
  | cons x l ih => simp [closeEps, ih]

@[simp] theorem cutRelay_shadows (p : Nat) (o : Outst) : (cutRelay s p o).shadows = s.shadows := by
  simp [cutRelay]

@[simp] theorem failAsk_shadows (c : Nat) (x : Nat × Outst) : (failAsk c s x).shadows = s.shadows := by
  simp [failAsk]

@[simp] theorem sendIso_shadows (c : Nat) (l : List Nat) : (sendIso s c l).shadows = s.shadows := by
  induction l generalizing s with
  | nil => rfl
  | cons x l ih => simp [sendIso, ih]

@[simp] theorem isolateChip_shadows (e c : Nat) : (isolateChip s e c).shadows = s.shadows := by
  unfold isolateChip
  split
  · rfl
  · rw [sendIso_shadows, raise_shadows, poisonDies_shadows, chainScan_shadows, cutHeld_shadows,
      foldl_shadows _ _ fun t x => failAsk_shadows t c x, closeEps_shadows]

@[simp] theorem isolateVia_shadows (p : Nat) (l : List Nat) : (isolateVia s p l).shadows = s.shadows := by
  induction l generalizing s with
  | nil => rfl
  | cons x l ih => simp [isolateVia, ih]

/-! ### HALT -/

theorem getD_ringAsk_shadows {s u : State} {m : Nat} {ring : Word} {k kind : Nat} {payload : List Byte} {who : Origin}
    (h : u.shadows = s.shadows) : ((ringAsk u m ring k kind payload who).getD s).shadows = s.shadows := by
  unfold ringAsk
  dsimp only
  split
  · exact getD_sendAsk_shadows h
  · rfl

@[simp] theorem uartTake_shadows (u : Nat) : (uartTake s u).shadows = s.shadows := by
  unfold uartTake
  dsimp only
  split
  · rfl
  · split
    · exact getD_ringAsk_shadows (by simp)
    · rfl

@[simp] theorem uartStop_shadows (u : Nat) (discard : Bool) : (uartStop s u discard).shadows = s.shadows := by
  simp [uartStop]

@[simp] theorem setMState_shadows (m : MState) : (setMState s m).shadows = s.shadows := by
  simp [setMState]

@[simp] theorem slotLost_shadows (slot : Bool) : (slotLost s slot).shadows = s.shadows := by
  simp [slotLost]

@[simp] theorem dropUpdate_shadows : (dropUpdate s).shadows = s.shadows := by
  unfold dropUpdate
  split <;> simp

@[simp] theorem drainPorts_shadows (l : List (Fin 4 × Fin 8)) : (drainPorts s l).shadows = s.shadows := by
  induction l generalizing s with
  | nil => rfl
  | cons x l ih => simp [drainPorts, ih]

@[simp] theorem closePorts_shadows : (closePorts s).shadows = s.shadows := by
  rw [closePorts, foldl_shadows _ _ fun t p => isolateVia_shadows t p _, closeEps_shadows]

@[simp] theorem stopUarts_shadows : (stopUarts s).shadows = s.shadows := by
  exact foldl_shadows _ _ fun t u => uartStop_shadows t u false

@[simp] theorem answerAll_shadows (st : Nat) (l : List Origin) : (answerAll s st l).shadows = s.shadows := by
  induction l generalizing s with
  | nil => rfl
  | cons x l ih => simp [answerAll, ih]

@[simp] theorem meshRec_shadows (d n : Nat) : (meshRec s d n).shadows = s.shadows := by
  unfold meshRec
  split
  · split <;> simp
  · rfl

@[simp] theorem meshRecs_shadows (l : List (Nat × Nat)) : (meshRecs s l).shadows = s.shadows := by
  induction l generalizing s with
  | nil => rfl
  | cons x l ih => simp [meshRecs, ih]

@[simp] theorem stopAsk_shadows (o : Outst) : (stopAsk s o).shadows = s.shadows := by
  simp [stopAsk]

@[simp] theorem haltWait_shadows (o : Outst) (d n : Nat) : (haltWait s o d n).shadows = s.shadows := by
  unfold haltWait
  split <;> simp

@[simp] theorem haltAsk_shadows (x : Nat × Outst) : (haltAsk s x).shadows = s.shadows := by
  unfold haltAsk
  dsimp only
  split
  · rfl
  · split <;> simp

@[simp] theorem enterHalt_shadows : (enterHalt s).shadows = s.shadows := by
  simp only [enterHalt, closePorts_shadows, answerAll_shadows, stopUarts_shadows, dropUpdate_shadows, setMState_shadows,
    mapDies_shadows, drainPorts_shadows, meshRecs_shadows, foldl_shadows _ _ fun t x => haltAsk_shadows t x]

@[simp] theorem haltFault_shadows (bitNo : Nat) (r : List Word) : (haltFault s bitNo r).shadows = s.shadows := by
  simp [haltFault]

@[simp] theorem spFault_shadows (d n : Nat) (hc : BitVec 4) (kind : Nat) : (spFault s d n hc kind).shadows = s.shadows := by
  simp [spFault]

end Sys2Proof.Machine
end

section
/-! What a read of a register leaves of the captured words: those of every other requester (02 R49; 10 R250). -/

namespace Sys2Proof.Machine

/-! ### The shadows of the other requesters -/

/-- In t every requester but number q would read from SYS_TB_HI what it would in s (02 R49). -/
def OthersSame (q : Nat) (s t : State) : Prop := ∀ p, p ≠ q → shadowWord t (p * 16) = shadowWord s (p * 16)

/-- A register read by requester q, where there is one, leaves the words that the others have captured. -/
def ReadKeeps (q : Nat) (s : State) (r : RegRead) : Prop := ∀ w t, r = some (w, t) → OthersSame q s t

variable {q : Nat} {s t : State}

@[simp] theorem othersSame_of_shadows (h : t.shadows = s.shadows) : OthersSame q s t := fun _ _ => by
  rw [shadowWord, shadowWord, h]

theorem OthersSame.step {u : State} (h : OthersSame q s t) (hu : u.shadows = t.shadows) : OthersSame q s u := fun p ne =>
  (othersSame_of_shadows hu p ne).trans (h p ne)

/-- A word captured by q, from SYS_TB_LO or from NLD_TOFS_LO, lies beside the words of the others. -/
theorem othersSame_setShadow (s : State) {k : Nat} (v : Word) (own : k / 16 = q) : OthersSame q s (setShadow s k v) := by
  intro p ne
  have other : p * 16 ≠ k := by omega
  simp [shadowWord, setShadow, tabGet_tabSet, other]

@[simp] theorem readKeeps_none : ReadKeeps q s none := fun _ _ h => nomatch h

@[simp] theorem readKeeps_some {w : Word} : ReadKeeps q s (some (w, t)) ↔ OthersSame q s t :=
  ⟨fun h => h w t rfl, fun h _ _ e => by cases e; exact h⟩

@[simp] theorem readKeeps_rdSame (v : Word) : ReadKeeps q s (rdSame s v) := by
  simp [rdSame]

@[simp] theorem readKeeps_ite {p : Prop} [Decidable p] {a b : RegRead} :
    ReadKeeps q s (if p then a else b) ↔ (p → ReadKeeps q s a) ∧ (¬ p → ReadKeeps q s b) := by
  by_cases h : p <;> simp [h]

theorem readKeeps_map {r : RegRead} {f : Word × State → Word × State} (hr : ReadKeeps q s r)
    (hf : ∀ x, (f x).2.shadows = x.2.shadows) : ReadKeeps q s (r.map f) := by
  cases r with
  | none => exact readKeeps_none
  | some x => exact readKeeps_some.2 ((hr x.1 x.2 rfl).step (hf x))

theorem readKeeps_firstRead {a b : RegRead} (ha : ReadKeeps q s a) (hb : ReadKeeps q s b) :
    ReadKeeps q s (firstRead a b) := by
  unfold firstRead
  split
  · exact ha
  · exact hb

/-! ### Updates that the reads make -/

@[simp] theorem setSysDie_shadows (s : State) (d : Nat) (v : SysDie) : (setSysDie s d v).shadows = s.shadows := by
  simp [setSysDie]

@[simp] theorem dieSays_shadows (s : State) (d : Nat) (w : Word) : (dieSays s d w).2.shadows = s.shadows := by
  unfold dieSays
  split <;> rfl

@[simp] theorem pciCountClear_shadows (s : State) (k : PciCounter) : (pciCountClear s k).shadows = s.shadows := by
  cases k <;> rfl

@[simp] theorem fSupplySeen_shadows (s : State) : (fSupplySeen s).shadows = s.shadows := by
  unfold fSupplySeen
  split
  · dsimp only
    split <;> rfl
  · rfl

@[simp] theorem othersSame_setEndp (s : State) (e : Nat) (v : Endp) : OthersSame q s (setEndp s e v) :=
  othersSame_of_shadows rfl

@[simp] theorem othersSame_setMac (s : State) (m : Nat) (v : Mac) : OthersSame q s (setMac s m v) :=
  othersSame_of_shadows rfl

@[simp] theorem othersSame_setCsiRx (s : State) (r : Nat) (v : CsiRx) : OthersSame q s (setCsiRx s r v) :=
  othersSame_of_shadows rfl

@[simp] theorem othersSame_setUart (s : State) (u : Nat) (v : Uart) : OthersSame q s (setUart s u v) :=
  othersSame_of_shadows rfl

/-! ### The blocks of registers -/

theorem readKeeps_fabRead (d o : Nat) : ReadKeeps q s (fabRead s q d o) := by
  unfold fabRead
  dsimp only
  split
  · exact readKeeps_some.2 (othersSame_setShadow s _ (by omega))
  all_goals simp

theorem readKeeps_twrRead (d n o : Nat) : ReadKeeps q s (twrRead s d n o) := by
  unfold twrRead
  dsimp only
  split <;> simp

theorem readKeeps_plnRead (d n o : Nat) : ReadKeeps q s (plnRead s d n o) := by
  unfold plnRead
  dsimp only
  split <;> simp

theorem readKeeps_domRead (d o : Nat) : ReadKeeps q s (domRead s d o) := by
  unfold domRead
  split
  · simp
  · split
    · dsimp only
      split <;> simp
    · simp

theorem readKeeps_lntRead (d n o : Nat) : ReadKeeps q s (lntRead s d n o) := by
  unfold lntRead
  dsimp only
  split <;> simp

theorem readKeeps_sprRead (d n o : Nat) : ReadKeeps q s (sprRead s d n o) := by
  unfold sprRead
  dsimp only
  split <;> simp

theorem readKeeps_epRead (e o : Nat) : ReadKeeps q s (epRead s e o) := by
  unfold epRead
  dsimp only
  split <;> simp

theorem readKeeps_nldRead (d o : Nat) : ReadKeeps q s (nldRead s q d o) := by
  unfold nldRead
  split
  · split
    · simp
    · exact readKeeps_epRead _ _
  · split
    · split
      case h_5 => exact readKeeps_some.2 (othersSame_setShadow s _ (by omega))
      all_goals simp
    · simp

theorem readKeeps_cRegRead (d o : Nat) : ReadKeeps q s (cRegRead s q d o) := by
  unfold cRegRead
  dsimp only
  split <;> simp [readKeeps_fabRead, readKeeps_twrRead, readKeeps_plnRead, readKeeps_domRead, readKeeps_lntRead,
    readKeeps_sprRead, readKeeps_nldRead]

theorem readKeeps_faultRead (o : Nat) : ReadKeeps q s (faultRead s o) := by
  unfold faultRead
  dsimp only
  split <;> simp

theorem readKeeps_govRead (o : Nat) : ReadKeeps q s (govRead s o) := by
  simp [govRead]

theorem readKeeps_thmRead (o : Nat) : ReadKeeps q s (thmRead s o) := by
  simp [thmRead]

theorem readKeeps_memRead_ (o : Nat) : ReadKeeps q s (memRead_ s o) := by
  unfold memRead_
  dsimp only
  split <;> simp

theorem readKeeps_pciRead (o : Nat) : ReadKeeps q s (pciRead s o) := by
  unfold pciRead
  split
  case h_12 =>
    split
    · split <;> simp
    · simp
  all_goals simp

theorem readKeeps_pciDevRead (o : Nat) : ReadKeeps q s (pciDevRead s o) := by
  unfold pciDevRead
  dsimp only
  split <;> simp

theorem readKeeps_ethRead (m o : Nat) : ReadKeeps q s (ethRead s m o) := by
  unfold ethRead
  dsimp only
  split <;> simp

theorem readKeeps_csiRead (r o : Nat) : ReadKeeps q s (csiRead s r o) := by
  unfold csiRead
  dsimp only
  split
  · split <;> simp
  · split <;> simp

theorem readKeeps_uartRead (u o : Nat) : ReadKeeps q s (uartRead s u o) := by
  unfold uartRead
  dsimp only
  split <;> simp

theorem readKeeps_aoRead (n o : Nat) : ReadKeeps q s (aoRead s n o) := by
  unfold aoRead
  dsimp only
  split <;> simp

theorem readKeeps_fioStat : ReadKeeps q s (fioStat s) :=
  readKeeps_some.2 (othersSame_of_shadows (fSupplySeen_shadows s))

theorem readKeeps_fioSupply : ReadKeeps q s (fioSupply s) := readKeeps_some.2 (othersSame_of_shadows rfl)

theorem readKeeps_fioRead (o : Nat) : ReadKeeps q s (fioRead s o) := by
  unfold fioRead
  dsimp only
  split
  case h_2 => exact readKeeps_fioStat
  case h_3 => exact readKeeps_fioSupply
  case h_15 =>
    split
    · exact readKeeps_aoRead _ _
    · split <;> simp
  all_goals simp

/-! ### Every register -/

theorem readKeeps_hRegRead (o : Nat) : ReadKeeps q s (hRegRead s q o) := by
  unfold hRegRead
  dsimp only
  split
  case h_1 =>
    exact readKeeps_firstRead (readKeeps_fabRead _ _) (readKeeps_firstRead (readKeeps_govRead _) (readKeeps_faultRead _))
  case h_4 => cases bootRead s (o % 0x10000) <;> simp
  all_goals simp [readKeeps_nldRead, readKeeps_memRead_, readKeeps_pciRead, readKeeps_ethRead, readKeeps_csiRead,
    readKeeps_uartRead, readKeeps_thmRead, readKeeps_pciDevRead]

theorem readKeeps_fRegRead (o : Nat) : ReadKeeps q s (fRegRead s q o) := by
  unfold fRegRead
  split
  · exact readKeeps_fioRead _
  · exact readKeeps_nldRead _ _
  · simp

/-- A register of whichever die, read by requester q. -/
theorem readKeeps_regRead (d o : Nat) : ReadKeeps q s (regRead s q d o) := by
  unfold regRead
  split
  · exact readKeeps_map (readKeeps_cRegRead _ _) fun x => dieSays_shadows x.2 d x.1
  · split
    · exact readKeeps_hRegRead _
    · exact readKeeps_fRegRead _

end Sys2Proof.Machine
end

section
/-! The captured high words of the requesters (02 R49). -/

namespace Sys2Proof.Machine

variable {s t : State}

theorem spTrap_shadows (s : State) (d n code : Nat) (acause : BitVec 4) (xcause : Word) :
    (spTrap s d n code acause xcause).shadows = s.shadows := by
  unfold spTrap
  dsimp only
  split
  · exact spFault_shadows s d n 4 0x0031
  · exact setSpire_shadows s d n _

/-- Whether an instruction issues, traps or waits, the words that the others have captured are kept where its effect keeps them. -/
theorem othersSame_spIssue {q d n : Nat} {w : Word} {i : SpOp} {k : State} (hk : OthersSame q s k) :
    OthersSame q s (spIssue s d n w i k) := by
  have trap : ∀ code acause xcause, OthersSame q s (spTrap s d n code acause xcause) := fun _ _ _ =>
    othersSame_of_shadows (spTrap_shadows s d n _ _ _)
  have same : OthersSame q s s := othersSame_of_shadows rfl
  unfold spIssue
  dsimp only
  split
  · exact same
  · split
    · exact trap _ _ _
    · split
      · exact trap _ _ _
      · split
        · exact same
        · split
          · exact trap _ _ _
          · split
            · exact hk
            · exact same

/-- SYS_TB_LO read by a requester leaves what the others have captured. -/
theorem othersSame_tbLoRead (s : State) (a : Requester) (d : Nat) : OthersSame (reqCode a) s (tbLoRead s a d).2 := by
  have captured : OthersSame (reqCode a) (dieSays (dieSays s d (loWord s.tb)).2 d (hiWord s.tb)).2 (tbLoRead s a d).2 :=
    othersSame_setShadow _ _ (by simp [shadowTb])
  intro p ne
  rw [captured p ne]
  simp [shadowWord]

theorem readKeeps_spSpecial {d : Fin 4} {n : Fin 32} {r : Nat} :
    ReadKeeps (reqCode (.spire d n)) s (spSpecial s d n r) := by
  unfold spSpecial
  dsimp only
  split
  case h_13 => exact readKeeps_some.2 (othersSame_tbLoRead s _ _)
  all_goals simp

/-- RDS by a Spire leaves what the other requesters have captured (08 R196). -/
theorem othersSame_execRds {d : Fin 4} {n : Fin 32} {w : Word} (h : exec (.rds d n w) s = .next t) :
    OthersSame (reqCode (.spire d n)) s t := by
  cases h
  refine othersSame_spIssue ?_
  split
  · exact othersSame_of_shadows (spTrap_shadows s d n _ _ _)
  · rename_i read
    exact (readKeeps_spSpecial _ _ read).step (setSpire_shadows _ d n _)

theorem othersSame_execSysTbLoRead {a : Requester} {d : Fin 5} (h : exec (.sysTbLoRead a d) s = .next t) :
    OthersSame (reqCode a) s t := by
  cases h
  show OthersSame _ _ (if reqReaches s a d = true then outOf (tbLoRead s a d) else s)
  split
  · exact othersSame_tbLoRead s a d
  · exact othersSame_of_shadows rfl

/-- PCI_TB_LO has a shadow of the host engine's own (13 R323). -/
theorem execPciTbLoRead_shadows (h : exec .pciTbLoRead s = .next t) : t.shadows = s.shadows := by
  cases h
  show (if s.mstate ≠ .reset then _ else s : State).shadows = s.shadows
  split <;> rfl

/-- Requesters have numbers of their own. -/
theorem reqCode_injective : Function.Injective reqCode := by
  rintro (⟨d, n⟩ | _ | _) (⟨e, j⟩ | _ | _) h
  all_goals simp only [reqCode] at h
  case spire.spire =>
    have die : d = e := Fin.ext (by omega)
    have number : n = j := Fin.ext (by omega)
    rw [die, number]
  case boot.boot => rfl
  case host.host => rfl
  all_goals omega

/-- A read of SYS_TB_HI, offset 0x104 of any die, gives what its requester has captured and changes nothing (R49). -/
theorem fabRead_tbHi (s : State) (q d : Nat) : fabRead s q d 0x104 = some (shadowWord s (q * 16), s) := rfl

/-- What a requester reads from SYS_TB_HI is kept where its shadow is. -/
theorem fabRead_tbHi_kept {p : Nat} (same : shadowWord t (p * 16) = shadowWord s (p * 16)) (k : Nat) {w : Word} {u : State}
    (read : fabRead s p k 0x104 = some (w, u)) : ∃ u', fabRead t p k 0x104 = some (w, u') := by
  cases read
  exact ⟨t, by rw [fabRead_tbHi, same]⟩

end Sys2Proof.Machine

open Sys2Proof Sys2Proof.Machine in
/-- Settles O28: SYS_TB_HI reads a requester's own shadow, and whatever another requester reads sets shadows of its own alone; the frame of
the other operations holds for the traps of an RDS too, up to the HALT that one can cause. -/
theorem timeBaseReads : Obligations.TimeBaseReads := by
  unfold Obligations.TimeBaseReads
  intro s a d
  refine ⟨fun reaches whole => ?_, fun b k t ne h k' w u => ?_, fun e j w t ne h k' w' u => ?_, fun q k o w t ne h k' w' u => ?_,
    fun t h k w u => ?_, fun power cause => ⟨_, rfl⟩, rfl⟩
  · refine ⟨_, exec_sysTbLoRead reaches, ?_, fun k => ?_⟩
    · rw [tbLoRead, dieSays_whole _ whole, dieSays_whole _ whole]
      rfl
    · rw [fabRead_tbHi, tbLoRead, dieSays_whole _ whole, dieSays_whole _ whole]
      simp [shadowWord, outOf, outRead, setShadow, shadowTb, hiWord]
  · exact fabRead_tbHi_kept (othersSame_execSysTbLoRead h _ fun e => ne (reqCode_injective e.symm)) k'
  · exact fabRead_tbHi_kept (othersSame_execRds h _ fun e => ne (reqCode_injective e)) k'
  · exact fabRead_tbHi_kept (readKeeps_regRead k o w t h _ ne.symm) k'
  · exact fabRead_tbHi_kept (by rw [shadowWord, shadowWord, execPciTbLoRead_shadows h]) k
end

section
/-! The special cases of binary32 arithmetic (03 R65; 08 R190). -/

namespace Sys2Proof.Machine

/-! ### The classes of data -/

/-- A pattern is a NaN exactly where it stands for one. -/
theorem isNaN_iff {f : FFmt} {x : Nat} : isNaN f x = true ↔ ∃ s, unpack f x = .nan s := by
  unfold isNaN
  split <;> simp_all

theorem isInf_iff {f : FFmt} {x : Nat} : isInf f x = true ↔ ∃ s, unpack f x = .inf s := by
  unfold isInf
  split <;> simp_all

theorem isFinite_iff {f : FFmt} {x : Nat} : isFinite f x = true ↔ ∃ s m e, unpack f x = .fin s m e := by
  unfold isFinite
  split <;> simp_all

theorem isZero_iff {f : FFmt} {x : Nat} : isZero f x = true ↔ ∃ s e, unpack f x = .fin s 0 e := by
  unfold isZero
  split <;> simp_all

/-- Only a NaN is a signalling NaN. -/
theorem isSig_of_not_nan {f : FFmt} {x : Nat} (h : isNaN f x = false) : isSig f x = false := by
  unfold isNaN at h
  unfold isSig
  split <;> simp_all

/-! ### A NaN operand -/

/-- The first NaN of two operands, quieted, with invalid for a signalling one. -/
theorem nanResult_pair {f : FFmt} {x y : Nat} (h : isNaN f x ∨ isNaN f y) :
    nanResult f [x, y] = (quiet f (if isNaN f x then x else y), { nv := isSig f x || isSig f y }) := by
  by_cases hx : isNaN f x = true
  · simp [nanResult, hx]
  · have hy := h.resolve_left hx
    have sig := isSig_of_not_nan (Bool.eq_false_iff.2 hx)
    simp [nanResult, hx, hy, sig]

/-- The first NaN of three operands. -/
theorem nanResult_triple {f : FFmt} {x y z : Nat} (h : isNaN f x ∨ isNaN f y ∨ isNaN f z) :
    nanResult f [x, y, z] = (quiet f (if isNaN f x then x else if isNaN f y then y else z),
      { nv := isSig f x || isSig f y || isSig f z }) := by
  by_cases hx : isNaN f x = true
  · simp [nanResult, hx, Bool.or_assoc]
  · have sig := isSig_of_not_nan (Bool.eq_false_iff.2 hx)
    have rest := nanResult_pair (h.resolve_left hx)
    rw [nanResult, if_neg hx, rest]
    simp [hx, sig]

theorem fAdd_nan {f : FFmt} (rm : Nat) {x y : Nat} (h : isNaN f x ∨ isNaN f y) : fAdd f rm x y = nanResult f [x, y] := by
  obtain ⟨s, hs⟩ | ⟨s, hs⟩ := h.imp isNaN_iff.1 isNaN_iff.1
  · simp only [fAdd, hs]
  · cases hx : unpack f x <;> simp only [fAdd, hs, hx]

theorem fMul_nan {f : FFmt} (rm : Nat) {x y : Nat} (h : isNaN f x ∨ isNaN f y) : fMul f rm x y = nanResult f [x, y] := by
  obtain ⟨s, hs⟩ | ⟨s, hs⟩ := h.imp isNaN_iff.1 isNaN_iff.1
  · simp only [fMul, hs]
  · cases hx : unpack f x <;> simp only [fMul, hs, hx]

theorem fDiv_nan {f : FFmt} (rm : Nat) {x y : Nat} (h : isNaN f x ∨ isNaN f y) : fDiv f rm x y = nanResult f [x, y] := by
  obtain ⟨s, hs⟩ | ⟨s, hs⟩ := h.imp isNaN_iff.1 isNaN_iff.1
  · simp only [fDiv, hs]
  · cases hx : unpack f x <;> simp only [fDiv, hs, hx]

theorem fSub_nan {f : FFmt} (rm : Nat) {x y : Nat} (h : isNaN f x ∨ isNaN f y) : fSub f rm x y = nanResult f [x, y] := by
  rw [fSub, if_pos (by simpa using h)]

/-- A fused multiply-add with a NaN operand also signals invalid for zero times infinity. -/
theorem fFma_nan {f : FFmt} (rm : Nat) {x y z : Nat} (h : isNaN f x ∨ isNaN f y ∨ isNaN f z) :
    fFma f rm x y z = (quiet f (if isNaN f x then x else if isNaN f y then y else z),
      { nv := isSig f x || isSig f y || isSig f z || (isZero f x && isInf f y) || (isInf f x && isZero f y) }) := by
  rw [fFma, if_pos (by simpa [or_assoc] using h), nanResult_triple h]
  simp [zeroTimesInf, Bool.or_assoc]

/-- A comparison with a NaN is false. -/
theorem compare_nan {f : FFmt} {x y : Nat} (h : isNaN f x ∨ isNaN f y) :
    fCeq f x y = false ∧ fClt f x y = false ∧ fCle f x y = false := by
  have un : unordered f x y = true := by simpa [unordered] using h
  simp [fCeq, fClt, fCle, un]

/-- A NaN yields to a number in minimum and maximum, on either side. -/
theorem minMax_nan {f : FFmt} {x y : Nat} (hx : isNaN f x = true) (hy : isNaN f y = false) :
    fMin f x y = (y, { nv := isSig f x }) ∧ fMax f x y = (y, { nv := isSig f x }) ∧
      fMin f y x = (y, { nv := isSig f x }) ∧ fMax f y x = (y, { nv := isSig f x }) := by
  simp [fMin, fMax, cmpExc, hx, hy, isSig_of_not_nan hy]

/-! ### Invalid operations on numbers -/

/-- Infinities of opposite signs have no sum. -/
theorem fAdd_inf_opposite {f : FFmt} (rm : Nat) {x y : Nat} {s t : Bool} (hx : unpack f x = .inf s) (hy : unpack f y = .inf t)
    (ne : s ≠ t) : fAdd f rm x y = fInvalid f := by
  simp only [fAdd, hx, hy, if_neg ne]

/-- Zero times infinity. -/
theorem fMul_zero_inf {f : FFmt} (rm : Nat) {x y : Nat} (h : (isZero f x ∧ isInf f y) ∨ (isInf f x ∧ isZero f y)) :
    fMul f rm x y = fInvalid f := by
  obtain ⟨hx, hy⟩ | ⟨hx, hy⟩ := h
  · obtain ⟨s, e, hx⟩ := isZero_iff.1 hx
    obtain ⟨t, hy⟩ := isInf_iff.1 hy
    simp only [fMul, hx, hy, if_true]
  · obtain ⟨s, hx⟩ := isInf_iff.1 hx
    obtain ⟨t, e, hy⟩ := isZero_iff.1 hy
    simp only [fMul, hx, hy, if_true]

/-- 0/0 and infinity/infinity. -/
theorem fDiv_zero_zero_or_inf_inf {f : FFmt} (rm : Nat) {x y : Nat} (h : (isZero f x ∧ isZero f y) ∨ (isInf f x ∧ isInf f y)) :
    fDiv f rm x y = fInvalid f := by
  obtain ⟨hx, hy⟩ | ⟨hx, hy⟩ := h
  · obtain ⟨s, e, hx⟩ := isZero_iff.1 hx
    obtain ⟨t, e', hy⟩ := isZero_iff.1 hy
    simp only [fDiv, hx, hy, if_true]
  · obtain ⟨s, hx⟩ := isInf_iff.1 hx
    obtain ⟨t, hy⟩ := isInf_iff.1 hy
    simp only [fDiv, hx, hy]

theorem fInvalid_b32 : fInvalid b32 = (0x7FC00000, { nv := true }) := rfl

end Sys2Proof.Machine

open Sys2Proof.Machine in
/-- Settles O6: a NaN operand leads every operation to `nanResult`; the invalid operations on numbers are single branches of theirs. -/
theorem binary32SpecialCases : Obligations.Binary32SpecialCases := by
  unfold Obligations.Binary32SpecialCases
  refine ⟨fun rm x y h => ?_, fun rm x y z h => fFma_nan rm h, fun rm x y => ⟨?_, fun h => ?_, fun h => ?_⟩,
    fun x y hx hy => minMax_nan hx hy, fun x y h => ?_, fun rm lo hi x s => ⟨fun h => ?_, fun h => ?_⟩⟩
  · simp only [List.forall_mem_cons, fAdd_nan rm h, fSub_nan rm h, fMul_nan rm h, fDiv_nan rm h, nanResult_pair h]
    exact ⟨trivial, trivial, trivial, trivial, fun _ none => absurd none List.not_mem_nil⟩
  · rintro (⟨hx, hy⟩ | ⟨hx, hy⟩)
    · exact fAdd_inf_opposite rm hx hy (by decide)
    · exact fAdd_inf_opposite rm hx hy (by decide)
  · exact fMul_zero_inf rm h
  · exact fDiv_zero_zero_or_inf_inf rm h
  · obtain ⟨eq, lt, le⟩ := compare_nan h
    exact ⟨eq, lt, le, rfl⟩
  · obtain ⟨t, ht⟩ := isNaN_iff.1 h
    simp only [fToInt, ht, excNv]
  · simp only [fToInt, h, excNv]
end

section
/-! Units of a die whose contents are specified: what replacing one leaves of the others, and how a unit's command ends
(09 R212, R215). -/

namespace Sys2Proof.Machine

variable {s : State} {d n : Nat}

/-! ### A unit replaced -/

/-- The unit as it stands after it has been replaced. -/
theorem dome_setDome (v : Dome) (whole : (cd s d).slewed = false) : dome (setDome s d n v) d n = v := by
  simp [dome, setDome_whole _ _ _ _ whole]

theorem tower_setTower (v : Tower) (whole : (cd s d).slewed = false) : tower (setTower s d n v) d n = v := by
  simp [tower, setTower_whole _ _ _ _ whole]

theorem plinth_setPlinth (v : Plinth) (whole : (cd s d).slewed = false) : plinth (setPlinth s d n v) d n = v := by
  simp [plinth, setPlinth_whole _ _ _ _ whole]

/-- Replacing a unit leaves the die specified. -/
theorem setDome_slewed (v : Dome) (whole : (cd s d).slewed = false) : (cd (setDome s d n v) d).slewed = false := by
  simp [setDome_whole _ _ _ _ whole, whole]

theorem setTower_slewed (v : Tower) (whole : (cd s d).slewed = false) : (cd (setTower s d n v) d).slewed = false := by
  simp [setTower_whole _ _ _ _ whole, whole]

theorem setPlinth_slewed (v : Plinth) (whole : (cd s d).slewed = false) : (cd (setPlinth s d n v) d).slewed = false := by
  simp [setPlinth_whole _ _ _ _ whole, whole]

/-- Replacing a Dome leaves the waiting programmings as they were. -/
theorem setDome_tokenWait (v : Dome) (whole : (cd s d).slewed = false) : (setDome s d n v).tokenWait = s.tokenWait := by
  rw [setDome_whole _ _ _ _ whole, putCd_tokenWait]

/-- A later replacement of the same unit hides the earlier one. -/
theorem setDome_setDome (v w : Dome) (whole : (cd s d).slewed = false) :
    setDome (setDome s d n v) d n w = setDome s d n w := by
  simp [setDome_whole, whole]

theorem setTower_setTower (v w : Tower) (whole : (cd s d).slewed = false) :
    setTower (setTower s d n v) d n w = setTower s d n w := by
  simp [setTower_whole, whole]

theorem setPlinth_setPlinth (v w : Plinth) (whole : (cd s d).slewed = false) :
    setPlinth (setPlinth s d n v) d n w = setPlinth s d n w := by
  simp [setPlinth_whole, whole]

/-! ### A command ends -/

/-- The record of a command done with, whose control word is ctl (09 R214). -/
def doneOf (u : UnitCmd) (ctl : Word) (st : Byte) (counters : Word) : Done :=
  ⟨BitVec.ofNat 4 (cmdOpc u), st, counters, 0, ctl, u.seq, u.queue, u.die, false⟩

/-- A Dome whose command u has ended. -/
def Dome.ended (v : Dome) (u : UnitCmd) (st : Byte) (counters : Word) : Dome :=
  { v with cmd := none, cmdqWas := none, doneQ := v.doneQ ++ [doneOf u (wordAt u.w 5) st counters] }

/-- A Tower whose command u has ended. -/
def Tower.ended (v : Tower) (u : UnitCmd) (st : Byte) (counters : Word) : Tower :=
  { v with cmd := none, cmdqWas := none, doneQ := v.doneQ ++ [doneOf u (wordAt u.w 7) st counters] }

theorem finishCmd_dome {d : Fin 4} {n : Fin 256} {u : UnitCmd} (st : Nat) (k : Word) (whole : (cd s d).slewed = false)
    (cmd : (dome s d n).cmd = some u) :
    finishCmd s (.dome d n) st k 0 = setDome s d n ((dome s d n).ended u (BitVec.ofNat 8 st) k) := by
  simp only [finishCmd, unitCmd, cmd, addDone, setUnitDones, unitDones, setUnitCmd, dome_setDome _ whole,
    setDome_setDome _ _ whole]
  rfl

theorem finishCmd_tower {d : Fin 4} {n : Fin 8} {u : UnitCmd} (st : Nat) (k : Word) (whole : (cd s d).slewed = false)
    (cmd : (tower s d n).cmd = some u) :
    finishCmd s (.tower d n) st k 0 = setTower s d n ((tower s d n).ended u (BitVec.ofNat 8 st) k) := by
  simp only [finishCmd, unitCmd, cmd, addDone, setUnitDones, unitDones, setUnitCmd, tower_setTower _ whole,
    setTower_setTower _ _ whole]
  rfl

theorem addDone_dome {d : Fin 4} {n : Fin 256} (u : UnitCmd) (st : Nat) (k : Word) :
    addDone s (.dome d n) u st k 0 = setDome s d n { dome s d n with
      doneQ := (dome s d n).doneQ ++ [doneOf u (wordAt u.w 5) (BitVec.ofNat 8 st) k] } := rfl

/-! ### Reads of the Vault in pieces -/

/-- Pieces of a clean Vault are all read, and nothing changes. -/
theorem rdPieces_clean (a : Nat) (port : Word) (l : List (Nat × Nat)) (clean : vaultClean (cd s d)) :
    rdPieces s d a port l = (true, s) := by
  induction l with
  | nil => rfl
  | cons x xs ih => rw [rdPieces, rdVault_clean _ _ _ clean]; exact ih

/-! ### Lists of numbers and steps -/

theorem countFrom_eq_range' (a n : Nat) : countFrom a n = List.range' a n := by
  induction n generalizing a with
  | zero => rfl
  | succ n ih => rw [countFrom, ih, List.range'_succ]

theorem countFrom_eq_map (a n : Nat) : countFrom a n = (upTo n).map (a + ·) := by
  rw [upTo, countFrom_eq_range', countFrom_eq_range', List.map_add_range', Nat.add_zero]

theorem upTo_eq_range (n : Nat) : upTo n = List.range n := by
  rw [upTo, countFrom_eq_range', List.range_eq_range']

/-- A pass over m rows of n elements each, row by row, goes by one number. -/
theorem flatMap_upTo_map {α : Type} (m n : Nat) (g : Nat → Nat → α) :
    (upTo m).flatMap (fun i => (upTo n).map (g i)) = (upTo (m * n)).map (fun k => g (k / n) (k % n)) := by
  simp only [upTo_eq_range]
  induction m with
  | zero => simp
  | succ m ih =>
    rw [List.range_succ, List.flatMap_append, ih, Nat.succ_mul, List.range_add, List.map_append, List.map_map]
    congr 1
    rw [List.flatMap_singleton]
    refine List.map_congr_left fun k hk => ?_
    have hk : k < n := List.mem_range.1 hk
    rw [Function.comp, Nat.mul_add_mod_of_lt hk, Nat.mul_comm, Nat.mul_add_div (by omega), Nat.div_eq_of_lt hk, Nat.add_zero]

/-- The counts of a list of steps, added up. -/
theorem tallyAll_eq {α : Type} (l : List (α × Tally)) :
    (tallyAll l).flags = (l.map (·.2)).foldr (fun x f => x.flags ||| f) 0 ∧
      (tallyAll l).sat = ((l.map (·.2)).map (·.sat)).sum ∧ (tallyAll l).flush = ((l.map (·.2)).map (·.flush)).sum := by
  induction l with
  | nil => exact ⟨rfl, rfl, rfl⟩
  | cons x l ih =>
    obtain ⟨flags, sat, flush⟩ := ih
    simp [tallyAll, tallyAdd, flags, sat, flush]

end Sys2Proof.Machine
end

section
/-! The commands of a Dome (04 R83, R90 to R104; 03 R76, R77). -/

namespace Sys2Proof.Machine

variable {s : State} {d : Fin 4} {n : Fin 256} {u : UnitCmd}

/-- Dome n of die d, whose contents are specified, is about to carry out the command u. -/
structure DomeTakes (s : State) (d : Fin 4) (n : Fin 256) (u : UnitCmd) : Prop where
  whole : (cd s d).slewed = false
  cmd : (dome s d n).cmd = some u
  ready : (dome s d n).deferred = false
  idle : (dome s d n).verifying = false

@[simp] theorem setDomBank_doneQ (v : Dome) (b : Bool) (k : Bank) : (setDomBank v b k).doneQ = v.doneQ := by
  cases b <;> rfl

@[simp] theorem setDomBank_cmd (v : Dome) (b : Bool) (k : Bank) : (setDomBank v b k).cmd = v.cmd := by
  cases b <;> rfl

/-! ### The dispatch on the opcode (R90) -/

/-- A command goes to the meaning of its own opcode. -/
theorem domRun_own {k : Nat} {f : UnitCmd → State} (t : DomeTakes s d n u) (opc : cmdOpc u = k) : domRun s d n k f = f u := by
  simp [domRun, t.cmd, t.ready, t.idle, opc]

theorem domDone_eq (t : DomeTakes s d n u) (st : Nat) :
    domDone s d n st = setDome s d n ((dome s d n).ended u (BitVec.ofNat 8 st) 0) :=
  finishCmd_dome st 0 t.whole t.cmd

/-- A command ends on the Dome as it has just been replaced. -/
theorem domDone_setDome {v : Dome} (st : Nat) (whole : (cd s d).slewed = false) (cmd : v.cmd = some u) :
    domDone (setDome s d n v) d n st = setDome s d n (v.ended u (BitVec.ofNat 8 st) 0) := by
  rw [domDone, finishCmd_dome st 0 (setDome_slewed _ whole) (by rw [dome_setDome _ whole, cmd]), dome_setDome _ whole,
    setDome_setDome _ _ whole]

/-- An opcode that no Dome accepts is refused, whichever meaning it is handed to. -/
theorem domRun_unlisted {k : Nat} {f : UnitCmd → State} (t : DomeTakes s d n u) (opc : cmdOpc u = 0 ∨ 4 < cmdOpc u)
    (listed : 1 ≤ k ∧ k ≤ 4) : domRun s d n k f = setDome s d n ((dome s d n).ended u 1 0) := by
  have other : ¬ cmdOpc u = k := by omega
  have refused : cmdOpc u < 1 ∨ 4 < cmdOpc u := by omega
  simp only [domRun, t.cmd, t.ready, t.idle, Bool.or_self, Bool.false_eq_true, if_false, if_neg other, if_pos refused]
  exact domDone_eq t 1

/-! ### PASS (R83, R91) -/

theorem passPairs_eq (v : CDie) (n : Nat) (bk : Bool) (p : PassCmd) :
    passPairs v n bk p =
      (upTo (p.nrow * p.ncol)).map (fun i => passPair v n bk p (p.row0 + i / p.ncol) (p.col0 + i % p.ncol)) := by
  rw [passPairs, countFrom_eq_map p.row0, countFrom_eq_map p.col0, List.flatMap_map]
  simp only [List.map_map]
  exact flatMap_upTo_map p.nrow p.ncol fun b c => passPair v n bk p (p.row0 + b) (p.col0 + c)

theorem bankBase_eq (n : Nat) (b : Bool) : bankBase n b = n * 0x20000 + (if b then 0x10000 else 0) := by
  cases b <;> rfl

/-- The tree sum of a PASS over row block i and column j of the block it is given (R83). -/
def passTree (v : CDie) (n : Nat) (bk : Bool) (p : PassCmd) (i j : Nat) : Nat × Nat × Tally :=
  treeSum ((upTo 64).map (fun k =>
    (⟨shortVal p.fmt (vByte v (p.aaddr + 64 * i + k)), vByte v (p.ascl + (64 * i + k) / p.ablk)⟩,
      ⟨shortVal .v8 (weightByte v n bk (64 * (p.row0 + i) + k) (p.col0 + j)),
        weightScale v p (64 * (p.row0 + i) + k) (p.col0 + j)⟩)))

theorem passPair_eq (v : CDie) (n : Nat) (bk : Bool) (p : PassCmd) (i j : Nat) :
    passPair v n bk p (p.row0 + i) (p.col0 + j) =
      (⟨p.acc0 + j, p.seg + BitVec.ofNat 16 i, w32 (passTree v n bk p i j).1, w32 (passTree v n bk p i j).2.1, false, n + 1⟩,
        (passTree v n bk p i j).2.2) := by
  simp only [passPair, passTree, Nat.add_sub_cancel_left, ← Nat.add_assoc]

/-- A PASS that nothing refuses changes its Dome, the home Plinth's port and the flags of the Tower with that Plinth's number. -/
theorem passRun_clean (bk : Bool) (p : PassCmd) (t : DomeTakes s d n u) (clean : vaultClean (cd s d)) :
    passRun s d n bk p = putCd s d { cd s d with
      plinths := tabSet (cd s d).plinths (n.val / 32) { plinth s d (n.val / 32) with
        domePort := (plinth s d (n.val / 32)).domePort ++ (passPairs (cd s d) n bk p).map (·.1) },
      towers := tabSet (cd s d).towers (n.val / 32) { tower s d (n.val / 32) with
        flags := (tower s d (n.val / 32)).flags ||| (tallyAll (passPairs (cd s d) n bk p)).flags },
      domes := tabSet (cd s d).domes n ((dome s d n).ended u 0
        (counterWord (tallyAll (passPairs (cd s d) n bk p)).sat (tallyAll (passPairs (cd s d) n bk p)).flush)) } := by
  simp only [passRun, passReads, rdPieces_clean _ _ _ clean, if_true, plFlags]
  rw [finishCmd_dome (u := u)]
  · simp [setPlinth_whole, setTower_whole, setDome_whole, t.whole, dome, tower]
  · simp [setPlinth_whole, setTower_whole, t.whole]
  · simpa [setPlinth_whole, setTower_whole, t.whole, dome] using t.cmd

theorem execPass_rejected (t : DomeTakes s d n u) (opc : cmdOpc u = 1) (bad : passOk u (passFields u) = false) :
    exec (.pass d n) s = .next (setDome s d n ((dome s d n).ended u 1 0)) := by
  show Host.Outcome.next _ = _
  rw [domRun_own t opc, bad]
  exact congrArg _ (domDone_eq t 1)

theorem execPass_noActive (t : DomeTakes s d n u) (opc : cmdOpc u = 1) (ok : passOk u (passFields u) = true)
    (none : activeBank (dome s d n) = none) : exec (.pass d n) s = .next (setDome s d n ((dome s d n).ended u 2 0)) := by
  show Host.Outcome.next _ = _
  rw [domRun_own t opc, if_pos ok, none]
  exact congrArg _ (domDone_eq t 2)

theorem execPass_active (t : DomeTakes s d n u) (opc : cmdOpc u = 1) (ok : passOk u (passFields u) = true) {bk : Bool}
    (active : activeBank (dome s d n) = some bk) : exec (.pass d n) s = .next (passRun s d n bk (passFields u)) := by
  show Host.Outcome.next _ = _
  rw [domRun_own t opc, if_pos ok, active]

theorem activeBank_none {v : Dome} (h0 : v.b0.st ≠ .active) (h1 : v.b1.st ≠ .active) : activeBank v = none := by
  simp [activeBank, h0, h1]

theorem activeBank_some {v : Dome} {b : Bool} (h : (domBank v b).st = .active) (other : (domBank v (!b)).st ≠ .active) :
    activeBank v = some b := by
  cases b <;> simp_all [activeBank, domBank]

/-! ### PROGRAM (R93) -/

theorem bankBusy_iff {k : Bank} : bankBusy k = true ↔ k.st = .prog ∨ k.job ≠ none := by
  simp [bankBusy, Option.isSome_iff_ne_none, or_comm]

theorem bankBusy_false_iff {k : Bank} : bankBusy k = false ↔ k.st ≠ .prog ∧ k.job = none := by
  rw [← Bool.not_eq_true, bankBusy_iff]
  simp [not_or]

/-- The fields of a PROGRAM are in order (Table 4-4). -/
def programOk (u : UnitCmd) : Bool :=
  masksOk [0xF800_0000, mAddr, mAddr, 0, 0, mAll, 0, 0] u.w && inVault (vAddr (wordAt u.w 1)) bankSize
    && inVault (vAddr (wordAt u.w 2)) 32

/-- A bank whose PROGRAM waits for its token. -/
def Bank.awaits (k : Bank) (u : UnitCmd) : Bank :=
  { k with job := some { cmd := u, src := vAddr (wordAt u.w 1), digAt := some (vAddr (wordAt u.w 2)) } }

theorem execProgram_refused (t : DomeTakes s d n u) (opc : cmdOpc u = 2) (ok : programOk u = true)
    (taken : (bankAt s d n (bit (wordAt u.w 0) 27)).st = .active ∨ bankBusy (bankAt s d n (bit (wordAt u.w 0) 27)) = true) :
    exec (.program d n) s = .next (setDome s d n ((dome s d n).ended u 3 0)) := by
  simp only [programOk] at ok
  show Host.Outcome.next _ = _
  rw [domRun_own t opc]
  simp only [ok, Bool.not_true, Bool.false_eq_true, if_false, if_pos taken, domDone_eq t]
  rfl

theorem execProgram_worn (t : DomeTakes s d n u) (opc : cmdOpc u = 2) (ok : programOk u = true)
    (free : ¬ ((bankAt s d n (bit (wordAt u.w 0) 27)).st = .active ∨ bankBusy (bankAt s d n (bit (wordAt u.w 0) 27)) = true))
    (worn : 100000 ≤ (bankAt s d n (bit (wordAt u.w 0) 27)).count) :
    exec (.program d n) s = .next (setDome s d n ((dome s d n).ended u 4 0)) := by
  simp only [programOk] at ok
  show Host.Outcome.next _ = _
  rw [domRun_own t opc]
  simp only [ok, Bool.not_true, Bool.false_eq_true, if_false, if_neg free, ge_iff_le, if_pos worn, domDone_eq t]
  rfl

theorem execProgram_waits (t : DomeTakes s d n u) (opc : cmdOpc u = 2) (ok : programOk u = true)
    (free : ¬ ((bankAt s d n (bit (wordAt u.w 0) 27)).st = .active ∨ bankBusy (bankAt s d n (bit (wordAt u.w 0) 27)) = true))
    (fresh : (bankAt s d n (bit (wordAt u.w 0) 27)).count < 100000) :
    exec (.program d n) s = .next
      { setDome s d n (setDomBank { dome s d n with cmd := none, cmdqWas := none } (bit (wordAt u.w 0) 27)
          ((bankAt s d n (bit (wordAt u.w 0) 27)).awaits u)) with
        tokenWait := s.tokenWait ++ [(d.val, n.val, bit (wordAt u.w 0) 27)] } := by
  simp only [programOk] at ok
  show Host.Outcome.next _ = _
  rw [domRun_own t opc]
  simp only [ok, Bool.not_true, Bool.false_eq_true, if_false, if_neg free, ge_iff_le, if_neg (Nat.not_le.2 fresh), setUnitCmd,
    putBank, dome_setDome _ t.whole, setDome_setDome _ _ t.whole, setDome_tokenWait _ t.whole]
  rfl

/-! ### Tokens (R94, R103) -/

/-- A warning about a Dome of a die that is specified: its record without the log index. -/
theorem warn_dome (kind : Nat) (d5 d6 d7 : Word) (whole : (cd s d).slewed = false) :
    warn s (srcWord s skDome d n) kind d5 d6 d7 = raise s [BitVec.ofNat 32 (3 * 2 ^ 28 + 2 ^ 26 + kind),
      BitVec.ofNat 32 (2 * 2 ^ 24 + s.nld.chip.toNat * 2 ^ 13 + d.val * 2 ^ 9 + n.val), 0, s.tb.extractLsb' 0 32,
      s.tb.extractLsb' 32 32, d5, d6, d7] := by
  have chip := s.nld.chip.isLt
  have source : (srcWord s skDome d n).toNat = 2 * 2 ^ 24 + s.nld.chip.toNat * 2 ^ 13 + d.val * 2 ^ 9 + n.val := by
    rw [srcWord, w32, BitVec.toNat_ofNat, Nat.mod_eq_of_lt] <;> simp only [skDome, ownChip]
    omega
  have die : field (srcWord s skDome d n) 12 9 = d.val := by
    rw [field, source]
    omega
  have told : toldFree s (field (srcWord s skDome d n) 12 9) = false := by
    rw [die, toldFree, whole, Bool.and_false]
  simp only [warn, mkRec, told, Bool.false_eq_true, if_false, sevWarn, source, w32, loWord, hiWord, Nat.zero_mul, Nat.zero_add,
    Nat.one_mul, List.cons_append, List.nil_append]

/-- The state after a token has gone to bank b of a Dome: the bank is in PROG with its count one higher (R94). -/
def granted (s : State) (d : Fin 4) (n : Fin 256) (b : Bool) (rest : List (Nat × Nat × Bool)) : State :=
  { setDome s d n (setDomBank (dome s d n) b
      { domBank (dome s d n) b with st := .prog, count := (domBank (dome s d n) b).count + 1 }) with
    tokenWait := rest, tokenHeld := s.tokenHeld ++ [(d.val, n.val, b)] }

theorem granted_nld (b : Bool) (rest : List (Nat × Nat × Bool)) (whole : (cd s d).slewed = false) :
    (granted s d n b rest).nld = s.nld := by
  rw [granted, setDome_whole _ _ _ _ whole, putCd_nld]

theorem granted_tb (b : Bool) (rest : List (Nat × Nat × Bool)) (whole : (cd s d).slewed = false) :
    (granted s d n b rest).tb = s.tb := by
  rw [granted, setDome_whole _ _ _ _ whole, putCd_tb]

theorem setDome_withTokenWait (v : Dome) (rest : List (Nat × Nat × Bool)) (whole : (cd s d).slewed = false) :
    setDome { s with tokenWait := rest } d n v = { setDome s d n v with tokenWait := rest } := by
  have same : ∀ e, cd { s with tokenWait := rest } e = cd s e := fun _ => rfl
  rw [setDome_whole _ _ _ _ (by rw [same, whole]), setDome_whole _ _ _ _ whole, same]
  fin_cases d <;> rfl

theorem setDome_tokenHeld (v : Dome) (whole : (cd s d).slewed = false) : (setDome s d n v).tokenHeld = s.tokenHeld := by
  rw [setDome_whole _ _ _ _ whole, putCd_tokenHeld]

/-- A token goes to the bank that has waited longest; a count of 95,000 or 100,000 is warned of. -/
theorem execProgramTokenGrant_granted {b : Bool} {rest : List (Nat × Nat × Bool)} (whole : (cd s d).slewed = false)
    (first : s.tokenWait = (d.val, n.val, b) :: rest) (room : s.tokenHeld.length < 32)
    (open_ : s.mstate = .run ∨ (s.mstate = .boot ∧ s.boot.paused = false)) :
    exec .programTokenGrant s = .next (wearWarn (granted s d n b rest) d n b ((domBank (dome s d n) b).count + 1)) := by
  have grant : s.tokenHeld.length < 32 ∧ (s.mstate = .run ∨ (s.mstate = .boot ∧ (!s.boot.paused) = true)) :=
    ⟨room, open_.imp_right fun ⟨m, p⟩ => ⟨m, by rw [p]; rfl⟩⟩
  show Host.Outcome.next _ = _
  simp only [first, if_pos grant, grantBank, putBank, bankAt]
  rw [setDome_withTokenWait _ _ whole]
  simp only [setDome_tokenHeld _ whole]
  rfl

theorem execProgramTokenGrant_withheld
    (h : s.tokenHeld.length ≥ 32 ∨ s.mstate = .halt ∨ s.boot.paused = true ∧ s.mstate = .boot) :
    exec .programTokenGrant s = .next s := by
  have withheld : ¬ (s.tokenHeld.length < 32 ∧ (s.mstate = .run ∨ (s.mstate = .boot ∧ (!s.boot.paused) = true))) := by
    rintro ⟨room, run | ⟨boot, paused⟩⟩
    · simp [run] at h; omega
    · simp [boot] at h; simp at paused; simp [paused] at h; omega
  show Host.Outcome.next _ = _
  cases s.tokenWait with
  | nil => rfl
  | cons t rest => simp only [if_neg withheld]

/-! ### The end of a programming (R93) -/

/-- The bytes and the digest that a programming reads in a clean Vault. -/
theorem jobData_clean {j : PgmJob} {at_ : Nat} (clean : vaultClean (cd s d)) (digest : j.digAt = some at_) :
    jobData s d n j = (some (memBytes 0 (cd s d).vault j.src 65536, memBytes 0 (cd s d).vault at_ 32), s) := by
  simp only [jobData, digest, rdVault_clean _ _ _ clean]
  rfl

theorem execProgramEnd_reads {b good : Bool} {j : PgmJob} {at_ : Nat} (clean : vaultClean (cd s d))
    (job : (domBank (dome s d n) b).job = some j) (prog : (domBank (dome s d n) b).st = .prog) (digest : j.digAt = some at_) :
    exec (.programEnd d n b good) s = .next (programDone s d n b j (memBytes 0 (cd s d).vault j.src 65536)
      (memBytes 0 (cd s d).vault at_ 32) good) := by
  show Host.Outcome.next _ = _
  simp only [bankAt, job, if_pos prog, jobData_clean clean digest]

theorem setDome_freeToken (v : Dome) (b : Bool) (whole : (cd s d).slewed = false) :
    setDome (freeToken s d n b) d n v = freeToken (setDome s d n v) d n b := by
  have same : ∀ e, cd (freeToken s d n b) e = cd s e := fun _ => rfl
  rw [setDome_whole _ _ _ _ (by rw [same, whole]), setDome_whole _ _ _ _ whole, same]
  fin_cases d <;> rfl

/-- A unit's programming gives its token back and is done with; the bank takes its new record. -/
theorem programDone_unit {b : Bool} {j : PgmJob} {k : Bank} (st : Nat) (whole : (cd s d).slewed = false) :
    addDone (freeToken (putBank s d n b k) d n b) (.dome d n) j.cmd st 0 0 =
      freeToken (setDome s d n { setDomBank (dome s d n) b k with
        doneQ := (dome s d n).doneQ ++ [doneOf j.cmd (wordAt j.cmd.w 5) (BitVec.ofNat 8 st) 0] }) d n b := by
  have same : dome (freeToken (putBank s d n b k) d n b) d n = setDomBank (dome s d n) b k :=
    dome_setDome (setDomBank (dome s d n) b k) whole
  rw [addDone_dome, same, setDomBank_doneQ, putBank, setDome_freeToken _ _ (setDome_slewed _ whole), setDome_setDome _ _ whole]

/-- A programming whose cells took every byte and whose bytes have the digest leaves a STANDBY bank. -/
theorem programDone_good {b good : Bool} {j : PgmJob} {bs dg : List Byte} (whole : (cd s d).slewed = false)
    (unit : j.boot = false) (ok : good = true ∧ digest32 bs = dg) :
    programDone s d n b j bs dg good =
      { putCd s d { cd s d with
          domeMem := memPut 0 (cd s d).domeMem (bankBase n b) bs,
          domes := tabSet (cd s d).domes n { setDomBank (dome s d n) b { domBank (dome s d n) b with
              st := .standby, marginLow := false, digest := dg, aged := 0, job := none } with
            doneQ := (dome s d n).doneQ ++ [doneOf j.cmd (wordAt j.cmd.w 5) 0 0] } } with
        tokenHeld := s.tokenHeld.filter (fun t => decide (t ≠ (d.val, n.val, b))) } := by
  have both : (good && decide (digest32 bs = dg)) = true := by simpa using ok
  simp only [programDone, both, unit, if_true, Bool.false_eq_true, if_false, setCd_whole _ _ _ whole]
  rw [programDone_unit _ (by rw [cd_putCd, whole]), freeToken, setDome_whole _ _ _ _ (by rw [cd_putCd, whole])]
  simp only [cd_putCd, putCd_putCd, putCd_tokenHeld, dome, bankAt]
  rfl

/-- Any other leaves the bank FAULT. -/
theorem programDone_bad {b good : Bool} {j : PgmJob} {bs dg : List Byte} (whole : (cd s d).slewed = false)
    (unit : j.boot = false) (job : (domBank (dome s d n) b).job = some j) (bad : ¬ (good = true ∧ digest32 bs = dg)) :
    programDone s d n b j bs dg good =
      { setDome s d n { setDomBank (dome s d n) b { domBank (dome s d n) b with st := .fault, job := none } with
          doneQ := (dome s d n).doneQ ++ [doneOf j.cmd (wordAt j.cmd.w 5) 7 0] } with
        tokenHeld := s.tokenHeld.filter (fun t => decide (t ≠ (d.val, n.val, b))) } := by
  have both : (good && decide (digest32 bs = dg)) = false := by simpa using bad
  have failed : failedJob (bankAt s d n b).job = none := by simp [bankAt, job, failedJob, unit]
  simp only [programDone, both, unit, Bool.false_eq_true, if_false, failed]
  rw [programDone_unit _ whole, freeToken, setDome_tokenHeld _ whole]
  rfl

/-! ### VERIFY (R97, R99) -/

/-- The fields of a VERIFY, and of a SWAP, are in order (Table 4-4). -/
def verifyOk (u : UnitCmd) : Bool :=
  masksOk [0xFC00_0000, 0, mAddr, 0, 0, mAll, 0, 0] u.w && inVault (vAddr (wordAt u.w 2)) 32

def swapOk (u : UnitCmd) : Bool := masksOk [0xF800_0000, 0, 0, 0, 0, mAll, 0, 0] u.w

theorem execVerify_starts (t : DomeTakes s d n u) (opc : cmdOpc u = 3) (ok : verifyOk u = true) :
    exec (.verify d n) s = .next (verifyStart s d n u) := by
  simp only [verifyOk] at ok
  show Host.Outcome.next _ = _
  rw [domRun_own t opc, if_pos ok]

theorem execSwap_starts (t : DomeTakes s d n u) (opc : cmdOpc u = 4) (ok : swapOk u = true) :
    exec (.swap d n) s = .next (swapStart s d n u) := by
  simp only [swapOk] at ok
  show Host.Outcome.next _ = _
  rw [domRun_own t opc, if_pos ok]

/-- A Dome that is not waiting stands as it is when it is said not to wait. -/
theorem DomeTakes.notWaiting (t : DomeTakes s d n u) : { dome s d n with deferred := false } = dome s d n := by
  rw [← t.ready]

theorem verifyStart_busy (busy : bankBusy (bankAt s d n (bit (wordAt u.w 0) 27)) = true) :
    verifyStart s d n u = setDome s d n { dome s d n with deferred := true } := by
  simp only [verifyStart, if_pos busy]

theorem verifyStart_refused (t : DomeTakes s d n u) (free : bankBusy (bankAt s d n (bit (wordAt u.w 0) 27)) = false)
    (bad : (bankAt s d n (bit (wordAt u.w 0) 27)).st = .blank ∨ (bankAt s d n (bit (wordAt u.w 0) 27)).st = .fault) :
    verifyStart s d n u = setDome s d n ((dome s d n).ended u 3 0) := by
  simp only [verifyStart, free, Bool.false_eq_true, if_false, if_pos bad, t.notWaiting]
  exact domDone_setDome 3 t.whole t.cmd

theorem verifyStart_runs (t : DomeTakes s d n u) (free : bankBusy (bankAt s d n (bit (wordAt u.w 0) 27)) = false)
    (good : (bankAt s d n (bit (wordAt u.w 0) 27)).st = .standby ∨ (bankAt s d n (bit (wordAt u.w 0) 27)).st = .active) :
    verifyStart s d n u = setDome s d n { dome s d n with verifying := true } := by
  have fit : ¬ ((bankAt s d n (bit (wordAt u.w 0) 27)).st = .blank ∨ (bankAt s d n (bit (wordAt u.w 0) 27)).st = .fault) := by
    rintro (bad | bad) <;> simp [bad] at good
  have ready : { dome s d n with deferred := false, verifying := true } = { dome s d n with verifying := true } := by
    rw [← t.ready]
  simp only [verifyStart, free, Bool.false_eq_true, if_false, if_neg fit, ready]

/-- The verdict of a comparison, its statuses as bytes (R99, R104). -/
theorem verifyResult_eq (k : Bank) (same margin tight : Bool) :
    ((verifyResult k same margin tight).1, BitVec.ofNat 8 (verifyResult k same margin tight).2) =
      if same then
        (if margin then
          (if tight = true ∧ 2 * k.aged < 7305 * 86400 * 8000 then ({ k with marginLow := false, aged := 0 }, 0)
          else ({ k with marginLow := true }, (6 : Byte)))
        else (k, 0))
      else ({ k with st := .fault }, 5) := by
  have spent : (tight && !halfSpent k) = true ↔ tight = true ∧ 2 * k.aged < 7305 * 86400 * 8000 := by
    simp [halfSpent, retention]
  cases same
  · rfl
  · cases margin
    · rfl
    · by_cases h : (tight && !halfSpent k) = true
      · simp only [verifyResult, h, if_pos (spent.1 h)]
        rfl
      · simp only [verifyResult, h, if_neg (mt spent.2 h)]
        rfl

/-- A comparison ends in a clean Vault: the bank's new record and the status go into the Dome. -/
theorem execVerifyEnd_ends (tight : Bool) (whole : (cd s d).slewed = false) (clean : vaultClean (cd s d))
    (cmd : (dome s d n).cmd = some u) (runs : (dome s d n).verifying = true) :
    exec (.verifyEnd d n tight) s = .next (setDome s d n (Dome.ended { setDomBank (dome s d n) (bit (wordAt u.w 0) 27)
        (verifyResult (bankAt s d n (bit (wordAt u.w 0) 27)) (decide (digest32 (bankBytes s d n (bit (wordAt u.w 0) 27)) =
          memBytes 0 (cd s d).vault (vAddr (wordAt u.w 2)) 32)) (bit (wordAt u.w 0) 26) tight).1 with verifying := false } u
        (BitVec.ofNat 8 (verifyResult (bankAt s d n (bit (wordAt u.w 0) 27)) (decide (digest32
          (bankBytes s d n (bit (wordAt u.w 0) 27)) = memBytes 0 (cd s d).vault (vAddr (wordAt u.w 2)) 32))
          (bit (wordAt u.w 0) 26) tight).2) 0)) := by
  show Host.Outcome.next _ = _
  simp only [cmd, runs, if_true, rdVault_clean _ _ _ clean, domDone, putBank, dome_setDome _ whole, setDome_setDome _ _ whole]
  rw [finishCmd_dome _ _ (setDome_slewed _ whole) (by rw [dome_setDome _ whole, setDomBank_cmd, cmd]), dome_setDome _ whole,
    setDome_setDome _ _ whole]

/-! ### SWAP (R98) -/

/-- A standby bank whose Dome programs nothing is made ACTIVE: the other one where a bank is ACTIVE, the selected one of two. -/
theorem swapTo_ready {v : Dome} {x : Bool} (ready : (domBank v x).st = .standby) (free : bankBusy (domBank v x) = false)
    (other : bankBusy (domBank v (!x)) = false) (sel : (domBank v (!x)).st = .standby → v.sel = x) :
    swapTo v = some (some x) := by
  by_cases active : (domBank v (!x)).st = .active
  · have a : activeBank v = some (!x) := activeBank_some active (by simp [ready])
    simp [swapTo, a, free, ready]
  · have none : activeBank v = none := by cases x <;> exact activeBank_none (by simp_all [domBank]) (by simp_all [domBank])
    by_cases both : (domBank v (!x)).st = .standby
    · cases x <;> simp_all [swapTo, domBank]
    · cases x <;> simp_all [swapTo, domBank]

/-- With no bank in STANDBY and none being programmed a SWAP is refused. -/
theorem swapTo_refused {v : Dome} (free : ∀ b, bankBusy (domBank v b) = false) (bare : ∀ b, (domBank v b).st ≠ .standby) :
    swapTo v = some none := by
  have f0 : bankBusy v.b0 = false := free false
  have f1 : bankBusy v.b1 = false := free true
  have s0 : v.b0.st ≠ .standby := bare false
  have s1 : v.b1.st ≠ .standby := bare true
  unfold swapTo
  split
  · simp [free, bare]
  · simp [f0, f1, s0, s1]

/-- A bank that is being programmed and is not ACTIVE holds a SWAP back. -/
theorem swapTo_waits {v : Dome} {x : Bool} (busy : bankBusy (domBank v x) = true) (idle : (domBank v x).st ≠ .active) :
    swapTo v = none := by
  cases a : activeBank v with
  | none => cases x <;> simp_all [swapTo, domBank]
  | some b =>
    have b_ne : b = !x := by
      cases b <;> cases x <;> simp_all [activeBank, domBank]
    simp [swapTo, a, b_ne, busy]

/-- Making a bank ACTIVE, whichever of the two is written first. -/
theorem makeActive_eq (v : Dome) (x : Bool) : makeActive v x =
    setDomBank (setDomBank v x { domBank v x with st := .active }) (!x) { domBank v (!x) with
      st := if (domBank v (!x)).st = .active then .standby else (domBank v (!x)).st } := by
  cases x <;> simp only [makeActive, setDomBank, domBank, Bool.not_true, Bool.not_false, if_true, Bool.false_eq_true, if_false] <;>
    split <;> simp_all

/-- A Dome after the SWAP u has made bank x ACTIVE; bit 27 keeps the choice. -/
def Dome.swapped (v : Dome) (u : UnitCmd) (x : Bool) : Dome :=
  { makeActive v x with deferred := false, sel := if bit (wordAt u.w 0) 27 then x else v.sel }

theorem Dome.swapped_eq {v : Dome} (u : UnitCmd) (x : Bool) (ready : v.deferred = false) : v.swapped u x =
    { setDomBank (setDomBank v x { domBank v x with st := .active }) (!x) { domBank v (!x) with
        st := if (domBank v (!x)).st = .active then .standby else (domBank v (!x)).st } with
      sel := if bit (wordAt u.w 0) 27 then x else v.sel } := by
  rw [Dome.swapped, makeActive_eq]
  cases x <;> simp [setDomBank, ready]

theorem swapStart_waits (goes : swapTo (dome s d n) = none) :
    swapStart s d n u = setDome s d n { dome s d n with deferred := true } := by
  simp only [swapStart, goes]

theorem swapStart_refused (goes : swapTo (dome s d n) = some none) :
    swapStart s d n u = domDone (setDome s d n { dome s d n with deferred := false }) d n 3 := by
  simp only [swapStart, goes]

theorem swapStart_swaps {x : Bool} (goes : swapTo (dome s d n) = some (some x)) :
    swapStart s d n u = domDone (setDome s d n ((dome s d n).swapped u x)) d n 0 := by
  have kept : (makeActive (dome s d n) x).sel = (dome s d n).sel := by cases x <;> rfl
  simp only [swapStart, goes, Dome.swapped]
  split
  · rfl
  · rw [← kept]

/-! ### A command that waited (R97) -/

/-- A Dome whose command u waits for programming. -/
structure DomeWaits (s : State) (d : Fin 4) (n : Fin 256) (u : UnitCmd) : Prop where
  whole : (cd s d).slewed = false
  cmd : (dome s d n).cmd = some u
  waits : (dome s d n).deferred = true
  idle : (dome s d n).verifying = false

/-- Once its wait is over, the command is one that is about to be carried out. -/
theorem DomeWaits.takes (t : DomeWaits s d n u) : DomeTakes (setDome s d n { dome s d n with deferred := false }) d n u where
  whole := setDome_slewed _ t.whole
  cmd := by rw [dome_setDome _ t.whole, t.cmd]
  ready := by rw [dome_setDome _ t.whole]
  idle := by rw [dome_setDome _ t.whole, t.idle]

/-- A SWAP takes no notice of whether it has waited. -/
theorem swapStart_again (whole : (cd s d).slewed = false) :
    swapStart (setDome s d n { dome s d n with deferred := false }) d n u = swapStart s d n u := by
  have now := dome_setDome (n := n) { dome s d n with deferred := false } whole
  have choice : swapTo (dome (setDome s d n { dome s d n with deferred := false }) d n) = swapTo (dome s d n) := by
    rw [now]; rfl
  cases goes : swapTo (dome s d n) with
  | none =>
    rw [swapStart_waits goes, swapStart_waits (choice.trans goes), now, setDome_setDome _ _ whole]
  | some o =>
    cases o with
    | none => rw [swapStart_refused goes, swapStart_refused (choice.trans goes), now, setDome_setDome _ _ whole]
    | some x =>
      have same : Dome.swapped { dome s d n with deferred := false } u x = (dome s d n).swapped u x := by cases x <;> rfl
      rw [swapStart_swaps goes, swapStart_swaps (choice.trans goes), now, setDome_setDome _ _ whole, same]

/-- Nor does a VERIFY. -/
theorem verifyStart_again (whole : (cd s d).slewed = false) :
    verifyStart (setDome s d n { dome s d n with deferred := false }) d n u = verifyStart s d n u := by
  simp only [verifyStart, domDone, bankAt, dome_setDome _ whole, setDome_setDome _ _ whole]
  rfl

theorem execDomeDeferredResume_swap (t : DomeWaits s d n u) (opc : cmdOpc u = 4) (ok : swapOk u = true) :
    exec (.domeDeferredResume d n) s = exec (.swap d n) (setDome s d n { dome s d n with deferred := false }) := by
  rw [execSwap_starts t.takes opc ok, swapStart_again t.whole]
  show Host.Outcome.next _ = _
  simp only [t.cmd, t.waits, if_true, if_pos opc]

theorem execDomeDeferredResume_verify (t : DomeWaits s d n u) (opc : cmdOpc u = 3) (ok : verifyOk u = true) :
    exec (.domeDeferredResume d n) s = exec (.verify d n) (setDome s d n { dome s d n with deferred := false }) := by
  have other : ¬ cmdOpc u = 4 := by omega
  rw [execVerify_starts t.takes opc ok, verifyStart_again t.whole]
  show Host.Outcome.next _ = _
  simp only [t.cmd, t.waits, if_true, if_neg other]

end Sys2Proof.Machine

open Sys2Proof Sys2Proof.Machine in
/-- Settles O35: a case for each command and each outcome; a PASS is its list of pairs, and a token's warning the record it raises. -/
theorem domeCommands : Obligations.DomeCommands := by
  unfold Obligations.DomeCommands
  intro s d n whole noErr notClearing c v
  have clean : vaultClean (cd s d) := ⟨noErr, notClearing⟩
  refine ⟨fun u cmd ready idle => ?_, fun u cmd waits idle => ?_, fun u tight cmd runs => ?_,
    fun b good j at_ job prog unit digest => ?_, fun b rest first room open_ => ?_, execProgramTokenGrant_withheld⟩
  · have t : DomeTakes s d n u := ⟨whole, cmd, ready, idle⟩
    intro opc b fin
    refine ⟨fun unlisted => ?_, execPass_rejected t, fun opc ok h0 h1 => execPass_noActive t opc ok (activeBank_none h0 h1),
      ?_, ?_, ?_, ?_⟩
    · have refused := fun k f (listed : 1 ≤ k ∧ k ≤ 4) =>
        congrArg (Host.Outcome.next (φ := Fault) (ρ := Refusal)) (domRun_unlisted (k := k) (f := f) t unlisted listed)
      simp only [List.forall_mem_cons]
      exact ⟨refused 1 _ (by decide), refused 2 _ (by decide), refused 3 _ (by decide), refused 4 _ (by decide),
        fun _ none => absurd none List.not_mem_nil⟩
    · intro opc ok bk active other p h weight wscale tree counts pair
      have run := execPass_active t opc ok (activeBank_some active other)
      have trees : ∀ i, passTree c n bk p (i / p.ncol) (i % p.ncol) = tree i := fun i => by
        simp only [passTree, weightByte, bankBase_eq]
        rfl
      have each : ∀ i, passPair c n bk p (p.row0 + i / p.ncol) (p.col0 + i % p.ncol) = (pair i, (tree i).2.2) := fun i => by
        rw [passPair_eq, trees]
      have pairs : passPairs c n bk p = (upTo (p.nrow * p.ncol)).map fun i => (pair i, (tree i).2.2) := by
        rw [passPairs_eq]
        exact List.map_congr_left fun i _ => each i
      obtain ⟨flags, sat, flush⟩ := tallyAll_eq (passPairs c n bk p)
      have seconds : (passPairs c n bk p).map (·.2) = counts := by rw [pairs, List.map_map]; rfl
      have firsts : (passPairs c n bk p).map (·.1) = (upTo (p.nrow * p.ncol)).map pair := by rw [pairs, List.map_map]; rfl
      rw [seconds] at flags sat flush
      rw [passRun_clean _ _ t clean, flags, sat, flush, firsts] at run
      refine ⟨_, run, by rw [cd_putCd], by rw [cd_putCd], fun j => ?_, fun j => ?_, fun j ne => ?_, ?_⟩
      · simp only [dome, cd_putCd, tabGet_tabSet]
        rfl
      · simp only [plinth, cd_putCd, tabGet_tabSet]
        rfl
      · simp only [tower, cd_putCd]
        exact tabGet_tabSet_ne _ _ _ ne
      · simp only [tower, cd_putCd]
        exact tabGet_tabSet_same _ _ _ _
    · intro opc masks src dig k
      have ok : programOk u = true := by
        simp only [programOk, inVault, Bool.and_eq_true, decide_eq_true_eq]
        exact ⟨⟨masks, src⟩, dig⟩
      have taken : (bankAt s d n b).st = .active ∨ bankBusy (bankAt s d n b) = true ↔
          k.st = .active ∨ k.st = .prog ∨ k.job ≠ none :=
        or_congr_right bankBusy_iff
      refine ⟨fun h => execProgram_refused t opc ok (taken.2 h), fun active prog free => ?_⟩
      have open_ := mt taken.1 (by simp [active, prog, free])
      exact ⟨execProgram_worn t opc ok open_, execProgram_waits t opc ok open_⟩
    · intro opc masks dig k
      have ok : verifyOk u = true := by
        simp only [verifyOk, inVault, Bool.and_eq_true, decide_eq_true_eq]
        exact ⟨masks, dig⟩
      rw [execVerify_starts t opc ok]
      refine ⟨fun busy => congrArg _ (verifyStart_busy (bankBusy_iff.2 busy)), fun bad free => ?_, fun good free => ?_⟩
      · refine congrArg _ (verifyStart_refused t (bankBusy_false_iff.2 ⟨?_, free⟩) bad)
        exact fun prog => bad.elim (fun h => nomatch prog.symm.trans h) fun h => nomatch prog.symm.trans h
      · refine congrArg _ (verifyStart_runs t (bankBusy_false_iff.2 ⟨?_, free⟩) good)
        exact fun prog => good.elim (fun h => nomatch prog.symm.trans h) fun h => nomatch prog.symm.trans h
    · intro opc ok busy standing
      rw [execSwap_starts t opc ok]
      refine ⟨fun x standby free other sel => ?_, fun f0 f1 bare => ?_, fun x held idle => ?_⟩
      · have goes := swapTo_ready standby (bankBusy_false_iff.2 (by simpa [busy] using free))
          (bankBusy_false_iff.2 (by simpa [busy] using other)) sel
        have swapped := Dome.swapped_eq u x ready
        have kept : (v.swapped u x).cmd = some u := by rw [swapped, setDomBank_cmd, setDomBank_cmd, cmd]
        rw [swapStart_swaps goes, domDone_setDome 0 whole kept]
        refine congrArg _ (congrArg (setDome s d n) ?_)
        show Dome.ended (v.swapped u x) u 0 0 = _
        simp only [swapped, Dome.ended, setDomBank_doneQ]
        rfl
      · have goes : swapTo v = some none := swapTo_refused
          (Bool.forall_bool.2 ⟨bankBusy_false_iff.2 (by simpa [busy] using f0), bankBusy_false_iff.2 (by simpa [busy] using f1)⟩)
          (Bool.forall_bool.2 bare)
        rw [swapStart_refused goes, t.notWaiting, domDone_setDome 3 whole t.cmd]
        rfl
      · rw [swapStart_waits (swapTo_waits (bankBusy_iff.2 held) idle)]
  · exact ⟨execDomeDeferredResume_swap ⟨whole, cmd, waits, idle⟩, fun opc masks dig =>
      execDomeDeferredResume_verify ⟨whole, cmd, waits, idle⟩ opc (by
        simp only [verifyOk, inVault, Bool.and_eq_true, decide_eq_true_eq]
        exact ⟨masks, dig⟩)⟩
  · intro b k same r
    have bytes : bankBytes s d n b = memBytes 0 c.domeMem (n.val * 0x20000 + (if b then 0x10000 else 0)) 65536 := by
      rw [bankBytes, bankBase_eq]
      rfl
    rw [execVerifyEnd_ends tight whole clean cmd runs, bytes]
    refine congrArg _ (congrArg (setDome s d n) ?_)
    have verdict : _ = r := verifyResult_eq k same (bit (wordAt u.w 0) 26) tight
    rw [← verdict]
    simp only [Dome.ended, setDomBank_doneQ]
    rfl
  · intro k bs dg fin held
    rw [execProgramEnd_reads clean job prog digest]
    split
    · rename_i ok
      rw [programDone_good whole unit ok, bankBase_eq]
      rfl
    · rename_i bad
      rw [programDone_bad whole unit job bad]
      rfl
  · intro k u w
    have die : (cd (granted s d n b rest) d).slewed = false := setDome_slewed _ whole
    have warned := fun kind x y => warn_dome (n := n) kind x y 0 die
    have bank : w32 (b2n b) = if b then 1 else 0 := by cases b <;> rfl
    have wear : k.count + 1 = 95000 ↔ k.count = 94999 := by omega
    have worn : k.count + 1 = 100000 ↔ k.count = 99999 := by omega
    rw [execProgramTokenGrant_granted whole first room open_, wearWarn, warned, warned]
    simp only [granted_nld b rest whole, granted_tb b rest whole, bank]
    refine congrArg _ ?_
    show (if k.count + 1 = 95000 then _ else if k.count + 1 = 100000 then _ else _) = _
    simp only [wear, worn]
    rfl
end

section
/-! The MUL of a Tower (05 R108, R109, R127, R128, R130; 03 R61; 04 R85; 07 R170). -/

namespace Sys2Proof.Machine

variable {s : State}

/-! ### Free values drawn for a unit of a die -/

theorem putCd_withFree (d : Nat) (c : CDie) (k : Nat) : putCd { s with free := k } d c = { putCd s d c with free := k } := by
  unfold putCd
  split <;> rfl

theorem setTower_withFree {d n : Nat} (v : Tower) (k : Nat) (whole : (cd s d).slewed = false) :
    setTower { s with free := k } d n v = { setTower s d n v with free := k } := by
  rw [setTower_whole { s with free := k } d n v whole, setTower_whole s d n v whole, putCd_withFree]
  rfl

theorem setPlinth_withFree {d n : Nat} (v : Plinth) (k : Nat) (whole : (cd s d).slewed = false) :
    setPlinth { s with free := k } d n v = { setPlinth s d n v with free := k } := by
  rw [setPlinth_whole { s with free := k } d n v whole, setPlinth_whole s d n v whole, putCd_withFree]
  rfl

/-- A Tower's wait is counted by a free value (R112, R132). -/
theorem towerWaits_eq {d n : Nat} (whole : (cd s d).slewed = false) :
    towerWaits s d n = { setTower s d n { tower s d n with
      wait := satAdd (tower s d n).wait (Config.freeWord s.free).toNat } with free := s.free + 1 } :=
  setTower_withFree _ (s.free + 1) whole

/-! ### The exact sum of int8 products (R61) -/

theorem signed_eight (n : Nat) : signed 8 n = (BitVec.ofNat 8 n).toInt := by
  rw [BitVec.toInt_eq_toNat_cond, BitVec.toNat_ofNat, signed]
  by_cases low : n % 2 ^ 8 < 2 ^ (8 - 1)
  · rw [if_pos low, if_pos (by omega)]
  · rw [if_neg low, if_neg (by omega)]

theorem intTree_eq (l : List (Nat × Nat)) :
    intTree l = (l.map fun p => (BitVec.ofNat 8 p.1).toInt * (BitVec.ofNat 8 p.2).toInt).sum := by
  induction l with
  | nil => rfl
  | cons p l ih => rw [intTree, ih, signed_eight, signed_eight]; rfl

/-! ### The pairs in the order of the steps (R109) -/

theorem mulPairs_eq (v : CDie) (c : MulCmd) :
    mulPairs v c =
      (upTo (c.nkb * (c.m * c.n))).map (fun i => mulPair v c (i / (c.m * c.n)) (i / c.n % c.m) (i % c.n)) := by
  have rows := fun b => flatMap_upTo_map c.m c.n (mulPair v c b)
  rw [mulPairs]
  simp only [rows]
  rw [flatMap_upTo_map c.nkb (c.m * c.n) fun b k => mulPair v c b (k / c.n) (k % c.n)]
  simp only [Nat.mod_mul_left_div_self, Nat.mod_mul_left_mod]

/-- The tree sum of row m and column j over block b (R108). -/
def mulTree (v : CDie) (c : MulCmd) (b m j : Nat) : Nat × Nat × Tally :=
  treeSum ((upTo 64).map (fun k => (⟨shortVal c.af (mulA v c m (64 * b + k)), mulAs v c m (64 * b + k)⟩,
    ⟨shortVal c.bf (mulB v c (64 * b + k) j), mulBs v c (64 * b + k) j⟩)))

theorem mulPair_int {c : MulCmd} (v : CDie) (b m j : Nat) (int : c.af = .i8) : mulPair v c b m j =
    (⟨(c.row + m) * 64 + j, c.seg + BitVec.ofNat 16 b, BitVec.ofInt 32 ((upTo 64).map (fun k =>
      (BitVec.ofNat 8 (mulA v c m (64 * b + k))).toInt * (BitVec.ofNat 8 (mulB v c (64 * b + k) j)).toInt)).sum, 0, true, 0⟩,
      {}) := by
  simp only [mulPair, if_pos int, intTree_eq, countFrom_eq_map (64 * b), List.map_map]
  rfl

theorem mulPair_fp {c : MulCmd} (v : CDie) (b m j : Nat) (fp : ¬ c.af = .i8) : mulPair v c b m j =
    (⟨(c.row + m) * 64 + j, c.seg + BitVec.ofNat 16 b, w32 (mulTree v c b m j).1, w32 (mulTree v c b m j).2.1, false, 0⟩,
      (mulTree v c b m j).2.2) := by
  simp only [mulPair, if_neg fp, mulTree, countFrom_eq_map (64 * b), List.map_map]
  rfl

/-! ### Refusals (R130) -/

variable {d : Fin 4} {n : Fin 8} {u : UnitCmd} {c : MulCmd}

theorem mem_countFrom {a n r : Nat} : r ∈ countFrom a n ↔ a ≤ r ∧ r < a + n := by
  rw [countFrom_eq_range', List.mem_range'_1]

theorem mulMode_iff {p : Plinth} :
    mulMode p c = true ↔ ∀ r, c.row ≤ r → r < c.row + c.m → rowIsInt p r = decide (c.af = .i8) := by
  simp [mulMode, mem_countFrom]

theorem mulWaits_iff {p : Plinth} :
    mulWaits p c = true ↔ c.clear = true ∧ ∃ r, c.row ≤ r ∧ r < c.row + c.m ∧ rowsRead p r = true := by
  simp [mulWaits, mem_countFrom, and_assoc]

/-- A MUL that is refused ends with its status. -/
theorem execTowerMul_refused (whole : (cd s d).slewed = false) (cmd : (tower s d n).cmd = some u) {st : Nat}
    (status : mulStatus s d n u = st) (bad : st ≠ 0) :
    exec (.towerMul d n) s = .next (setTower s d n ((tower s d n).ended u (BitVec.ofNat 8 st) 0)) := by
  show Host.Outcome.next _ = _
  simp only [cmd, status, if_neg bad, finishCmd_tower st 0 whole cmd]
  split <;> rfl

theorem execTowerMul_runs (cmd : (tower s d n).cmd = some u) (fields : mulFields u = some c) (status : mulStatus s d n u = 0) :
    exec (.towerMul d n) s = .next (mulRun s d n c) := by
  show Host.Outcome.next _ = _
  simp only [cmd, fields, status, if_true]

theorem mulStatus_unlisted (fields : mulFields u = none) : mulStatus s d n u = 1 := by
  simp only [mulStatus, fields]

theorem mulStatus_rejected (fields : mulFields u = some c) (bad : mulOk u c = false) : mulStatus s d n u = 1 := by
  simp [mulStatus, fields, bad]

theorem mulStatus_mixed (fields : mulFields u = some c) (ok : mulOk u c = true) (mixed : ¬ (c.af = .i8 ↔ c.bf = .i8)) :
    mulStatus s d n u = 8 := by
  have differ : (decide (c.af = .i8) != decide (c.bf = .i8)) = true := by simpa [← decide_eq_decide] using mixed
  simp [mulStatus, fields, ok, differ]

theorem mulStatus_mode (fields : mulFields u = some c) (ok : mulOk u c = true) (alike : c.af = .i8 ↔ c.bf = .i8)
    (clear : c.clear = false) (mode : mulMode (plinth s d n) c = false) : mulStatus s d n u = 9 := by
  simp [mulStatus, fields, ok, decide_eq_decide.2 alike, clear, mode]

theorem mulStatus_ok (fields : mulFields u = some c) (ok : mulOk u c = true) (alike : c.af = .i8 ↔ c.bf = .i8)
    (fit : c.clear = true ∨ mulMode (plinth s d n) c = true) : mulStatus s d n u = 0 := by
  obtain clear | mode := fit
  · simp [mulStatus, fields, ok, decide_eq_decide.2 alike, clear]
  · simp [mulStatus, fields, ok, decide_eq_decide.2 alike, mode]

/-! ### A MUL that runs -/

/-- The Plinth of a MUL that sets its rows where it clears them. -/
def mulCleared (p : Plinth) (c : MulCmd) : Plinth :=
  if c.clear then setMode (clearAccs p c.row c.m c.n) c.row c.m (decide (c.af = .i8)) else p

theorem mulCleared_towerPort (p : Plinth) (c : MulCmd) : (mulCleared p c).towerPort = p.towerPort := by
  unfold mulCleared
  split <;> rfl

/-- A MUL that nothing refuses or holds back changes its Tower and the Plinth under it. -/
theorem mulRun_clean (whole : (cd s d).slewed = false) (clean : vaultClean (cd s d)) (cmd : (tower s d n).cmd = some u)
    (goes : mulWaits (plinth s d n) c = false) :
    mulRun s d n c = putCd s d { cd s d with
      plinths := tabSet (cd s d).plinths n { mulCleared (plinth s d n) c with
        towerPort := (plinth s d n).towerPort ++ (mulPairs (cd s d) c).map (·.1) },
      towers := tabSet (cd s d).towers n (Tower.ended { tower s d n with
          flags := (tower s d n).flags ||| (tallyAll (mulPairs (cd s d) c)).flags } u 0
        (counterWord (tallyAll (mulPairs (cd s d) c)).sat (tallyAll (mulPairs (cd s d) c)).flush)) } := by
  have port := mulCleared_towerPort (plinth s d n) c
  simp only [mulCleared] at port
  simp only [mulRun, goes, Bool.false_eq_true, if_false, mulReads, rdPieces_clean _ _ _ clean, if_true, plFlags, mulCleared, port]
  rw [finishCmd_tower (u := u)]
  · simp [setPlinth_whole, setTower_whole, whole, tower]
  · simp [setPlinth_whole, setTower_whole, whole]
  · simpa [setPlinth_whole, setTower_whole, whole, tower] using cmd

end Sys2Proof.Machine
end

section
/-! A Plinth's intake of pairs (05 R110 to R112, R114, R119; 04 R84, R85; 02 R39). -/

namespace Sys2Proof.Machine

/-! ### The turn of a port's sources (02 R39; 04 R84) -/

theorem nextInput_mem (last : Nat) {ks : List Nat} (ne : ks ≠ []) : nextInput last ks ∈ ks := by
  unfold nextInput
  split
  · rename_i k h
    exact (List.mem_filter.1 (List.min?_mem h)).1
  · cases h : ks.min? with
    | none => exact absurd (List.min?_eq_none_iff.1 h) ne
    | some k => exact List.min?_mem h

/-- The port after a turn: the first pair of the source whose turn it is comes to the head, and no other changes places. -/
theorem nextTurn_eq (last : Nat) {l : List Pair} (ne : l ≠ []) : ∃ pre y post, l = pre ++ y :: post ∧
    y.src = nextInput last (l.map (·.src)) ∧ (∀ x ∈ pre, x.src ≠ y.src) ∧ nextTurn last l = y :: (pre ++ post) := by
  have source : nextInput last (l.map (·.src)) ∈ l.map (·.src) := nextInput_mem last (by simpa using ne)
  obtain ⟨z, hz, turn⟩ := List.mem_map.1 source
  cases found : l.find? (fun y => decide (y.src = nextInput last (l.map (·.src)))) with
  | none => exact absurd (decide_eq_true turn) (by simpa using List.find?_eq_none.1 found z hz)
  | some y =>
    obtain ⟨own, pre, post, split, before⟩ := List.find?_eq_some_iff_append.1 found
    have own : y.src = nextInput last (l.map (·.src)) := of_decide_eq_true own
    have others : ∀ x ∈ pre, x.src ≠ y.src := fun x hx same => by simpa [← own, same] using before x hx
    refine ⟨pre, y, post, split, own, others, ?_⟩
    have fresh : y ∉ pre := fun h => others y h rfl
    simp only [nextTurn, found]
    rw [split, List.erase_append_right _ fresh, List.erase_cons_head]

/-- Each source keeps its own order. -/
theorem nextTurn_filter (last : Nat) (l : List Pair) (k : Nat) :
    (nextTurn last l).filter (fun y => decide (y.src = k)) = l.filter (fun y => decide (y.src = k)) := by
  by_cases ne : l = []
  · subst ne; rfl
  · obtain ⟨pre, y, post, split, -, others, turn⟩ := nextTurn_eq last ne
    rw [turn, split]
    by_cases own : y.src = k
    · have none : pre.filter (fun z => decide (z.src = k)) = [] :=
        List.filter_eq_nil_iff.2 fun z hz => by simpa [← own] using others z hz
      simp [own, none]
    · simp [own]

theorem nextTurn_head (last : Nat) (l : List Pair) :
    (nextTurn last l).head?.map (·.src) = if l = [] then none else some (nextInput last (l.map (·.src))) := by
  by_cases ne : l = []
  · subst ne; rfl
  · obtain ⟨pre, y, post, -, own, -, turn⟩ := nextTurn_eq last ne
    rw [turn, if_neg ne, ← own]
    rfl

/-! ### What the intake sees of a Plinth -/

/-- The Plinth once the pair x has left the head of its port. -/
def afterTurn (p : Plinth) (tow : Bool) (x : Pair) (rest : List Pair) : Plinth := setPort p tow (nextTurn x.src rest)

section
variable (p : Plinth) (tow : Bool) (x : Pair) (rest : List Pair)

@[simp] theorem afterTurn_held : (afterTurn p tow x rest).held = p.held := by cases tow <;> rfl
@[simp] theorem afterTurn_acc : (afterTurn p tow x rest).acc = p.acc := by cases tow <;> rfl
@[simp] theorem afterTurn_foldflush : (afterTurn p tow x rest).foldflush = p.foldflush := by cases tow <;> rfl
@[simp] theorem acc_afterTurn (i : Nat) : acc (afterTurn p tow x rest) i = acc p i := by cases tow <;> rfl
@[simp] theorem rowIsInt_afterTurn (r : Nat) : rowIsInt (afterTurn p tow x rest) r = rowIsInt p r := by cases tow <;> rfl
@[simp] theorem rowsRead_afterTurn (r : Nat) : rowsRead (afterTurn p tow x rest) r = rowsRead p r := by cases tow <;> rfl
@[simp] theorem pairAgain_afterTurn (y : Pair) : pairAgain (afterTurn p tow x rest) y = pairAgain p y := by cases tow <;> rfl

end

theorem acc_setAcc (p : Plinth) (i j : Nat) (a : Acc) : acc (setAcc p i a) j = if j = i then a else acc p j :=
  tabGet_tabSet _ _ _ _ _

/-! ### A pair folded (R114) -/

variable {s : State} {d n : Nat}

theorem satAdd_zero (c : Word) : satAdd c 0 = c := by
  have := c.isLt
  unfold satAdd
  split
  · exact BitVec.eq_of_toNat_eq (by simp; omega)
  · simp [w32]

/-- A Plinth of a die does not depend on the Towers. -/
theorem plinth_setTower {k : Nat} (v : Tower) (whole : (cd s d).slewed = false) : plinth (setTower s d k v) d n = plinth s d n := by
  simp [plinth, setTower_whole _ _ _ _ whole]

theorem tower_setPlinth {k : Nat} (v : Plinth) (whole : (cd s d).slewed = false) : tower (setPlinth s d k v) d n = tower s d n := by
  simp [tower, setPlinth_whole _ _ _ _ whole]

/-- A Plinth and a Tower replaced, in either order. -/
theorem setPlinth_setTower {k : Nat} (v : Tower) (p : Plinth) (whole : (cd s d).slewed = false) :
    setPlinth (setTower s d k v) d n p = setTower (setPlinth s d n p) d k v := by
  simp [setTower_whole, setPlinth_whole, whole]

theorem plFlags_setPlinth (p : Plinth) (f : TFlags) (whole : (cd s d).slewed = false) : plFlags (setPlinth s d n p) d n f =
    setTower (setPlinth s d n p) d n { tower s d n with flags := (tower s d n).flags ||| f } := by
  rw [plFlags, tower_setPlinth _ whole]

/-- A pair of its row's own mode. -/
theorem foldInto_own {x : Pair} (whole : (cd s d).slewed = false) (own : x.isInt = rowIsInt (plinth s d n) (x.idx / 64)) :
    foldInto s d n x = setTower (setPlinth s d n
        { setAcc (plinth s d n) x.idx (foldAcc (acc (plinth s d n) x.idx) x).1 with
          foldflush := satAdd (plinth s d n).foldflush (foldAcc (acc (plinth s d n) x.idx) x).2.flush }) d n
      { tower s d n with flags := (tower s d n).flags ||| (foldAcc (acc (plinth s d n) x.idx) x).2.flags } := by
  simp only [foldInto, if_pos own]
  exact plFlags_setPlinth _ _ whole

/-- A pair of the other mode leaves free values, and the INV flag (R134). -/
theorem foldInto_other {x : Pair} (whole : (cd s d).slewed = false) (other : x.isInt ≠ rowIsInt (plinth s d n) (x.idx / 64)) :
    foldInto s d n x = { setTower (setPlinth s d n (setAcc (plinth s d n) x.idx
        ⟨Config.freeWord s.free, Config.freeWord (s.free + 1), (acc (plinth s d n) x.idx).next + 1,
          min ((acc (plinth s d n) x.idx).cnt + 1) 65537⟩)) d n
      { tower s d n with flags := (tower s d n).flags ||| fINV } with free := s.free + 2 } := by
  simp only [foldInto, if_neg other, drawWord]
  rw [setPlinth_withFree _ (s.free + 1 + 1) whole, ← setTower_withFree _ _ (setPlinth_slewed _ whole)]
  exact congrArg (setTower _ d n) (by rw [← tower_setPlinth (n := n) _ whole]; rfl)

/-- An accumulator's contents become two free values (04 R85). -/
theorem spoilAcc_eq (i : Nat) (whole : (cd s d).slewed = false) :
    spoilAcc s d n i = { setPlinth s d n { plinth s d n with acc := tabSet (plinth s d n).acc i { acc (plinth s d n) i with
      sum := Config.freeWord s.free, err := Config.freeWord (s.free + 1) } } with free := s.free + 2 } :=
  setPlinth_withFree _ (s.free + 1 + 1) whole

/-- The number of free values that a pair draws when it is folded. -/
theorem foldInto_free {x : Pair} (whole : (cd s d).slewed = false) : (foldInto s d n x).free =
    s.free + (if x.isInt = rowIsInt (plinth s d n) (x.idx / 64) then 0 else 2) := by
  split
  · rename_i own
    rw [foldInto_own whole own, setTower_whole _ _ _ _ (setPlinth_slewed _ whole), setPlinth_whole _ _ _ _ whole]
    simp
  · rename_i other
    rw [foldInto_other whole other]

theorem plinth_foldInto_own {x : Pair} (whole : (cd s d).slewed = false)
    (own : x.isInt = rowIsInt (plinth s d n) (x.idx / 64)) : plinth (foldInto s d n x) d n =
      { setAcc (plinth s d n) x.idx (foldAcc (acc (plinth s d n) x.idx) x).1 with
        foldflush := satAdd (plinth s d n).foldflush (foldAcc (acc (plinth s d n) x.idx) x).2.flush } := by
  rw [foldInto_own whole own, plinth_setTower _ (setPlinth_slewed _ whole), plinth_setPlinth _ whole]

theorem plinth_foldInto_other {x : Pair} (whole : (cd s d).slewed = false)
    (other : x.isInt ≠ rowIsInt (plinth s d n) (x.idx / 64)) : plinth (foldInto s d n x) d n =
      setAcc (plinth s d n) x.idx ⟨Config.freeWord s.free, Config.freeWord (s.free + 1), (acc (plinth s d n) x.idx).next + 1,
        min ((acc (plinth s d n) x.idx).cnt + 1) 65537⟩ := by
  rw [foldInto_other whole other]
  exact (plinth_setTower _ (setPlinth_slewed _ whole)).trans (plinth_setPlinth _ whole)

theorem plinth_spoilAcc (i : Nat) (whole : (cd s d).slewed = false) : plinth (spoilAcc s d n i) d n =
    { plinth s d n with acc := tabSet (plinth s d n).acc i { acc (plinth s d n) i with
      sum := Config.freeWord s.free, err := Config.freeWord (s.free + 1) } } := by
  rw [spoilAcc_eq i whole]
  exact plinth_setPlinth _ whole

/-- What folding a pair does to its Plinth: the pair's accumulator goes on to the next segment, and nothing else changes in the
accumulators and the held pairs. -/
theorem foldInto_plinth {x : Pair} (whole : (cd s d).slewed = false) :
    (cd (foldInto s d n x) d).slewed = false ∧ (plinth (foldInto s d n x) d n).held = (plinth s d n).held ∧
      (∀ i ≠ x.idx, acc (plinth (foldInto s d n x) d n) i = acc (plinth s d n) i) ∧
      (acc (plinth (foldInto s d n x) d n) x.idx).next = (acc (plinth s d n) x.idx).next + 1 ∧
      (acc (plinth (foldInto s d n x) d n) x.idx).cnt = min ((acc (plinth s d n) x.idx).cnt + 1) 65537 := by
  by_cases own : x.isInt = rowIsInt (plinth s d n) (x.idx / 64)
  · have next : (foldAcc (acc (plinth s d n) x.idx) x).1.next = (acc (plinth s d n) x.idx).next + 1 := by
      unfold foldAcc; split <;> rfl
    have cnt : (foldAcc (acc (plinth s d n) x.idx) x).1.cnt = min ((acc (plinth s d n) x.idx).cnt + 1) 65537 := by
      unfold foldAcc; split <;> rfl
    have now := plinth_foldInto_own whole own
    refine ⟨?_, ?_, fun i ne => ?_, ?_, ?_⟩
    · rw [foldInto_own whole own]
      exact setTower_slewed _ (setPlinth_slewed _ whole)
    · rw [now]; rfl
    · rw [now]; exact (acc_setAcc _ _ _ _).trans (if_neg ne)
    · rw [now, ← next]; exact congrArg Acc.next ((acc_setAcc _ _ _ _).trans (if_pos rfl))
    · rw [now, ← cnt]; exact congrArg Acc.cnt ((acc_setAcc _ _ _ _).trans (if_pos rfl))
  · have now := plinth_foldInto_other whole own
    refine ⟨?_, ?_, fun i ne => ?_, ?_, ?_⟩
    · rw [foldInto_other whole own]
      exact setTower_slewed _ (setPlinth_slewed _ whole)
    · rw [now]; rfl
    · rw [now]; exact (acc_setAcc _ _ _ _).trans (if_neg ne)
    · rw [now]; exact congrArg Acc.next ((acc_setAcc _ _ _ _).trans (if_pos rfl))
    · rw [now]; exact congrArg Acc.cnt ((acc_setAcc _ _ _ _).trans (if_pos rfl))

/-- What spoiling an accumulator does to its Plinth. -/
theorem spoilAcc_plinth (i : Nat) (whole : (cd s d).slewed = false) :
    (cd (spoilAcc s d n i) d).slewed = false ∧ (plinth (spoilAcc s d n i) d n).held = (plinth s d n).held ∧
      (∀ j ≠ i, acc (plinth (spoilAcc s d n i) d n) j = acc (plinth s d n) j) ∧
      acc (plinth (spoilAcc s d n i) d n) i = { acc (plinth s d n) i with
        sum := Config.freeWord s.free, err := Config.freeWord (s.free + 1) } := by
  have now := plinth_spoilAcc (n := n) i whole
  refine ⟨?_, by rw [now], fun j ne => ?_, ?_⟩
  · rw [spoilAcc_eq i whole]
    exact setPlinth_slewed _ whole
  · rw [now]; exact tabGet_tabSet_ne _ _ _ ne
  · rw [now]; exact tabGet_tabSet_same _ _ _ _

theorem foldPair_spoiled {x : Pair} (h : accSpoiled (plinth (foldInto s d n x) d n) x.idx = true) :
    foldPair s d n x = spoilAcc (foldInto s d n x) d n x.idx := if_pos h

theorem foldPair_sound {x : Pair} (h : ¬ accSpoiled (plinth (foldInto s d n x) d n) x.idx = true) :
    foldPair s d n x = foldInto s d n x := if_neg h

theorem foldPair_plinth (x : Pair) (whole : (cd s d).slewed = false) :
    (cd (foldPair s d n x) d).slewed = false ∧ (plinth (foldPair s d n x) d n).held = (plinth s d n).held ∧
      ∀ i ≠ x.idx, acc (plinth (foldPair s d n x) d n) i = acc (plinth s d n) i := by
  obtain ⟨slewed, held, others, -, -⟩ := foldInto_plinth (n := n) (x := x) whole
  by_cases spoiled : accSpoiled (plinth (foldInto s d n x) d n) x.idx = true
  · obtain ⟨slewed', held', others', -⟩ := spoilAcc_plinth (n := n) x.idx slewed
    rw [foldPair_spoiled spoiled]
    exact ⟨slewed', held'.trans held, fun i ne => (others' i ne).trans (others i ne)⟩
  · rw [foldPair_sound spoiled]
    exact ⟨slewed, held, others⟩

/-! ### Held pairs that follow (R111) -/

/-- A held pair of accumulator i that is its next. -/
def followsHeld (s : State) (d n i : Nat) (y : Pair) : Bool :=
  decide (y.idx = i) && decide (y.seg = (acc (plinth s d n) i).next)

theorem foldHeld_succ (k i : Nat) :
    foldHeld (k + 1) s d n i = match (plinth s d n).held.find? (followsHeld s d n i) with
      | none => s
      | some x => foldHeld k (foldPair (setPlinth s d n { plinth s d n with held := (plinth s d n).held.erase x }) d n x) d n i := rfl

/-- Where no held pair follows, none is folded. -/
theorem foldHeld_none (k i : Nat) (none : ∀ y ∈ (plinth s d n).held, ¬ (y.idx = i ∧ y.seg = (acc (plinth s d n) i).next)) :
    foldHeld k s d n i = s := by
  cases k with
  | zero => rfl
  | succ k =>
    have found : (plinth s d n).held.find? (followsHeld s d n i) = .none :=
      List.find?_eq_none.2 fun y hy => by simpa [followsHeld] using none y hy
    rw [foldHeld_succ, found]

/-- Folding the held pairs that follow leaves none that follows, and keeps the pairs and the contents of every other accumulator. -/
theorem foldHeld_plinth (k i : Nat) (enough : (plinth s d n).held.length ≤ k) (whole : (cd s d).slewed = false) :
    (∀ y ∈ (plinth (foldHeld k s d n i) d n).held,
      y ∈ (plinth s d n).held ∧ ¬ (y.idx = i ∧ y.seg = (acc (plinth (foldHeld k s d n i) d n) i).next)) ∧
    (∀ y ∈ (plinth s d n).held, y.idx ≠ i → y ∈ (plinth (foldHeld k s d n i) d n).held) ∧
    (∀ j ≠ i, acc (plinth (foldHeld k s d n i) d n) j = acc (plinth s d n) j) := by
  induction k generalizing s with
  | zero =>
    have empty : (plinth s d n).held = [] := List.length_eq_zero_iff.1 (Nat.le_zero.1 enough)
    simp [foldHeld, empty]
  | succ k ih =>
    rw [foldHeld_succ]
    cases found : (plinth s d n).held.find? (followsHeld s d n i) with
    | none =>
      have follows := List.find?_eq_none.1 found
      exact ⟨fun y hy => ⟨hy, by simpa [followsHeld] using follows y hy⟩, fun y hy _ => hy, fun _ _ => rfl⟩
    | some x =>
      have member : x ∈ (plinth s d n).held := List.mem_of_find?_eq_some found
      have idx : x.idx = i := by
        have := List.find?_some found
        simp only [followsHeld, Bool.and_eq_true, decide_eq_true_eq] at this
        exact this.1
      obtain ⟨slewed, held, others⟩ := foldPair_plinth (n := n) x (setPlinth_slewed (n := n)
        { plinth s d n with held := (plinth s d n).held.erase x } whole)
      rw [plinth_setPlinth _ whole] at held others
      have room : (plinth (foldPair (setPlinth s d n { plinth s d n with held := (plinth s d n).held.erase x }) d n x)
          d n).held.length ≤ k := by
        rw [held]
        have := List.length_erase_of_mem member
        simp only [this]
        omega
      obtain ⟨left, kept, same⟩ := ih room slewed
      refine ⟨fun y hy => ?_, fun y hy ne => ?_, fun j ne => (same j ne).trans (others j (idx ▸ ne))⟩
      · obtain ⟨old, follows⟩ := left y hy
        rw [held] at old
        exact ⟨List.mem_of_mem_erase old, follows⟩
      · refine kept y ?_ ne
        rw [held]
        exact (List.mem_erase_of_ne fun same => ne (by rw [same, idx])).2 hy

/-! ### A pair comes in, or waits (R111, R112, R119) -/

theorem accSpoiled_iff {p : Plinth} {i : Nat} :
    accSpoiled p i = true ↔ ∃ y ∈ p.held, y.idx = i ∧ y.seg.toNat < (acc p i).next.toNat := by
  simp [accSpoiled]

theorem pairAgain_iff {p : Plinth} {x : Pair} : pairAgain p x = true ↔
    (∃ y ∈ p.held, y.idx = x.idx ∧ y.seg = x.seg) ∨ x.seg.toNat < (acc p x.idx).next.toNat := by
  simp [pairAgain]

/-- A pair of a row that is read waits, and one to be held with the reorder buffer full. -/
theorem takePair_waits {x : Pair} (h : rowsRead (plinth s d n) (x.idx / 64) = true ∨
      (x.seg ≠ (acc (plinth s d n) x.idx).next ∧ 4096 ≤ (plinth s d n).held.length)) : takePair s d n x = none := by
  unfold takePair
  obtain read | ⟨later, full⟩ := h
  · simp only [read, if_true]
  · simp only [if_neg later, ge_iff_le, if_pos full, ite_self]

/-- The next pair of its accumulator is folded, with the held ones behind it. -/
theorem takePair_next {x : Pair} (free : rowsRead (plinth s d n) (x.idx / 64) = false)
    (next : x.seg = (acc (plinth s d n) x.idx).next) :
    takePair s d n x = some (foldHeld (plinth s d n).held.length (foldPair s d n x) d n x.idx) := by
  simp only [takePair, free, Bool.false_eq_true, if_false, if_pos next]

/-- Any other pair is held. -/
theorem takePair_held {x : Pair} (free : rowsRead (plinth s d n) (x.idx / 64) = false)
    (later : x.seg ≠ (acc (plinth s d n) x.idx).next) (room : (plinth s d n).held.length < 4096) :
    takePair s d n x = some (if pairAgain (plinth s d n) x then
        spoilAcc (setPlinth s d n { plinth s d n with held := (plinth s d n).held ++ [x] }) d n x.idx
      else setPlinth s d n { plinth s d n with held := (plinth s d n).held ++ [x] }) := by
  simp only [takePair, free, Bool.false_eq_true, if_false, if_neg later, ge_iff_le, if_neg (Nat.not_le.2 room)]

/-! ### The command (R111) -/

section
variable {s : State} {d : Fin 4} {n : Fin 8} {tow : Bool} {x : Pair} {rest : List Pair}
variable (whole : (cd s d).slewed = false) (port : portPairs (plinth s d n) tow = x :: rest)

/-- The state once the pair x has left the head of its port. -/
def turned (s : State) (d : Fin 4) (n : Fin 8) (tow : Bool) (x : Pair) (rest : List Pair) : State :=
  setPlinth s d n (afterTurn (plinth s d n) tow x rest)

theorem turned_slewed (tow : Bool) (x : Pair) (rest : List Pair) (whole : (cd s d).slewed = false) :
    (cd (turned s d n tow x rest) d).slewed = false := setPlinth_slewed _ whole

theorem plinth_turned (tow : Bool) (x : Pair) (rest : List Pair) (whole : (cd s d).slewed = false) :
    plinth (turned s d n tow x rest) d n = afterTurn (plinth s d n) tow x rest := plinth_setPlinth _ whole

theorem tower_turned (tow : Bool) (x : Pair) (rest : List Pair) (whole : (cd s d).slewed = false) :
    tower (turned s d n tow x rest) d n = tower s d n := tower_setPlinth _ whole

theorem turned_free (tow : Bool) (x : Pair) (rest : List Pair) (whole : (cd s d).slewed = false) :
    (turned s d n tow x rest).free = s.free := by
  rw [turned, setPlinth_whole _ _ _ _ whole, putCd_free]

theorem setPlinth_turned (p : Plinth) (whole : (cd s d).slewed = false) :
    setPlinth (turned s d n tow x rest) d n p = setPlinth s d n p := setPlinth_setPlinth _ _ whole

/-- The accumulator stands spoiled after the fold exactly where a held pair's segment has been passed. -/
theorem turned_spoiled_iff (tow : Bool) (x : Pair) (rest : List Pair) (whole : (cd s d).slewed = false) :
    accSpoiled (plinth (foldInto (turned s d n tow x rest) d n x) d n) x.idx = true ↔
      ∃ y ∈ (plinth s d n).held, y.idx = x.idx ∧ y.seg.toNat < ((acc (plinth s d n) x.idx).next + 1).toNat := by
  obtain ⟨-, held, -, step, -⟩ := foldInto_plinth (n := n) (x := x) (turned_slewed (n := n) tow x rest whole)
  rw [plinth_turned tow x rest whole, afterTurn_held] at held
  rw [plinth_turned tow x rest whole, acc_afterTurn] at step
  rw [accSpoiled_iff, held, step]

include port in
theorem execIntake_some {t : State} (taken : takePair (turned s d n tow x rest) d n x = some t) :
    exec (.plinthPairIntake d n tow) s = .next t := by
  have port' : takePort s d n tow = some t := by
    rw [← taken, takePort, port]
    rfl
  show Host.Outcome.next _ = _
  rw [port']

include whole port

/-- A pair of a row that is read waits, and one to be held with the reorder buffer full; a Tower's wait is counted. -/
theorem intake_waits (h : rowsRead (plinth s d n) (x.idx / 64) = true ∨
      (x.seg ≠ (acc (plinth s d n) x.idx).next ∧ 4096 ≤ (plinth s d n).held.length)) :
    ∃ w : Word, exec (.plinthPairIntake d n tow) s = .next (if tow then
      { setTower s d n { tower s d n with wait := satAdd (tower s d n).wait w.toNat } with free := s.free + 1 } else s) := by
  have waits : takePort s d n tow = none := by
    rw [takePort, port]
    refine takePair_waits (s := turned s d n tow x rest) ?_
    simpa only [plinth_turned tow x rest whole, rowsRead_afterTurn, acc_afterTurn, afterTurn_held] using h
  refine ⟨Config.freeWord s.free, ?_⟩
  show Host.Outcome.next _ = _
  rw [waits]
  cases tow
  · rfl
  · have ne : (plinth s d n).towerPort ≠ [] := by
      rw [show (plinth s d n).towerPort = x :: rest from port]
      exact List.cons_ne_nil _ _
    rw [← towerWaits_eq whole]
    simp [ne]

section
variable (free : rowsRead (plinth s d n) (x.idx / 64) = false)
include free

/-- A pair that is not its accumulator's next one is held. -/
theorem intake_held (later : x.seg ≠ (acc (plinth s d n) x.idx).next) (room : (plinth s d n).held.length < 4096) :
    exec (.plinthPairIntake d n tow) s = .next (
      let s1 := setPlinth s d n { afterTurn (plinth s d n) tow x rest with held := (plinth s d n).held ++ [x] }
      if pairAgain (plinth s d n) x then spoilAcc s1 d n x.idx else s1) := by
  have now := plinth_turned (n := n) tow x rest whole
  rw [execIntake_some port (takePair_held (by rwa [now, rowsRead_afterTurn]) (by rwa [now, acc_afterTurn])
    (by rwa [now, afterTurn_held])), now, pairAgain_afterTurn, setPlinth_turned _ whole, afterTurn_held]

/-- One that comes alone for its segment changes nothing but the list of held pairs. -/
theorem intake_held_once (later : x.seg ≠ (acc (plinth s d n) x.idx).next) (room : (plinth s d n).held.length < 4096)
    (once : ¬ pairAgain (plinth s d n) x = true) : exec (.plinthPairIntake d n tow) s =
      .next (setPlinth s d n { afterTurn (plinth s d n) tow x rest with held := (plinth s d n).held ++ [x] }) := by
  rw [intake_held whole port free later room, if_neg once]

/-- A second pair of one segment spoils its accumulator (04 R85). -/
theorem intake_held_again (later : x.seg ≠ (acc (plinth s d n) x.idx).next) (room : (plinth s d n).held.length < 4096)
    (again : pairAgain (plinth s d n) x = true) : exec (.plinthPairIntake d n tow) s =
      .next { setPlinth s d n { afterTurn (plinth s d n) tow x rest with
        held := (plinth s d n).held ++ [x],
        acc := tabSet (plinth s d n).acc x.idx { acc (plinth s d n) x.idx with
          sum := Config.freeWord s.free, err := Config.freeWord (s.free + 1) } } with free := s.free + 2 } := by
  rw [intake_held whole port free later room, if_pos again, spoilAcc_eq _ (setPlinth_slewed _ whole), plinth_setPlinth _ whole,
    setPlinth_setPlinth _ _ whole]
  have same : (setPlinth s d n { afterTurn (plinth s d n) tow x rest with held := (plinth s d n).held ++ [x] }).free = s.free := by
    rw [setPlinth_whole _ _ _ _ whole, putCd_free]
  have own : acc { afterTurn (plinth s d n) tow x rest with held := (plinth s d n).held ++ [x] } x.idx =
    acc (plinth s d n) x.idx := acc_afterTurn _ _ _ _ _
  rw [same, own, afterTurn_acc]

section
variable (next : x.seg = (acc (plinth s d n) x.idx).next)
include next

/-- The next pair of its accumulator is folded, and then the held ones that follow. -/
theorem intake_next : exec (.plinthPairIntake d n tow) s =
    .next (foldHeld (plinth s d n).held.length (foldPair (turned s d n tow x rest) d n x) d n x.idx) := by
  have now := plinth_turned (n := n) tow x rest whole
  rw [execIntake_some port (takePair_next (by rwa [now, rowsRead_afterTurn]) (by rwa [now, acc_afterTurn])), now, afterTurn_held]

/-- After the intake no held pair follows; the other accumulators and their held pairs are as they were. -/
theorem intake_next_frame : ∃ t : State, exec (.plinthPairIntake d n tow) s = .next t ∧
    (∀ y ∈ (plinth t d n).held,
      y ∈ (plinth s d n).held ∧ ¬ (y.idx = x.idx ∧ y.seg = (acc (plinth t d n) x.idx).next)) ∧
    (∀ y ∈ (plinth s d n).held, y.idx ≠ x.idx → y ∈ (plinth t d n).held) ∧
    (∀ i : Nat, i ≠ x.idx → acc (plinth t d n) i = acc (plinth s d n) i) := by
  refine ⟨_, intake_next whole port free next, ?_⟩
  obtain ⟨slewed, held, others⟩ := foldPair_plinth (n := n) x (turned_slewed (n := n) tow x rest whole)
  rw [plinth_turned tow x rest whole] at held others
  rw [afterTurn_held] at held
  obtain ⟨left, kept, same⟩ := foldHeld_plinth (n := n) (plinth s d n).held.length x.idx (by rw [held]) slewed
  rw [held] at left kept
  exact ⟨left, kept, fun i ne => (same i ne).trans ((others i ne).trans (acc_afterTurn _ _ _ _ _))⟩

section
variable (last : ∀ y ∈ (plinth s d n).held, ¬ (y.idx = x.idx ∧ y.seg = x.seg + 1))
include last

/-- Where no held pair follows, the pair alone is folded. -/
theorem intake_next_alone : exec (.plinthPairIntake d n tow) s = .next (foldPair (turned s d n tow x rest) d n x) := by
  have slewed := turned_slewed (n := n) tow x rest whole
  obtain ⟨slewed', held, -, step, -⟩ := foldInto_plinth (n := n) (x := x) slewed
  rw [plinth_turned tow x rest whole, afterTurn_held] at held
  rw [plinth_turned tow x rest whole, acc_afterTurn, ← next] at step
  have after : (plinth (foldPair (turned s d n tow x rest) d n x) d n).held = (plinth s d n).held ∧
      (acc (plinth (foldPair (turned s d n tow x rest) d n x) d n) x.idx).next = x.seg + 1 := by
    by_cases spoiled : accSpoiled (plinth (foldInto (turned s d n tow x rest) d n x) d n) x.idx = true
    · obtain ⟨-, held', -, now⟩ := spoilAcc_plinth (n := n) x.idx slewed'
      rw [foldPair_spoiled spoiled, now]
      exact ⟨held'.trans held, step⟩
    · rw [foldPair_sound spoiled]
      exact ⟨held, step⟩
  rw [intake_next whole port free next, foldHeld_none]
  rw [after.1, after.2]
  exact last

/-- A spoiled accumulator takes two free values after the fold, and counts the pair. -/
theorem intake_next_spoiled
    (passed : ∃ y ∈ (plinth s d n).held, y.idx = x.idx ∧ y.seg.toNat < ((acc (plinth s d n) x.idx).next + 1).toNat) :
    ∃ t : State, exec (.plinthPairIntake d n tow) s = .next t ∧
      t.free = s.free + (if x.isInt = rowIsInt (plinth s d n) (x.idx / 64) then 2 else 4) ∧
      acc (plinth t d n) x.idx = ⟨Config.freeWord (t.free - 2), Config.freeWord (t.free - 1),
        (acc (plinth s d n) x.idx).next + 1, min ((acc (plinth s d n) x.idx).cnt + 1) 65537⟩ := by
  have slewed := turned_slewed (n := n) tow x rest whole
  have spoiled := (turned_spoiled_iff (n := n) tow x rest whole).2 passed
  obtain ⟨slewed', -, -, step, cnt⟩ := foldInto_plinth (n := n) (x := x) slewed
  have drawn := foldInto_free (n := n) (x := x) slewed
  obtain ⟨-, -, -, now⟩ := spoilAcc_plinth (n := n) x.idx slewed'
  rw [plinth_turned tow x rest whole, acc_afterTurn] at step cnt
  rw [plinth_turned tow x rest whole, rowIsInt_afterTurn, turned_free tow x rest whole] at drawn
  refine ⟨_, intake_next_alone whole port free next last, ?_⟩
  have total : (spoilAcc (foldInto (turned s d n tow x rest) d n x) d n x.idx).free =
      (foldInto (turned s d n tow x rest) d n x).free + 2 := by rw [spoilAcc_eq _ slewed']
  rw [foldPair_spoiled spoiled, now]
  simp only [step, cnt, total]
  refine ⟨?_, rfl⟩
  rw [drawn]
  split <;> omega

section
variable (sound : ∀ y ∈ (plinth s d n).held, y.idx = x.idx → ((acc (plinth s d n) x.idx).next + 1).toNat ≤ y.seg.toNat)
include sound

theorem intake_next_sound : exec (.plinthPairIntake d n tow) s = .next (foldInto (turned s d n tow x rest) d n x) := by
  rw [intake_next_alone whole port free next last, foldPair_sound]
  rw [turned_spoiled_iff tow x rest whole]
  rintro ⟨y, held, idx, passed⟩
  exact absurd (sound y held idx) (by omega)

theorem intake_next_own (own : x.isInt = rowIsInt (plinth s d n) (x.idx / 64)) :
    exec (.plinthPairIntake d n tow) s = .next (setTower (setPlinth s d n
        { setAcc (afterTurn (plinth s d n) tow x rest) x.idx (foldAcc (acc (plinth s d n) x.idx) x).1 with
          foldflush := satAdd (plinth s d n).foldflush (foldAcc (acc (plinth s d n) x.idx) x).2.flush }) d n
      { tower s d n with flags := (tower s d n).flags ||| (foldAcc (acc (plinth s d n) x.idx) x).2.flags }) := by
  have now := plinth_turned (n := n) tow x rest whole
  rw [intake_next_sound whole port free next last sound, foldInto_own (turned_slewed tow x rest whole)
    (by rwa [now, rowIsInt_afterTurn]), now, tower_turned _ _ _ whole, setPlinth_turned _ whole, acc_afterTurn,
    afterTurn_foldflush]

/-- An int32 addition counts nothing and raises no flag. -/
theorem intake_next_int (int : x.isInt = true) (row : rowIsInt (plinth s d n) (x.idx / 64) = true) :
    exec (.plinthPairIntake d n tow) s = .next (setTower (setPlinth s d n
      (setAcc (afterTurn (plinth s d n) tow x rest) x.idx ⟨(acc (plinth s d n) x.idx).sum + x.hi,
        (acc (plinth s d n) x.idx).err, (acc (plinth s d n) x.idx).next + 1,
        min ((acc (plinth s d n) x.idx).cnt + 1) 65537⟩)) d n (tower s d n)) := by
  rw [intake_next_own whole port free next last sound (int.trans row.symm)]
  have flags : (tower s d n).flags ||| (0 : TFlags) = (tower s d n).flags := BitVec.or_zero
  simp only [foldAcc, int, if_true, satAdd_zero, flags]
  rw [← afterTurn_foldflush (plinth s d n) tow x rest]
  rfl

theorem intake_next_other (other : x.isInt ≠ rowIsInt (plinth s d n) (x.idx / 64)) :
    exec (.plinthPairIntake d n tow) s = .next { setTower (setPlinth s d n
        (setAcc (afterTurn (plinth s d n) tow x rest) x.idx ⟨Config.freeWord s.free, Config.freeWord (s.free + 1),
          (acc (plinth s d n) x.idx).next + 1, min ((acc (plinth s d n) x.idx).cnt + 1) 65537⟩)) d n
      { tower s d n with flags := (tower s d n).flags ||| fINV } with free := s.free + 2 } := by
  have now := plinth_turned (n := n) tow x rest whole
  rw [intake_next_sound whole port free next last sound, foldInto_other (turned_slewed tow x rest whole)
    (by rwa [now, rowIsInt_afterTurn]), now, tower_turned _ _ _ whole, setPlinth_turned _ whole, acc_afterTurn,
    turned_free _ _ _ whole]

end
end
end
end
end

end Sys2Proof.Machine
end

section
/-! Patterns of a floating-point format: sign, exponent and fraction, and the values they stand for (03 R65). -/

namespace Sys2Proof.Machine

/-- A format with two exponent bits and a fraction bit at least. -/
structure FFmt.Proper (f : FFmt) : Prop where
  eb : 2 ≤ f.eb
  mb : 1 ≤ f.mb

theorem proper_of_long {f : FFmt} (h : f ∈ [b32, b16]) : f.Proper := by
  simp only [List.mem_cons, List.not_mem_nil, or_false] at h
  obtain rfl | rfl := h <;> exact ⟨by decide, by decide⟩

variable {f : FFmt}

theorem FFmt.Proper.two_pow_eb (hf : f.Proper) : 2 ^ f.eb = 2 * fBias f + 2 := by
  obtain ⟨k, hk⟩ := Nat.exists_eq_add_of_le hf.eb
  have := Nat.one_le_two_pow (n := k + 1)
  rw [fBias, hk, show 2 + k - 1 = k + 1 by omega, show 2 + k = k + 1 + 1 by omega, pow_succ]
  omega

theorem FFmt.Proper.one_le_fBias (hf : f.Proper) : 1 ≤ fBias f := by
  have le := Nat.pow_le_pow_right (show 0 < 2 by decide) hf.eb
  have := hf.two_pow_eb
  omega

/-! ### Patterns from their parts -/

/-- The pattern of a sign, a biased exponent and a fraction. -/
def fPattern (f : FFmt) (s : Bool) (ex fr : Nat) : Nat := fSignBit f s + ex * 2 ^ f.mb + fr

section
variable {s : Bool} {ex fr : Nat} (hex : ex < 2 ^ f.eb) (hfr : fr < 2 ^ f.mb)

theorem fPattern_eq : fPattern f s ex fr = (b2n s * 2 ^ f.eb + ex) * 2 ^ f.mb + fr := by
  rw [fPattern, fSignBit, pow_add]
  ring

include hfr in
theorem fPattern_fraction : fPattern f s ex fr % 2 ^ f.mb = fr := by
  rw [fPattern_eq, Nat.mul_add_mod_of_lt hfr]

include hfr in
theorem fPattern_top : fPattern f s ex fr / 2 ^ f.mb = b2n s * 2 ^ f.eb + ex := by
  rw [fPattern_eq, Nat.add_comm, Nat.add_mul_div_right _ _ (by positivity), Nat.div_eq_of_lt hfr, Nat.zero_add]

include hex hfr

theorem fPattern_exponent : fPattern f s ex fr / 2 ^ f.mb % 2 ^ f.eb = ex := by
  rw [fPattern_top hfr, Nat.mul_add_mod_of_lt hex]

theorem fSign_fPattern : fSign f (fPattern f s ex fr) = s := by
  have sign : fPattern f s ex fr / 2 ^ (f.eb + f.mb) = b2n s := by
    rw [Nat.add_comm f.eb, pow_add, ← Nat.div_div_eq_div_mul, fPattern_top hfr, Nat.add_comm,
      Nat.add_mul_div_right _ _ (by positivity), Nat.div_eq_of_lt hex, Nat.zero_add]
  rw [fSign, sign]
  cases s <;> decide

theorem fPattern_lt : fPattern f s ex fr < 2 ^ (1 + f.eb + f.mb) := by
  have one : b2n s ≤ 1 := by cases s <;> decide
  have top : b2n s * 2 ^ f.eb + ex + 1 ≤ 2 * 2 ^ f.eb := by
    have := Nat.mul_le_mul_right (2 ^ f.eb) one
    omega
  calc fPattern f s ex fr < (b2n s * 2 ^ f.eb + ex + 1) * 2 ^ f.mb := by rw [fPattern_eq]; linarith
    _ ≤ 2 * 2 ^ f.eb * 2 ^ f.mb := Nat.mul_le_mul_right _ top
    _ = 2 ^ (1 + f.eb + f.mb) := by ring

end

/-- A pattern is made of its parts. -/
theorem eq_fPattern {x : Nat} (hx : x < 2 ^ (1 + f.eb + f.mb)) :
    x = fPattern f (fSign f x) (x / 2 ^ f.mb % 2 ^ f.eb) (x % 2 ^ f.mb) := by
  have sign : b2n (fSign f x) = x / 2 ^ f.mb / 2 ^ f.eb := by
    have one : x / 2 ^ f.mb / 2 ^ f.eb < 2 := by
      rw [Nat.div_div_eq_div_mul, Nat.div_lt_iff_lt_mul (by positivity)]
      calc x < 2 ^ (1 + f.eb + f.mb) := hx
        _ = 2 * (2 ^ f.mb * 2 ^ f.eb) := by ring
    rw [fSign, Nat.add_comm f.eb, pow_add, ← Nat.div_div_eq_div_mul]
    generalize x / 2 ^ f.mb / 2 ^ f.eb = b at one
    obtain rfl | rfl : b = 0 ∨ b = 1 := by omega
    · rfl
    · rfl
  rw [fPattern_eq, sign, Nat.div_add_mod', Nat.div_add_mod']

/-! ### What a pattern stands for -/

theorem unpack_subnormal (hf : f.Proper) {s : Bool} {fr : Nat} (hfr : fr < 2 ^ f.mb) :
    unpack f (fPattern f s 0 fr) = .fin s fr (fEmin f - f.mb) := by
  have := hf.two_pow_eb
  have zero : (0 : Nat) < 2 ^ f.eb := by positivity
  have sign := fSign_fPattern zero hfr (s := s)
  unfold fSign at sign
  simp only [unpack, fPattern_exponent zero hfr, fPattern_fraction hfr, sign, if_neg (show ¬ 0 = 2 ^ f.eb - 1 by omega), if_true]

theorem unpack_normal {s : Bool} {ex fr : Nat} (pos : 1 ≤ ex) (hex : ex < 2 ^ f.eb - 1) (hfr : fr < 2 ^ f.mb) :
    unpack f (fPattern f s ex fr) = .fin s (2 ^ f.mb + fr) ((ex : Int) - fBias f - f.mb) := by
  have lt : ex < 2 ^ f.eb := by omega
  have sign := fSign_fPattern lt hfr (s := s)
  unfold fSign at sign
  simp only [unpack, fPattern_exponent lt hfr, fPattern_fraction hfr, sign, if_neg (show ¬ ex = 2 ^ f.eb - 1 by omega),
    if_neg (show ¬ ex = 0 by omega)]

/-- A finite datum comes from a subnormal pattern or from a normal one. -/
theorem unpack_fin {x : Nat} {s : Bool} {m : Nat} {e : Int} (h : unpack f x = .fin s m e) : s = fSign f x ∧
    ((x / 2 ^ f.mb % 2 ^ f.eb = 0 ∧ m = x % 2 ^ f.mb ∧ e = fEmin f - f.mb) ∨
      (1 ≤ x / 2 ^ f.mb % 2 ^ f.eb ∧ x / 2 ^ f.mb % 2 ^ f.eb < 2 ^ f.eb - 1 ∧ m = 2 ^ f.mb + x % 2 ^ f.mb ∧
        e = ((x / 2 ^ f.mb % 2 ^ f.eb : Nat) : Int) - fBias f - f.mb)) := by
  have lt : x / 2 ^ f.mb % 2 ^ f.eb < 2 ^ f.eb := Nat.mod_lt _ (by positivity)
  unfold unpack at h
  simp only at h
  split at h
  · split at h <;> cases h
  · split at h
    · rename_i zero
      cases h
      exact ⟨rfl, .inl ⟨zero, rfl, rfl⟩⟩
    · cases h
      exact ⟨rfl, .inr ⟨by omega, by omega, rfl, rfl⟩⟩

/-- The exponent of a finite datum is that of the least subnormals or a higher one, up to the largest number's. -/
theorem unpack_fin_range (hf : f.Proper) {x : Nat} {s : Bool} {m : Nat} {e : Int} (h : unpack f x = .fin s m e) :
    m < 2 ^ (f.mb + 1) ∧ fEmin f - f.mb ≤ e ∧ e ≤ fEmax f - f.mb ∧ (fEmin f - f.mb < e → 2 ^ f.mb ≤ m) := by
  have lt : x % 2 ^ f.mb < 2 ^ f.mb := Nat.mod_lt _ (by positivity)
  have := hf.two_pow_eb
  have := hf.one_le_fBias
  rw [pow_succ]
  unfold fEmin fEmax
  obtain ⟨-, ⟨-, rfl, rfl⟩ | ⟨pos, top, rfl, rfl⟩⟩ := unpack_fin h
  · unfold fEmin
    refine ⟨by omega, by omega, by omega, by omega⟩
  · refine ⟨by omega, by omega, by omega, by omega⟩

theorem unpack_sign {x : Nat} {s : Bool} {m : Nat} {e : Int} (h : unpack f x = .fin s m e) : fSign f x = s :=
  (unpack_fin h).1.symm

theorem fZero_eq_fPattern (f : FFmt) (s : Bool) : fZero f s = fPattern f s 0 0 := by
  simp [fZero, fPattern]

theorem unpack_fZero (hf : f.Proper) (s : Bool) : unpack f (fZero f s) = .fin s 0 (fEmin f - f.mb) := by
  rw [fZero_eq_fPattern, unpack_subnormal hf (by positivity)]

/-! ### A value that the format holds is rounded to itself -/

/-- A magnitude that is a multiple of the quantum is kept. -/
theorem roundQuantum_self (rm : Nat) (s : Bool) (m : Nat) (e : Int) : roundQuantum rm s m e e = (m, false) := by
  simp [roundQuantum]

theorem roundTo_unpack (hf : f.Proper) (rm : Nat) {x : Nat} {s : Bool} {m : Nat} {e : Int} (hx : x < 2 ^ (1 + f.eb + f.mb))
    (h : unpack f x = .fin s m e) : roundTo f rm s m e = (x, {}) := by
  have lt : x % 2 ^ f.mb < 2 ^ f.mb := Nat.mod_lt _ (by positivity)
  have whole := eq_fPattern hx
  obtain ⟨rfl, ⟨zero, rfl, rfl⟩ | ⟨pos, top, rfl, rfl⟩⟩ := unpack_fin h
  · rw [zero] at whole
    by_cases none : x % 2 ^ f.mb = 0
    · rw [none] at whole
      rw [roundTo, if_pos none, fZero_eq_fPattern, ← whole]
      rfl
    · have low : topExp (x % 2 ^ f.mb) (fEmin f - f.mb) < fEmin f := by
        have := (Nat.log2_lt none).2 lt
        unfold topExp
        omega
      simp only [roundTo, if_neg none, if_pos low, roundQuantum_self, if_pos lt]
      refine Prod.ext ?_ rfl
      conv_rhs => rw [whole]
      simp [fPattern]
  · have bits : Nat.log2 (2 ^ f.mb + x % 2 ^ f.mb) = f.mb := by
      rw [Nat.log2_eq_iff (by positivity), pow_succ]
      omega
    have := hf.two_pow_eb
    have exp : topExp (2 ^ f.mb + x % 2 ^ f.mb) (((x / 2 ^ f.mb % 2 ^ f.eb : Nat) : Int) - fBias f - f.mb) =
        ((x / 2 ^ f.mb % 2 ^ f.eb : Nat) : Int) - fBias f := by
      unfold topExp
      omega
    have nonzero : ¬ 2 ^ f.mb + x % 2 ^ f.mb = 0 := by
      have := Nat.one_le_two_pow (n := f.mb)
      omega
    have high : ¬ ((x / 2 ^ f.mb % 2 ^ f.eb : Nat) : Int) - fBias f < fEmin f := by
      unfold fEmin
      omega
    have double : ¬ 2 ^ f.mb + x % 2 ^ f.mb = 2 ^ (f.mb + 1) := by
      rw [pow_succ]
      omega
    have field : (((x / 2 ^ f.mb % 2 ^ f.eb : Nat) : Int) - fBias f - f.mb + f.mb + fBias f) =
      (x / 2 ^ f.mb % 2 ^ f.eb : Nat) := by omega
    have fits : ¬ (((x / 2 ^ f.mb % 2 ^ f.eb : Nat) : Int) > 2 * fBias f) := by omega
    simp only [roundTo, if_neg nonzero, exp, if_neg high, roundQuantum_self,
      if_neg (show ¬ 2 ^ f.mb + x % 2 ^ f.mb < 2 ^ f.mb by omega), if_neg double, field, if_neg fits, Bool.and_false]
    refine Prod.ext ?_ rfl
    rw [Int.toNat_natCast, Nat.add_sub_cancel_left]
    exact whole.symm

end Sys2Proof.Machine
end

section
/-! Rounding a magnitude to a multiple of a quantum, as it acts on the real number that is rounded (06 R148). -/

namespace Sys2Proof.Machine

/-! ### Attributes by what they do to a magnitude -/

/-- The four ways to round a magnitude. -/
inductive Dir where
  | even | away | up | down

/-- What rounding mode rm does to the magnitude of a number of sign s. -/
def dirOf (rm : Nat) (s : Bool) : Dir :=
  match rm with
  | 0 => .even
  | 1 => .away
  | 2 => if s then .down else .up
  | 3 => if s then .up else .down
  | _ => .down

/-- n is what the magnitude t is rounded to. -/
def RoundsTo (dir : Dir) (t : ℝ) (n : ℕ) : Prop :=
  match dir with
  | .even => |(n : ℝ) - t| ≤ 1 / 2 ∧ (|(n : ℝ) - t| = 1 / 2 → n % 2 = 0)
  | .away => (n : ℝ) - 1 / 2 ≤ t ∧ t < n + 1 / 2
  | .up => (n : ℝ) - 1 < t ∧ t ≤ n
  | .down => (n : ℝ) ≤ t ∧ t < n + 1

theorem roundsUp_iff (rm : Nat) (s : Bool) (n rem sh : Nat) : roundsUp rm s n rem sh = true ↔
    match dirOf rm s with
    | .even => 2 ^ sh < 2 * rem ∨ (2 * rem = 2 ^ sh ∧ n % 2 = 1)
    | .away => 2 ^ sh ≤ 2 * rem
    | .up => rem ≠ 0
    | .down => False := by
  match rm with
  | 0 => simp [roundsUp, dirOf]
  | 1 => simp [roundsUp, dirOf]
  | 2 => cases s <;> simp [roundsUp, dirOf]
  | 3 => cases s <;> simp [roundsUp, dirOf]
  | _ + 4 => simp [roundsUp, dirOf]

/-- A whole number is rounded to itself. -/
theorem roundsTo_self (dir : Dir) (n : ℕ) : RoundsTo dir n n := by
  cases dir <;> simp [RoundsTo]

/-- Rounding moves a magnitude by less than one. -/
theorem RoundsTo.near {dir : Dir} {t : ℝ} {n : ℕ} (h : RoundsTo dir t n) : (n : ℝ) - 1 < t ∧ t < n + 1 := by
  cases dir
  case even =>
    obtain ⟨low, high⟩ := abs_le.1 h.1
    constructor <;> linarith
  case away => exact ⟨by linarith [h.1], by linarith [h.2]⟩
  case up => exact ⟨h.1, by linarith [h.2]⟩
  case down => exact ⟨by linarith [h.1], h.2⟩

/-- A magnitude not below a whole number is not rounded below it. -/
theorem RoundsTo.le_of_le {dir : Dir} {t : ℝ} {n b : ℕ} (h : RoundsTo dir t n) (hb : (b : ℝ) ≤ t) : b ≤ n := by
  have lt : (b : ℝ) < (n : ℝ) + 1 := lt_of_le_of_lt hb h.near.2
  exact Nat.lt_succ_iff.1 (by exact_mod_cast lt)

/-- Nor is one not above it rounded above it. -/
theorem RoundsTo.ge_of_ge {dir : Dir} {t : ℝ} {n b : ℕ} (h : RoundsTo dir t n) (hb : t ≤ b) : n ≤ b := by
  have lt : (n : ℝ) < (b : ℝ) + 1 := by linarith [h.near.1]
  exact Nat.lt_succ_iff.1 (by exact_mod_cast lt)

/-- A magnitude between whole numbers n and n + 1 at the fraction φ. -/
theorem roundsTo_floor {dir : Dir} {n : ℕ} {φ : ℝ} (nonneg : 0 ≤ φ)
    (stays : match dir with
      | .even => φ < 1 / 2 ∨ (φ = 1 / 2 ∧ n % 2 = 0)
      | .away => φ < 1 / 2
      | .up => φ = 0
      | .down => φ < 1) : RoundsTo dir (n + φ) n := by
  cases dir
  case even =>
    rw [RoundsTo, show (n : ℝ) - (n + φ) = -φ by ring, abs_neg, abs_of_nonneg nonneg]
    obtain lt | ⟨half, even⟩ := stays
    · exact ⟨lt.le, fun h => absurd h lt.ne⟩
    · exact ⟨half.le, fun _ => even⟩
  case away => exact ⟨by linarith, by linarith⟩
  case up =>
    simp only at stays
    exact ⟨by linarith, by linarith⟩
  case down => exact ⟨by linarith, by linarith⟩

theorem roundsTo_ceil {dir : Dir} {n : ℕ} {φ : ℝ} (lt : φ < 1)
    (rises : match dir with
      | .even => 1 / 2 < φ ∨ (φ = 1 / 2 ∧ n % 2 = 1)
      | .away => 1 / 2 ≤ φ
      | .up => 0 < φ
      | .down => False) : RoundsTo dir (n + φ) (n + 1) := by
  cases dir
  case even =>
    rw [RoundsTo, Nat.cast_add_one, show (n : ℝ) + 1 - (n + φ) = 1 - φ by ring, abs_of_pos (by linarith)]
    obtain gt | ⟨half, odd⟩ := rises
    · exact ⟨by linarith, fun h => absurd h (by linarith)⟩
    · exact ⟨by linarith, fun _ => by omega⟩
  case away => exact ⟨by push_cast; linarith, by push_cast; linarith⟩
  case up => exact ⟨by push_cast; linarith, by push_cast; linarith⟩
  case down => exact rises.elim

/-! ### A whole number that stands for a real one -/

/-- m · 2^e is V, or m is odd and its last bit says that V lies strictly between the neighbours of m · 2^e. -/
def Stands (m : ℕ) (e : ℤ) (V : ℝ) : Prop :=
  V = m * 2 ^ e ∨ (m % 2 = 1 ∧ ((m : ℝ) - 1) * 2 ^ e < V ∧ V < (m + 1) * 2 ^ e)

/-- An odd remainder r of a modulus 4 j that stands for a real number near it, compared with nothing and with half the modulus. -/
theorem odd_remainder_compare {w r : ℕ} {ρ : ℝ} (four : w % 4 = 0) (odd : r % 2 = 1) (lt : r < w)
    (low : (r : ℝ) - 1 < ρ) (high : ρ < r + 1) :
    0 ≤ ρ ∧ ρ < w ∧ (r = 0 ↔ ρ = 0) ∧ (w < 2 * r ↔ (w : ℝ) < 2 * ρ) ∧ (2 * r = w ↔ 2 * ρ = w) := by
  have one : (1 : ℝ) ≤ r := by exact_mod_cast (show 1 ≤ r by omega)
  have room : (r : ℝ) + 1 ≤ w := by exact_mod_cast (show r + 1 ≤ w by omega)
  have pos : 0 < ρ := by linarith
  obtain more | fewer : w + 2 ≤ 2 * r ∨ 2 * r + 2 ≤ w := by omega
  · have more' : (w : ℝ) + 2 ≤ 2 * r := by exact_mod_cast more
    have side : (w : ℝ) < 2 * ρ := by linarith
    exact ⟨pos.le, by linarith, iff_of_false (by omega) pos.ne', iff_of_true (by omega) side, iff_of_false (by omega) side.ne'⟩
  · have fewer' : 2 * (r : ℝ) + 2 ≤ w := by exact_mod_cast fewer
    have side : 2 * ρ < w := by linarith
    exact ⟨pos.le, by linarith, iff_of_false (by omega) pos.ne', iff_of_false (by omega) side.not_gt, iff_of_false (by omega) side.ne⟩

/-- The remainder of m and the fraction of the number it stands for compare alike with nothing and with a half. -/
theorem Stands.fraction {m : ℕ} {e q : ℤ} {V : ℝ} (h : Stands m e V) (lt : e < q) (fine : V = m * 2 ^ e ∨ e + 2 ≤ q) :
    ∃ φ : ℝ, V / 2 ^ q = (m / 2 ^ (q - e).toNat : ℕ) + φ ∧ 0 ≤ φ ∧ φ < 1 ∧
      (m % 2 ^ (q - e).toNat = 0 ↔ φ = 0) ∧ (2 ^ (q - e).toNat < 2 * (m % 2 ^ (q - e).toNat) ↔ 1 / 2 < φ) ∧
      (2 * (m % 2 ^ (q - e).toNat) = 2 ^ (q - e).toNat ↔ φ = 1 / 2) := by
  generalize hsh : (q - e).toNat = sh
  have hq : q = e + sh := by omega
  have width : (0 : ℝ) < 2 ^ sh := by positivity
  have unit : (0 : ℝ) < 2 ^ e := by positivity
  have scale : (2 : ℝ) ^ q = 2 ^ e * 2 ^ sh := by rw [hq, zpow_add₀ two_ne_zero, zpow_natCast]
  have parts : (m : ℝ) = (m / 2 ^ sh : ℕ) * 2 ^ sh + (m % 2 ^ sh : ℕ) := by exact_mod_cast (Nat.div_add_mod' m (2 ^ sh)).symm
  have rem_lt : m % 2 ^ sh < 2 ^ sh := Nat.mod_lt _ (by positivity)
  -- the remainder of the real number, in units of 2^e
  obtain ⟨ρ, hρ⟩ : ∃ ρ, ρ = V / 2 ^ e - (m / 2 ^ sh : ℕ) * 2 ^ sh := ⟨_, rfl⟩
  have value : V / 2 ^ q = (m / 2 ^ sh : ℕ) + ρ / 2 ^ sh := by
    rw [hρ, scale]; field_simp; ring
  have compare : 0 ≤ ρ ∧ ρ < 2 ^ sh ∧ (m % 2 ^ sh = 0 ↔ ρ = 0) ∧ (2 ^ sh < 2 * (m % 2 ^ sh) ↔ 2 ^ sh < 2 * ρ) ∧
      (2 * (m % 2 ^ sh) = 2 ^ sh ↔ 2 * ρ = 2 ^ sh) := by
    by_cases exact_ : V = m * 2 ^ e
    · have whole : ρ = (m % 2 ^ sh : ℕ) := by
        rw [hρ, exact_, mul_div_cancel_right₀ _ unit.ne']
        linarith
      rw [whole]
      exact ⟨by positivity, by exact_mod_cast rem_lt, by norm_cast, by norm_cast, by norm_cast⟩
    · obtain ⟨odd, low, high⟩ := h.resolve_left exact_
      have low : ((m % 2 ^ sh : ℕ) : ℝ) - 1 < ρ := by
        have := (lt_div_iff₀ unit).2 low
        linarith
      have high : ρ < ((m % 2 ^ sh : ℕ) : ℝ) + 1 := by
        have := (div_lt_iff₀ unit).2 high
        linarith
      obtain ⟨k, hk⟩ : ∃ k, sh = k + 2 := ⟨sh - 2, by have := fine.resolve_left exact_; omega⟩
      have four : 2 ^ sh % 4 = 0 := by rw [hk, pow_add]; omega
      have odd : m % 2 ^ sh % 2 = 1 := by rw [Nat.mod_mod_of_dvd _ (dvd_pow_self 2 (by omega)), odd]
      have compare := odd_remainder_compare four odd rem_lt low high
      push_cast at compare
      exact compare
  obtain ⟨nonneg, below, zero, more, half⟩ := compare
  refine ⟨ρ / 2 ^ sh, value, by positivity, (div_lt_one width).2 below, zero.trans ?_, more.trans ?_, half.trans ?_⟩
  · rw [div_eq_zero_iff]
    exact ⟨.inl, fun h => h.resolve_right width.ne'⟩
  · rw [lt_div_iff₀ width]
    constructor <;> intro <;> linarith
  · rw [div_eq_iff width.ne']
    constructor <;> intro <;> linarith

theorem roundQuantum_spec (rm : Nat) (s : Bool) {m : ℕ} {e q : ℤ} {V : ℝ} (h : Stands m e V)
    (fine : V = m * 2 ^ e ∨ e + 2 ≤ q) :
    RoundsTo (dirOf rm s) (V / 2 ^ q) (roundQuantum rm s m e q).1 ∧
      ((roundQuantum rm s m e q).2 = true ↔ ((roundQuantum rm s m e q).1 : ℝ) ≠ V / 2 ^ q) := by
  by_cases le : q ≤ e
  · have exact_ : V = m * 2 ^ e := fine.resolve_right (by omega)
    have value : V / 2 ^ q = (m * 2 ^ (e - q).toNat : ℕ) := by
      have : e = q + (e - q).toNat := by omega
      rw [exact_]
      conv_lhs => rw [this, zpow_add₀ two_ne_zero, zpow_natCast]
      push_cast
      field_simp
    simp only [roundQuantum, if_pos le, value]
    exact ⟨roundsTo_self _ _, by simp⟩
  · obtain ⟨φ, value, nonneg, below, zero, more, half⟩ := h.fraction (not_le.1 le) fine
    simp only [roundQuantum, if_neg le, value]
    generalize m / 2 ^ (q - e).toNat = n at *
    generalize m % 2 ^ (q - e).toNat = rem at *
    have up := roundsUp_iff rm s n rem (q - e).toNat
    have moved : (decide (rem ≠ 0)) = true ↔ φ ≠ 0 := by rw [decide_eq_true_iff, ne_eq, zero]
    have least : 2 ^ (q - e).toNat ≤ 2 * rem ↔ 1 / 2 ≤ φ := by
      rw [le_iff_lt_or_eq, le_iff_lt_or_eq, more, eq_comm, half, eq_comm (a := φ)]
    rw [more, half, least, ne_eq, zero] at up
    by_cases rises : roundsUp rm s n rem (q - e).toNat = true
    · have rises := up.1 rises
      have pos : 0 < φ := by
        cases dir : dirOf rm s <;> simp only [dir] at rises
        case even => obtain gt | ⟨eq, -⟩ := rises <;> linarith
        case away => linarith
        case up => exact lt_of_le_of_ne nonneg (Ne.symm rises)
      rw [if_pos ‹_›]
      refine ⟨roundsTo_ceil below ?_, moved.trans (iff_of_true pos.ne' ?_)⟩
      · cases dir : dirOf rm s <;> simp only [dir] at rises ⊢
        case even => exact rises
        case away => exact rises
        case up => exact pos
      · push_cast
        intro same
        linarith
    · have stays := mt up.2 rises
      rw [if_neg rises]
      refine ⟨roundsTo_floor nonneg ?_, moved.trans ?_⟩
      · cases dir : dirOf rm s <;> simp only [dir] at stays ⊢
        case even =>
          obtain lt | eq | gt := lt_trichotomy φ (1 / 2)
          · exact .inl lt
          · exact .inr ⟨eq, by by_contra odd; exact stays (.inr ⟨eq, by omega⟩)⟩
          · exact absurd (.inl gt) stays
        case away => exact not_le.1 stays
        case up => exact not_not.1 stays
        case down => exact below
      · constructor
        · intro ne same
          exact ne (by linarith)
        · intro ne zero
          exact ne (by rw [zero, add_zero])

/-! ### Whole numbers that a rounding reaches -/

/-- The magnitude t is rounded to the even number N or above it. -/
def Reaches (dir : Dir) (N : ℕ) (t : ℝ) : Prop :=
  match dir with
  | .even | .away => (N : ℝ) - 1 / 2 ≤ t
  | .up => (N : ℝ) - 1 < t
  | .down => (N : ℝ) ≤ t

theorem RoundsTo.reaches_iff {dir : Dir} {t : ℝ} {n N : ℕ} (h : RoundsTo dir t n) (even : N % 2 = 0) :
    N ≤ n ↔ Reaches dir N t := by
  have le_iff : N ≤ n ↔ (N : ℝ) ≤ n := Nat.cast_le.symm
  have lt_iff : ¬ N ≤ n ↔ (n : ℝ) + 1 ≤ N := by rw [not_le, ← Nat.succ_le_iff, ← Nat.cast_le (α := ℝ), Nat.cast_succ]
  by_cases le : N ≤ n
  · have le' := le_iff.1 le
    refine iff_of_true le ?_
    cases dir <;> simp only [Reaches]
    case even => linarith [(abs_le.1 h.1).2]
    case away => linarith [h.1]
    case up => linarith [h.1]
    case down => linarith [h.1]
  · have lt := lt_iff.1 le
    refine iff_of_false le ?_
    cases dir
    case even =>
      intro (reach : (N : ℝ) - 1 / 2 ≤ t)
      have low := (abs_le.1 h.1).1
      have next : (n : ℝ) + 1 = N := by
        by_contra ne
        have : n + 2 ≤ N := by
          have : n + 1 ≠ N := fun same => ne (by exact_mod_cast same)
          omega
        have : (n : ℝ) + 2 ≤ N := by exact_mod_cast this
        linarith
      have tie : |(n : ℝ) - t| = 1 / 2 := by
        rw [abs_of_nonpos (by linarith)]
        linarith
      have odd : N = n + 1 := by exact_mod_cast next.symm
      have := h.2 tie
      omega
    case away => exact not_le.2 (by linarith [h.2])
    case up => exact not_lt.2 (by linarith [h.2])
    case down => exact not_le.2 (by linarith [h.2])

/-- A magnitude in the binade from 2^E, rounded to mb bits behind the first, reaches a power of two above its own binade exactly where
it lies high enough, and rounding to the binade's own quantum tells so. -/
theorem reaches_two_pow {dir : Dir} {mb u : ℕ} {V : ℝ} {E p : ℤ} (low : (2 : ℝ) ^ E ≤ V) (high : V < 2 ^ (E + 1)) (one : 1 ≤ mb)
    (h : RoundsTo dir (V / 2 ^ (E - mb)) u) :
    Reaches dir (2 ^ (mb + 1)) (V / 2 ^ p) ↔ p + mb < E ∨ (p + mb = E ∧ 2 ^ (mb + 1) ≤ u) := by
  have even : 2 ^ (mb + 1) % 2 = 0 := by rw [pow_succ]; omega
  obtain above | same | below := lt_trichotomy (p + mb) E
  · refine iff_of_true ?_ (.inl above)
    have far : ((2 ^ (mb + 1) : ℕ) : ℝ) ≤ V / 2 ^ p := by
      rw [le_div_iff₀ (by positivity)]
      push_cast
      calc (2 : ℝ) ^ (mb + 1) * 2 ^ p = 2 ^ (p + mb + 1) := by
            rw [← zpow_natCast, ← zpow_add₀ two_ne_zero]; congr 1; push_cast; ring
        _ ≤ 2 ^ E := zpow_le_zpow_right₀ one_le_two (by omega)
        _ ≤ V := low
    cases dir <;> simp only [Reaches] <;> linarith
  · have unit : E - mb = p := by omega
    rw [unit] at h
    rw [← h.reaches_iff even]
    constructor
    · exact fun le => .inr ⟨same, le⟩
    · rintro (lt | ⟨-, le⟩)
      · omega
      · exact le
  · refine iff_of_false ?_ (by omega)
    have near : V / 2 ^ p < 2 ^ mb := by
      rw [div_lt_iff₀ (by positivity)]
      calc V < 2 ^ (E + 1) := high
        _ ≤ 2 ^ (p + mb) := zpow_le_zpow_right₀ one_le_two (by omega)
        _ = 2 ^ mb * 2 ^ p := by rw [← zpow_natCast (2 : ℝ) mb, ← zpow_add₀ two_ne_zero]; congr 1; ring
    have two : (2 : ℝ) ≤ 2 ^ mb := by
      calc (2 : ℝ) = 2 ^ 1 := (pow_one 2).symm
        _ ≤ 2 ^ mb := pow_le_pow_right₀ one_le_two one
    have double : ((2 ^ (mb + 1) : ℕ) : ℝ) = 2 ^ mb + 2 ^ mb := by push_cast; ring
    cases dir <;> simp only [Reaches, not_le, not_lt, double] <;> linarith

end Sys2Proof.Machine
end

section
/-! The rounded magnitude against every number of the format, and the thresholds of overflow and underflow (06 R148). -/

namespace Sys2Proof.Machine

/-- The factor of a sign. -/
def sgn (s : Bool) : ℝ := if s then -1 else 1

theorem sgn_mul_self (s : Bool) : sgn s * sgn s = 1 := by cases s <;> norm_num [sgn]

theorem sgn_ne_zero (s : Bool) : sgn s ≠ 0 := by cases s <;> norm_num [sgn]

theorem abs_sgn (s : Bool) : |sgn s| = 1 := by cases s <;> norm_num [sgn]

theorem sgn_natAbs (t : ℤ) : sgn (decide (t < 0)) * (t.natAbs : ℝ) = t := by
  obtain lt | ge := lt_or_ge t 0
  · have : ((t.natAbs : ℤ) : ℝ) = ((-t : ℤ) : ℝ) := by rw [Int.ofNat_natAbs_of_nonpos lt.le]
    push_cast at this
    simp [sgn, lt, this]
  · have : ((t.natAbs : ℤ) : ℝ) = (t : ℝ) := by rw [Int.natAbs_of_nonneg ge]
    simpa [sgn, not_lt.2 ge] using this

/-! ### In units of the quantum -/

/-- A number in units of the quantum: whole, or smaller than a whole number B that the rounded magnitude t does not fall short of. -/
def OnGrid (B : ℕ) (t z : ℝ) : Prop := (∃ k : ℤ, z = k) ∨ (|z| < B ∧ (B : ℝ) ≤ t)

theorem OnGrid.neg {B : ℕ} {t z : ℝ} (h : OnGrid B t z) : OnGrid B t (-z) := by
  obtain ⟨k, hk⟩ | ⟨small, le⟩ := h
  · exact .inl ⟨-k, by rw [hk]; push_cast; rfl⟩
  · exact .inr ⟨by rwa [abs_neg], le⟩

theorem OnGrid.sgn_mul {B : ℕ} {t z : ℝ} (h : OnGrid B t z) (s : Bool) : OnGrid B t (sgn s * z) := by
  cases s
  · simpa [sgn] using h
  · simpa [sgn] using h.neg

/-- A number that is not whole lies farther from the magnitude than what it is rounded to. -/
theorem nearer_of_small {n B : ℕ} {t z : ℝ} (half : |(n : ℝ) - t| ≤ 1 / 2) (small : |z| < B) (le : (B : ℝ) ≤ t) :
    |(n : ℝ) - t| < |z - t| := by
  have zB := (abs_lt.1 small).2
  rw [abs_of_neg (show z - t < 0 by linarith)]
  have le_n : B ≤ n := by
    have : (B : ℝ) < (n : ℝ) + 1 := by linarith [(abs_le.1 half).1]
    exact Nat.lt_succ_iff.1 (by exact_mod_cast this)
  obtain same | more := Nat.eq_or_lt_of_le le_n
  · rw [← same, abs_of_nonpos (by linarith)]
    linarith
  · have : (B : ℝ) + 1 ≤ n := by exact_mod_cast more
    have := abs_le.1 half
    exact lt_of_le_of_lt half (by linarith)

/-- Another whole number is at least half a unit away. -/
theorem half_le_of_whole {n : ℕ} {k : ℤ} {t : ℝ} (half : |(n : ℝ) - t| ≤ 1 / 2) (ne : (k : ℝ) ≠ n) : 1 / 2 ≤ |(k : ℝ) - t| := by
  have apart : (1 : ℝ) ≤ |(k : ℝ) - n| := by
    have : 1 ≤ |k - (n : ℤ)| := Int.one_le_abs (sub_ne_zero.2 fun same => ne (by exact_mod_cast same))
    exact_mod_cast this
  have := abs_sub_le (k : ℝ) t n
  rw [abs_sub_comm t (n : ℝ)] at this
  linarith

theorem RoundsTo.even_nearest {n B : ℕ} {t z : ℝ} (h : RoundsTo .even t n) (hz : OnGrid B t z) :
    |(n : ℝ) - t| ≤ |z - t| ∧ (|(n : ℝ) - t| = |z - t| → z = n ∨ n % 2 = 0) := by
  obtain ⟨half, tie⟩ := h
  obtain ⟨k, rfl⟩ | ⟨small, le⟩ := hz
  · by_cases same : (k : ℝ) = n
    · rw [same]; exact ⟨le_rfl, fun _ => .inl rfl⟩
    · have far := half_le_of_whole half same
      exact ⟨half.trans far, fun eq => .inr (tie (le_antisymm half (eq ▸ far)))⟩
  · have lt := nearer_of_small half small le
    exact ⟨lt.le, fun eq => absurd eq lt.ne⟩

theorem RoundsTo.away_nearest {n B : ℕ} {t z : ℝ} (h : RoundsTo .away t n) (nonneg : 0 ≤ t) (hz : OnGrid B t z) :
    |(n : ℝ) - t| ≤ |z - t| ∧ (|(n : ℝ) - t| = |z - t| → |z| ≤ n) := by
  obtain ⟨low, high⟩ := h
  have half : |(n : ℝ) - t| ≤ 1 / 2 := abs_le.2 ⟨by linarith, by linarith⟩
  obtain ⟨k, rfl⟩ | ⟨small, le⟩ := hz
  · by_cases same : (k : ℝ) = n
    · rw [same]; exact ⟨le_rfl, fun _ => by rw [Nat.abs_cast]⟩
    · have far := half_le_of_whole half same
      refine ⟨half.trans far, fun eq => ?_⟩
      have tie : |(n : ℝ) - t| = 1 / 2 := le_antisymm half (eq ▸ far)
      have mid : (n : ℝ) - t = 1 / 2 := by
        rcases abs_eq (by norm_num) |>.1 tie with h | h <;> linarith
      have lower : (k : ℝ) ≤ n := by
        rcases abs_eq (by norm_num) |>.1 (eq ▸ tie) with h | h <;> linarith
      have upper : -(n : ℝ) ≤ k := by
        rcases abs_eq (by norm_num) |>.1 (eq ▸ tie) with h | h <;> linarith
      exact abs_le.2 ⟨upper, lower⟩
  · have lt := nearer_of_small half small le
    exact ⟨lt.le, fun eq => absurd eq lt.ne⟩

theorem RoundsTo.up_least {n B : ℕ} {t z : ℝ} (h : RoundsTo .up t n) (hz : OnGrid B t z) : t ≤ n ∧ (t ≤ z → (n : ℝ) ≤ z) := by
  obtain ⟨low, high⟩ := h
  refine ⟨high, fun above => ?_⟩
  obtain ⟨k, rfl⟩ | ⟨small, le⟩ := hz
  · have : (n : ℤ) - 1 < k := by exact_mod_cast (by linarith : ((n : ℝ) - 1) < k)
    exact_mod_cast (by omega : (n : ℤ) ≤ k)
  · linarith [(abs_lt.1 small).2]

theorem RoundsTo.down_greatest {n B : ℕ} {t z : ℝ} (h : RoundsTo .down t n) (hz : OnGrid B t z) :
    (n : ℝ) ≤ t ∧ (z ≤ t → z ≤ n) := by
  obtain ⟨low, high⟩ := h
  refine ⟨low, fun below => ?_⟩
  obtain ⟨k, rfl⟩ | ⟨small, le⟩ := hz
  · have : k < (n : ℤ) + 1 := by exact_mod_cast (by linarith : (k : ℝ) < (n : ℝ) + 1)
    exact_mod_cast (by omega : k ≤ (n : ℤ))
  · have le_n : B ≤ n := by
      have : (B : ℝ) < (n : ℝ) + 1 := by linarith
      exact Nat.lt_succ_iff.1 (by exact_mod_cast this)
    have : (B : ℝ) ≤ n := by exact_mod_cast le_n
    linarith [(abs_lt.1 small).2]

/-! ### The nearest number of the format -/

variable {f : FFmt}

/-- A rounding in units of the quantum 2^q gives the number that the rounding mode names. -/
theorem nearest_of_roundsTo {rm n B x : ℕ} {s : Bool} {V : ℝ} {q : ℤ} (hrm : rm < 5) (nonneg : 0 ≤ V)
    (h : RoundsTo (dirOf rm s) (V / 2 ^ q) n) (value : (finVal f x : ℝ) = sgn s * (n * 2 ^ q)) (parity : x % 2 = n % 2)
    (grid : ∀ y, isFinite f y = true → OnGrid B (V / 2 ^ q) ((finVal f y : ℝ) / 2 ^ q)) : Nearest f rm (sgn s * V) x := by
  intro y hy w
  have unit : (0 : ℝ) < 2 ^ q := by positivity
  obtain ⟨t, ht⟩ : ∃ t, t = V / 2 ^ q := ⟨_, rfl⟩
  obtain ⟨z, hz⟩ : ∃ z, z = sgn s * (w / 2 ^ q) := ⟨_, rfl⟩
  have on : OnGrid B t z := by rw [ht, hz]; exact (grid y hy).sgn_mul s
  rw [← ht] at h
  have t0 : 0 ≤ t := by rw [ht]; positivity
  -- everything in units of the quantum, with the sign taken out
  have hv : sgn s * V = sgn s * t * 2 ^ q := by rw [ht]; field_simp
  have hw : w = sgn s * z * 2 ^ q := by
    rw [hz, ← mul_assoc, sgn_mul_self, one_mul, div_mul_cancel₀ _ unit.ne']
  have hc : (finVal f x : ℝ) = sgn s * n * 2 ^ q := by rw [value]; ring
  have dist : ∀ a b : ℝ, |sgn s * a * 2 ^ q - sgn s * b * 2 ^ q| = |a - b| * 2 ^ q := fun a b => by
    rw [show sgn s * a * 2 ^ q - sgn s * b * 2 ^ q = sgn s * (a - b) * 2 ^ q by ring, abs_mul, abs_mul, abs_sgn, one_mul,
      abs_of_pos unit]
  have mag : ∀ a : ℝ, |sgn s * a * 2 ^ q| = |a| * 2 ^ q := fun a => by
    rw [abs_mul, abs_mul, abs_sgn, one_mul, abs_of_pos unit]
  have scale : ∀ a b : ℝ, a * 2 ^ q ≤ b * 2 ^ q ↔ a ≤ b := fun a b => mul_le_mul_iff_left₀ unit
  rw [hv, hw, hc]
  match rm, hrm with
  | 0, _ =>
    simp only [dist, scale, mul_left_inj' unit.ne']
    obtain ⟨le, tie⟩ := h.even_nearest on
    exact ⟨le, fun eq => (tie eq).imp (fun same => by rw [same]) (parity.trans)⟩
  | 1, _ =>
    simp only [dist, mag, scale, mul_left_inj' unit.ne', Nat.abs_cast]
    exact h.away_nearest t0 on
  | 2, _ =>
    simp only [scale]
    cases s
    · simpa [sgn] using RoundsTo.up_least h on
    · simpa [sgn] using RoundsTo.down_greatest h on
  | 3, _ =>
    simp only [scale]
    cases s
    · simpa [sgn] using RoundsTo.down_greatest h on
    · simpa [sgn] using RoundsTo.up_least h on
  | 4, _ =>
    have down : RoundsTo .down t n := h
    simp only [mag, scale, Nat.abs_cast, abs_of_nonneg t0]
    obtain ⟨le, above⟩ := down.down_greatest on
    obtain ⟨-, below⟩ := down.down_greatest on.neg
    exact ⟨le, fun near => abs_le.2 ⟨by linarith [below (by linarith [(abs_le.1 near).1])], above (abs_le.1 near).2⟩⟩

/-! ### Overflow and underflow -/

/-- Reaching N in units of w, in terms of the magnitude itself. -/
theorem reaches_div_iff {dir : Dir} {N : ℕ} {V w : ℝ} (hw : 0 < w) : Reaches dir N (V / w) ↔
    match dir with
    | .even | .away => (N * w - w + N * w) / 2 ≤ V
    | .up => N * w - w < V
    | .down => N * w ≤ V := by
  cases dir <;> simp only [Reaches, le_div_iff₀ hw, lt_div_iff₀ hw] <;> constructor <;> intro <;> linarith

/-- Overflow is a rounding in the uppermost binade that reaches the power of two above it. -/
theorem overflows_iff {rm : ℕ} {s : Bool} {V : ℝ} (hrm : rm < 5) (pos : 0 < V) :
    Overflows f rm (sgn s * V) ↔ Reaches (dirOf rm s) (2 ^ (f.mb + 1)) (V / 2 ^ (fEmax f - f.mb)) := by
  have unit : (0 : ℝ) < 2 ^ (fEmax f - f.mb) := by positivity
  have top : ((2 ^ (f.mb + 1) : ℕ) : ℝ) * 2 ^ (fEmax f - f.mb) = 2 ^ (fEmax f + 1) := by
    push_cast
    rw [← zpow_natCast, ← zpow_add₀ two_ne_zero]; congr 1; push_cast; ring
  have top_pos : (0 : ℝ) < 2 ^ (fEmax f + 1) := by positivity
  have last_pos : (2 : ℝ) ^ (fEmax f - f.mb) ≤ 2 ^ (fEmax f + 1) := zpow_le_zpow_right₀ one_le_two (by omega)
  have magnitude : |sgn s * V| = V := by rw [abs_mul, abs_sgn, one_mul, abs_of_pos pos]
  rw [reaches_div_iff unit, top]
  match rm, hrm with
  | 0, _ | 1, _ | 4, _ => simp only [Overflows, dirOf, magnitude]
  | 2, _ =>
    cases s <;> simp only [Overflows, dirOf, sgn, Bool.false_eq_true, if_false, if_true, one_mul, neg_one_mul, neg_le_neg_iff]
    · exact or_iff_left (by linarith)
    · exact or_iff_right (by linarith)
  | 3, _ =>
    cases s <;> simp only [Overflows, dirOf, sgn, Bool.false_eq_true, if_false, if_true, one_mul, neg_one_mul, neg_lt_neg_iff]
    · exact or_iff_right (by linarith)
    · exact or_iff_left (by linarith)

/-- A number is tiny where rounding it in the binade below the normal numbers does not reach them. -/
theorem tiny_iff {rm : ℕ} {s : Bool} {V : ℝ} (hrm : rm < 5) (pos : 0 < V) :
    Tiny f rm (sgn s * V) ↔ ¬ Reaches (dirOf rm s) (2 ^ (f.mb + 1)) (V / 2 ^ (fEmin f - f.mb - 1)) := by
  have unit : (0 : ℝ) < 2 ^ (fEmin f - f.mb - 1) := by positivity
  have least : ((2 ^ (f.mb + 1) : ℕ) : ℝ) * 2 ^ (fEmin f - f.mb - 1) = 2 ^ fEmin f := by
    push_cast
    rw [← zpow_natCast, ← zpow_add₀ two_ne_zero]; congr 1; push_cast; ring
  have least_pos : (0 : ℝ) < 2 ^ fEmin f := by positivity
  have below_pos : (2 : ℝ) ^ (fEmin f - f.mb - 1) ≤ 2 ^ fEmin f := zpow_le_zpow_right₀ one_le_two (by omega)
  have magnitude : |sgn s * V| = V := by rw [abs_mul, abs_sgn, one_mul, abs_of_pos pos]
  rw [reaches_div_iff unit, least]
  match rm, hrm with
  | 0, _ | 1, _ | 4, _ => simp only [Tiny, dirOf, magnitude, not_le]
  | 2, _ =>
    cases s <;> simp only [Tiny, dirOf, sgn, Bool.false_eq_true, if_false, if_true, one_mul, neg_one_mul, neg_lt_neg_iff, not_le,
      not_lt]
    · exact and_iff_right (by linarith)
    · exact and_iff_left (by linarith)
  | 3, _ =>
    cases s <;> simp only [Tiny, dirOf, sgn, Bool.false_eq_true, if_false, if_true, one_mul, neg_one_mul, neg_le_neg_iff, not_le,
      not_lt]
    · exact and_iff_right (by linarith)
    · exact and_iff_left (by linarith)

end Sys2Proof.Machine
end

section
/-! `roundTo` writes the number that the rounding mode names, with the exceptions of IEEE 754 (03 R65; 06 R148). -/

namespace Sys2Proof.Machine

variable {f : FFmt}

/-! ### Values of patterns -/

theorem finVal_of_unpack {x : ℕ} {s : Bool} {m : ℕ} {e : ℤ} (h : unpack f x = .fin s m e) :
    (finVal f x : ℝ) = sgn s * (m * 2 ^ e) := by
  simp only [finVal, h, sgn]
  cases s <;> push_cast <;> simp

theorem isFinite_of_unpack {x : ℕ} {s : Bool} {m : ℕ} {e : ℤ} (h : unpack f x = .fin s m e) : isFinite f x = true :=
  isFinite_iff.2 ⟨s, m, e, h⟩

/-- Every number of the format is whole in units of a quantum, or has its exponent below that quantum's binade. -/
theorem finVal_grid (hf : f.Proper) {y : ℕ} {q : ℤ} (hy : isFinite f y = true) (hq : fEmin f - f.mb ≤ q) :
    (∃ k : ℤ, (finVal f y : ℝ) / 2 ^ q = k) ∨ (|(finVal f y : ℝ) / 2 ^ q| < (2 ^ f.mb : ℕ) ∧ fEmin f - f.mb < q) := by
  obtain ⟨s, m, e, h⟩ := isFinite_iff.1 hy
  obtain ⟨small, low, -, -⟩ := unpack_fin_range hf h
  rw [finVal_of_unpack h]
  obtain le | lt := le_or_gt q e
  · refine .inl ⟨(if s then -1 else 1) * (m * 2 ^ (e - q).toNat : ℕ), ?_⟩
    have exp : e = q + (e - q).toNat := by omega
    conv_lhs => rw [exp, zpow_add₀ two_ne_zero, zpow_natCast]
    have unit : (2 : ℝ) ^ q ≠ 0 := by positivity
    cases s <;> simp only [sgn, Bool.false_eq_true, if_false, if_true] <;> push_cast <;> field_simp
  · refine .inr ⟨?_, by omega⟩
    have unit : (0 : ℝ) < 2 ^ q := by positivity
    rw [abs_div, abs_mul, abs_sgn, one_mul, abs_of_pos unit, abs_of_nonneg (by positivity), div_lt_iff₀ unit]
    have small' : (m : ℝ) < 2 ^ (f.mb + 1) := by exact_mod_cast small
    calc (m : ℝ) * 2 ^ e < 2 ^ (f.mb + 1) * 2 ^ e := by gcongr
      _ = 2 ^ f.mb * 2 ^ (e + 1) := by rw [zpow_add_one₀ two_ne_zero]; ring
      _ ≤ 2 ^ f.mb * 2 ^ q := by gcongr <;> [norm_num; omega]
      _ = (2 ^ f.mb : ℕ) * 2 ^ q := by push_cast; rfl

/-! ### The pattern of a rounded magnitude -/

/-- The last part of `roundTo`: n units of 2^q written as a pattern. -/
def fPack (f : FFmt) (rm : Nat) (s : Bool) (n : Nat) (q : Int) (inexact tiny : Bool) : Nat × Exc :=
  if n < 2 ^ f.mb then (fSignBit f s + n, { uf := inexact, nx := inexact })
  else
    let n' := if n = 2 ^ (f.mb + 1) then 2 ^ f.mb else n
    let q' := if n = 2 ^ (f.mb + 1) then q + 1 else q
    let ex := q' + f.mb + fBias f
    if ex > 2 * fBias f then (overflowBits f rm s, { ov := true, nx := true })
    else (fSignBit f s + ex.toNat * 2 ^ f.mb + (n' - 2 ^ f.mb), { uf := tiny && inexact, nx := inexact })

/-- The exponent of the quantum for a magnitude whose highest bit is 2^E. -/
def fQuantum (f : FFmt) (E : Int) : Int := (if E < fEmin f then fEmin f else E) - f.mb

/-- A magnitude in whole quanta, and whether it was inexact. -/
def fQuanta (f : FFmt) (rm : Nat) (s : Bool) (m : Nat) (e : Int) : Nat × Bool := roundQuantum rm s m e (fQuantum f (topExp m e))

/-- Whether a magnitude lies below the normal numbers when it is rounded with no bound on the exponent. -/
def fTiny (f : FFmt) (rm : Nat) (s : Bool) (m : Nat) (e : Int) : Bool :=
  decide (((roundQuantum rm s m e (topExp m e - f.mb)).1 : Int) < 2 ^ (f.mb + 1)) && decide (topExp m e < fEmin f)
    || decide (topExp m e + 1 < fEmin f)

theorem roundTo_eq (rm : Nat) (s : Bool) {m : Nat} (e : Int) (ne : m ≠ 0) : roundTo f rm s m e =
    fPack f rm s (fQuanta f rm s m e).1 (fQuantum f (topExp m e)) (fQuanta f rm s m e).2 (fTiny f rm s m e) := by
  rw [roundTo, if_neg ne]
  rfl

/-- What fits is written as the pattern of a number of the format; the pattern is even with its magnitude. -/
theorem fPack_fits (hf : f.Proper) (rm : Nat) (s : Bool) {n : Nat} {q : Int} (inexact tiny : Bool)
    (low : fEmin f - f.mb ≤ q) (sub : n < 2 ^ f.mb → q = fEmin f - f.mb) (high : n ≤ 2 ^ (f.mb + 1))
    (fits : q + f.mb < fEmax f ∨ (q + f.mb = fEmax f ∧ n < 2 ^ (f.mb + 1))) :
    ∃ x m e, fPack f rm s n q inexact tiny = (x, { uf := inexact && (decide (n < 2 ^ f.mb) || tiny), nx := inexact }) ∧
      x < 2 ^ (1 + f.eb + f.mb) ∧ unpack f x = .fin s m e ∧ (m : ℝ) * 2 ^ e = n * 2 ^ q ∧ x % 2 = n % 2 := by
  have exps := hf.two_pow_eb
  have bias := hf.one_le_fBias
  have mbits : 2 ^ f.mb % 2 = 0 := by
    obtain ⟨k, hk⟩ := Nat.exists_eq_add_of_le' hf.mb
    rw [hk, pow_succ]
    omega
  have parity : ∀ ex fr, fPattern f s ex fr % 2 = fr % 2 := fun ex fr => by
    rw [fPattern_eq, Nat.add_mod, Nat.mul_mod, mbits]
    simp
  obtain small | normal | double : n < 2 ^ f.mb ∨ (2 ^ f.mb ≤ n ∧ n < 2 ^ (f.mb + 1)) ∨ n = 2 ^ (f.mb + 1) := by omega
  · have hq := sub small
    refine ⟨fPattern f s 0 n, n, fEmin f - f.mb, ?_, fPattern_lt (by positivity) small, unpack_subnormal hf small, by rw [hq],
      parity 0 n⟩
    simp [fPack, fPattern, small]
  · obtain ⟨least, lt⟩ := normal
    have one : 1 ≤ q + f.mb + fBias f := by unfold fEmin at low; omega
    have top : q + f.mb + fBias f ≤ 2 * fBias f := by unfold fEmax at fits; omega
    have fr : n - 2 ^ f.mb < 2 ^ f.mb := by rw [pow_succ] at lt; omega
    have un := unpack_normal (f := f) (s := s) (ex := (q + f.mb + fBias f).toNat) (by omega) (by omega) fr
    refine ⟨fPattern f s (q + f.mb + fBias f).toNat (n - 2 ^ f.mb), _, _, ?_, fPattern_lt (by omega) fr, un, ?_, ?_⟩
    · simp only [fPack, if_neg (not_lt.2 least), if_neg lt.ne, if_neg (not_lt.2 top), fPattern, decide_eq_false (not_lt.2 least),
        Bool.false_or, Bool.and_comm tiny]
    · rw [show 2 ^ f.mb + (n - 2 ^ f.mb) = n by omega]
      congr 2
      omega
    · rw [parity]
      omega
  · subst double
    have lt : f.mb < f.mb + 1 := Nat.lt_succ_self _
    have big : ¬ 2 ^ (f.mb + 1) < 2 ^ f.mb := by rw [pow_succ]; omega
    have one : 1 ≤ q + 1 + f.mb + fBias f := by unfold fEmin at low; omega
    have top : q + 1 + f.mb + fBias f ≤ 2 * fBias f := by unfold fEmax at fits; omega
    have zero : 0 < 2 ^ f.mb := by positivity
    have un := unpack_normal (f := f) (s := s) (ex := (q + 1 + f.mb + fBias f).toNat) (by omega) (by omega) zero
    refine ⟨fPattern f s (q + 1 + f.mb + fBias f).toNat 0, _, _, ?_, fPattern_lt (by omega) zero, un, ?_, ?_⟩
    · simp only [fPack, if_neg big, if_true, if_neg (not_lt.2 top), fPattern, decide_eq_false big, Bool.false_or,
        Bool.and_comm tiny, Nat.sub_self]
    · rw [show (((q + 1 + f.mb + fBias f).toNat : ℕ) : ℤ) - fBias f - f.mb = q + 1 by omega, zpow_add_one₀ two_ne_zero]
      push_cast
      ring
    · rw [parity, pow_succ]
      omega

/-- What reaches the power of two above the largest number overflows. -/
theorem fPack_overflows (rm : Nat) (s : Bool) {n : Nat} {q : Int} (inexact tiny : Bool) (least : 2 ^ f.mb ≤ n)
    (past : fEmax f < q + f.mb ∨ (q + f.mb = fEmax f ∧ n = 2 ^ (f.mb + 1))) :
    fPack f rm s n q inexact tiny = (overflowBits f rm s, { ov := true, nx := true }) := by
  unfold fEmax at past
  simp only [fPack, if_neg (not_lt.2 least)]
  rw [if_pos]
  split <;> omega

/-! ### Correct rounding -/

theorem two_pow_topExp_le {m : ℕ} (e : ℤ) (ne : m ≠ 0) : (2 : ℝ) ^ topExp m e ≤ m * 2 ^ e := by
  rw [topExp, zpow_add₀ two_ne_zero, zpow_natCast]
  have : ((2 ^ Nat.log2 m : ℕ) : ℝ) ≤ m := by exact_mod_cast Nat.log2_self_le ne
  push_cast at this
  gcongr

theorem lt_two_pow_topExp (m : ℕ) (e : ℤ) : (m : ℝ) * 2 ^ e < 2 ^ (topExp m e + 1) := by
  rw [topExp, show (Nat.log2 m : ℤ) + e + 1 = (Nat.log2 m + 1 : ℕ) + e by push_cast; ring, zpow_add₀ two_ne_zero, zpow_natCast]
  have : (m : ℝ) < ((2 ^ (Nat.log2 m + 1) : ℕ) : ℝ) := by exact_mod_cast Nat.lt_log2_self
  push_cast at this
  gcongr

/-- The whole number and the real one that it stands for lie in the same binade. -/
theorem Stands.binade {m : ℕ} {e : ℤ} {V : ℝ} (h : Stands m e V) (ne : m ≠ 0) (fine : V = m * 2 ^ e ∨ 1 ≤ Nat.log2 m) :
    (2 : ℝ) ^ topExp m e ≤ V ∧ V < 2 ^ (topExp m e + 1) := by
  by_cases exact_ : V = m * 2 ^ e
  · rw [exact_]
    exact ⟨two_pow_topExp_le e ne, lt_two_pow_topExp m e⟩
  · obtain ⟨odd, low, high⟩ := h.resolve_left exact_
    have bits := fine.resolve_left exact_
    have even : 2 ^ Nat.log2 m % 2 = 0 := by
      obtain ⟨k, hk⟩ := Nat.exists_eq_add_of_le' bits
      rw [hk, pow_succ]
      omega
    have least := Nat.log2_self_le ne
    have most : m < 2 ^ (Nat.log2 m + 1) := Nat.lt_log2_self
    rw [pow_succ] at most
    have least : ((2 ^ Nat.log2 m : ℕ) : ℝ) ≤ m - 1 := by
      rw [le_sub_iff_add_le]
      exact_mod_cast (show 2 ^ Nat.log2 m + 1 ≤ m by omega)
    have most : (m : ℝ) + 1 ≤ ((2 ^ Nat.log2 m * 2 : ℕ) : ℝ) := by exact_mod_cast (show m + 1 ≤ 2 ^ Nat.log2 m * 2 by omega)
    push_cast at least most
    constructor
    · refine le_trans ?_ low.le
      rw [topExp, zpow_add₀ two_ne_zero, zpow_natCast]
      gcongr
    · refine lt_of_lt_of_le high ?_
      rw [zpow_add_one₀ two_ne_zero, topExp, zpow_add₀ two_ne_zero, zpow_natCast,
        show (2 : ℝ) ^ Nat.log2 m * 2 ^ e * 2 = 2 ^ Nat.log2 m * 2 * 2 ^ e by ring]
      gcongr

/-- What reaches 2 N in one unit reaches N in the double unit. -/
theorem Reaches.double {dir : Dir} {N : ℕ} {V w : ℝ} (hw : 0 < w) (h : Reaches dir (2 * N) (V / w)) :
    Reaches dir N (V / (w * 2)) := by
  rw [reaches_div_iff hw] at h
  rw [reaches_div_iff (by positivity)]
  push_cast at h
  cases dir <;> simp only at h ⊢ <;> nlinarith

/-- Where a magnitude stands in its format: its binade, the quantum it is rounded to, and what it is rounded to. -/
structure FRounds (f : FFmt) (rm : ℕ) (s : Bool) (m : ℕ) (e : ℤ) (V : ℝ) : Prop where
  low : (2 : ℝ) ^ topExp m e ≤ V
  high : V < 2 ^ (topExp m e + 1)
  rounds : RoundsTo (dirOf rm s) (V / 2 ^ fQuantum f (topExp m e)) (fQuanta f rm s m e).1
  inexact : (fQuanta f rm s m e).2 = true ↔ ((fQuanta f rm s m e).1 : ℝ) ≠ V / 2 ^ fQuantum f (topExp m e)
  free : RoundsTo (dirOf rm s) (V / 2 ^ (topExp m e - f.mb)) (roundQuantum rm s m e (topExp m e - f.mb)).1

theorem fRounds_of_stands (hf : f.Proper) (rm : ℕ) (s : Bool) {m : ℕ} {e : ℤ} {V : ℝ} (ne : m ≠ 0)
    (h : Stands m e V) (fine : V = m * 2 ^ e ∨ f.mb + 2 ≤ Nat.log2 m) : FRounds f rm s m e V := by
  have one := hf.mb
  obtain ⟨low, high⟩ := h.binade ne (fine.imp_right fun _ => by omega)
  have spare : ∀ q, topExp m e - f.mb ≤ q → V = m * 2 ^ e ∨ e + 2 ≤ q := fun q hq =>
    fine.imp_right fun bits => by unfold topExp at hq; omega
  obtain ⟨rounds, inexact⟩ := roundQuantum_spec rm s h (spare (fQuantum f (topExp m e)) (by unfold fQuantum; split <;> omega))
  exact ⟨low, high, rounds, inexact, (roundQuantum_spec rm s h (spare _ le_rfl)).1⟩

section
variable {rm : ℕ} {s : Bool} {m : ℕ} {e : ℤ} {V : ℝ}

theorem fQuantum_normal {E : ℤ} (normal : fEmin f ≤ E) : fQuantum f E = E - f.mb := by
  rw [fQuantum, if_neg (not_lt.2 normal)]

theorem fQuantum_subnormal {E : ℤ} (sub : E < fEmin f) : fQuantum f E = fEmin f - f.mb := by
  rw [fQuantum, if_pos sub]

theorem FRounds.pos (h : FRounds f rm s m e V) : 0 < V := lt_of_lt_of_le (by positivity) h.low

/-- A normal magnitude has the highest bit of its significand set. -/
theorem FRounds.normal (h : FRounds f rm s m e V) (normal : fEmin f ≤ topExp m e) :
    ((2 ^ f.mb : ℕ) : ℝ) ≤ V / 2 ^ fQuantum f (topExp m e) := by
  rw [fQuantum_normal normal, le_div_iff₀ (by positivity)]
  refine le_trans (le_of_eq ?_) h.low
  push_cast
  rw [← zpow_natCast, ← zpow_add₀ two_ne_zero]
  congr 1
  omega

theorem FRounds.normal_le (h : FRounds f rm s m e V) (normal : fEmin f ≤ topExp m e) : 2 ^ f.mb ≤ (fQuanta f rm s m e).1 :=
  h.rounds.le_of_le (h.normal normal)

theorem FRounds.subnormal_le (h : FRounds f rm s m e V) (sub : topExp m e < fEmin f) :
    (fQuanta f rm s m e).1 ≤ 2 ^ f.mb := by
  refine h.rounds.ge_of_ge ?_
  rw [fQuantum_subnormal sub, div_le_iff₀ (by positivity)]
  push_cast
  rw [← zpow_natCast, ← zpow_add₀ two_ne_zero]
  exact h.high.le.trans (zpow_le_zpow_right₀ one_le_two (by omega))

theorem FRounds.le_double (h : FRounds f rm s m e V) :
    (fQuanta f rm s m e).1 ≤ 2 ^ (f.mb + 1) := by
  obtain sub | normal := lt_or_ge (topExp m e) (fEmin f)
  · exact (h.subnormal_le sub).trans (Nat.pow_le_pow_right (by decide) (Nat.le_succ _))
  · refine h.rounds.ge_of_ge ?_
    rw [fQuantum_normal normal, div_le_iff₀ (by positivity)]
    push_cast
    rw [← zpow_natCast, ← zpow_add₀ two_ne_zero]
    refine h.high.le.trans (zpow_le_zpow_right₀ one_le_two ?_)
    push_cast
    omega

/-- Overflow in terms of the rounded magnitude. -/
theorem FRounds.overflows_iff (hf : f.Proper) (hrm : rm < 5) (h : FRounds f rm s m e V) : Overflows f rm (sgn s * V) ↔
    fEmax f < topExp m e ∨
      (fEmax f = topExp m e ∧ 2 ^ (f.mb + 1) ≤ (fQuanta f rm s m e).1) := by
  have bias := hf.one_le_fBias
  rw [Machine.overflows_iff hrm h.pos, reaches_two_pow h.low h.high hf.mb h.free, sub_add_cancel]
  refine or_congr_right (and_congr_right fun same => ?_)
  rw [fQuanta, fQuantum_normal (by rw [← same]; unfold fEmin fEmax; omega)]

theorem FRounds.tiny_iff (hf : f.Proper) (hrm : rm < 5) (h : FRounds f rm s m e V) :
    Tiny f rm (sgn s * V) ↔ fTiny f rm s m e = true := by
  rw [Machine.tiny_iff hrm h.pos, reaches_two_pow h.low h.high hf.mb h.free]
  simp only [fTiny, Bool.or_eq_true, Bool.and_eq_true, decide_eq_true_eq]
  generalize (roundQuantum rm s m e (topExp m e - f.mb)).1 = u
  have cast : (u : ℤ) < 2 ^ (f.mb + 1) ↔ u < 2 ^ (f.mb + 1) := by exact_mod_cast Iff.rfl
  rw [cast]
  omega

/-- A subnormal result is tiny. -/
theorem FRounds.tiny_of_lt (hf : f.Proper) (hrm : rm < 5) (h : FRounds f rm s m e V)
    (small : (fQuanta f rm s m e).1 < 2 ^ f.mb) : Tiny f rm (sgn s * V) := by
  have sub : topExp m e < fEmin f := by
    by_contra normal
    exact absurd (h.normal_le (not_lt.1 normal)) (not_le.2 small)
  rw [Machine.tiny_iff hrm h.pos]
  intro reach
  rw [pow_succ, Nat.mul_comm] at reach
  have reach := reach.double (by positivity)
  rw [← zpow_add_one₀ two_ne_zero, sub_add_cancel, ← fQuantum_subnormal sub, ← h.rounds.reaches_iff] at reach
  · exact absurd reach (not_le.2 small)
  · obtain ⟨k, hk⟩ := Nat.exists_eq_add_of_le' hf.mb
    rw [hk, pow_succ]
    omega

/-- The rounded magnitude lies beyond the largest number. -/
def FPast (f : FFmt) (rm : ℕ) (s : Bool) (m : ℕ) (e : ℤ) : Prop :=
  fEmax f < topExp m e ∨ (fEmax f = topExp m e ∧ 2 ^ (f.mb + 1) ≤ (fQuanta f rm s m e).1)

theorem FRounds.roundTo_past (hf : f.Proper) (h : FRounds f rm s m e V) (ne : m ≠ 0) (past : FPast f rm s m e) :
    roundTo f rm s m e = (overflowBits f rm s, { ov := true, nx := true }) := by
  have bias := hf.one_le_fBias
  have emin_lt : fEmin f < fEmax f := by unfold fEmin fEmax; omega
  have high : fEmax f ≤ topExp m e := by unfold FPast at past; omega
  have normal := emin_lt.le.trans high
  have q : fQuantum f (topExp m e) + f.mb = topExp m e := by rw [fQuantum_normal normal, sub_add_cancel]
  have double := h.le_double
  rw [roundTo_eq rm s e ne]
  exact fPack_overflows rm s _ _ (h.normal_le normal) (by unfold FPast at past; omega)

theorem FRounds.roundTo_fits (hf : f.Proper) (h : FRounds f rm s m e V) (ne : m ≠ 0) (fits : ¬ FPast f rm s m e) :
    ∃ x m' e', roundTo f rm s m e = (x, {
        uf := (fQuanta f rm s m e).2 && (decide ((fQuanta f rm s m e).1 < 2 ^ f.mb) || fTiny f rm s m e),
        nx := (fQuanta f rm s m e).2 }) ∧
      x < 2 ^ (1 + f.eb + f.mb) ∧ unpack f x = .fin s m' e' ∧
      (m' : ℝ) * 2 ^ e' = (fQuanta f rm s m e).1 * 2 ^ fQuantum f (topExp m e) ∧
      x % 2 = (fQuanta f rm s m e).1 % 2 := by
  have bias := hf.one_le_fBias
  have emin_lt : fEmin f < fEmax f := by unfold fEmin fEmax; omega
  rw [roundTo_eq rm s e ne]
  refine fPack_fits hf rm s _ _ (by unfold fQuantum; split <;> omega) (fun small => fQuantum_subnormal ?_) h.le_double ?_
  · by_contra normal
    exact absurd (h.normal_le (not_lt.1 normal)) (not_le.2 small)
  · unfold FPast at fits
    obtain sub | normal := lt_or_ge (topExp m e) (fEmin f)
    · have := fQuantum_subnormal sub
      omega
    · have := fQuantum_normal normal
      omega

end

/-- An overflow gives the infinity, or the largest number where the rounding mode goes towards zero. -/
theorem overflowBits_eq {rm : ℕ} (s : Bool) (hrm : rm < 5) : overflowBits f rm s =
    if (s = false ∧ (rm = 3 ∨ rm = 4)) ∨ (s = true ∧ (rm = 2 ∨ rm = 4)) then fMaxFin f s else fInf f s := by
  match rm, hrm with
  | 0, _ | 1, _ | 2, _ | 3, _ | 4, _ => cases s <;> simp [overflowBits]

/-- `roundTo` on a magnitude m · 2^e, or on one that m stands for with two bits to spare, is the exact value rounded once. -/
theorem roundTo_rounded (hf : f.Proper) {rm : ℕ} (hrm : rm < 5) (s : Bool) {m : ℕ} {e : ℤ} {V : ℝ} (ne : m ≠ 0)
    (stands : Stands m e V) (fine : V = m * 2 ^ e ∨ f.mb + 2 ≤ Nat.log2 m) :
    Rounded f rm (sgn s * V) (roundTo f rm s m e) := by
  have h := fRounds_of_stands hf rm s ne stands fine
  have overflow : Overflows f rm (sgn s * V) ↔ FPast f rm s m e := h.overflows_iff hf hrm
  have pos := h.pos
  by_cases big : Overflows f rm (sgn s * V)
  · have result := h.roundTo_past hf ne (overflow.1 big)
    rw [result]
    refine ⟨fun _ => ⟨rfl, ?_⟩, fun none => absurd big none⟩
    rw [overflowBits_eq s hrm]
    cases s
    · exact ⟨fun _ => by simp, fun neg => absurd neg (by simp [sgn]; exact pos.le)⟩
    · exact ⟨fun neg => absurd neg (by simp [sgn]; exact pos.le), fun _ => by simp⟩
  · obtain ⟨x, m', e', result, lt, un, value, parity⟩ := h.roundTo_fits hf ne (mt overflow.2 big)
    have finite := isFinite_of_unpack un
    have sign := unpack_sign un
    have val : (finVal f x : ℝ) = sgn s * ((fQuanta f rm s m e).1 * 2 ^ fQuantum f (topExp m e)) := by
      rw [finVal_of_unpack un, value]
    have moved : (fQuanta f rm s m e).2 = true ↔ (finVal f x : ℝ) ≠ sgn s * V := by
      have unit : (2 : ℝ) ^ fQuantum f (topExp m e) ≠ 0 := by positivity
      rw [h.inexact, val, ne_eq, ne_eq, mul_right_inj' (sgn_ne_zero s), eq_div_iff unit]
    have grid : ∀ y, isFinite f y = true →
        OnGrid (2 ^ f.mb) (V / 2 ^ fQuantum f (topExp m e)) ((finVal f y : ℝ) / 2 ^ fQuantum f (topExp m e)) := fun y hy => by
      refine (finVal_grid hf hy (q := fQuantum f (topExp m e)) (by unfold fQuantum; split <;> omega)).imp_right ?_
      rintro ⟨small, above⟩
      refine ⟨small, h.normal ?_⟩
      by_contra sub
      rw [fQuantum_subnormal (not_le.1 sub)] at above
      exact absurd above (lt_irrefl _)
    have tiny : (fQuanta f rm s m e).1 < 2 ^ f.mb ∨ fTiny f rm s m e = true ↔
        Tiny f rm (sgn s * V) :=
      ⟨fun t => t.elim (h.tiny_of_lt hf hrm) (h.tiny_iff hf hrm).2, fun t => .inr ((h.tiny_iff hf hrm).1 t)⟩
    rw [result]
    refine ⟨fun over_ => absurd over_ big, fun _ => ⟨finite, lt, nearest_of_roundsTo hrm pos.le h.rounds val parity grid, ?_, ?_, rfl,
      rfl, rfl, moved, ?_⟩⟩
    · rw [sign]
      cases s
      · exact fun _ => rfl
      · exact fun neg => absurd neg (by simp [sgn]; exact pos.le)
    · rw [sign]
      cases s
      · exact fun neg => absurd neg (by simp [sgn]; exact pos.le)
      · exact fun _ => rfl
    · simp only [Bool.and_eq_true, Bool.or_eq_true, decide_eq_true_eq]
      rw [moved, tiny]

end Sys2Proof.Machine
end

section
/-! Every operation of the long formats on finite numbers is its exact result rounded once (03 R65; 06 R148). -/

namespace Sys2Proof.Machine

variable {f : FFmt}

/-! ### Signs and zeros -/

theorem sgn_bne (s t : Bool) : sgn (s != t) = sgn s * sgn t := by
  cases s <;> cases t <;> simp [sgn]

theorem sgn_not (s : Bool) : sgn (!s) = -sgn s := by
  cases s <;> simp [sgn]

theorem fSign_fZero (s : Bool) : fSign f (fZero f s) = s := by
  rw [fZero_eq_fPattern, fSign_fPattern (by positivity) (by positivity)]

theorem fSign_fInf (s : Bool) : fSign f (fInf f s) = s := by
  have := Nat.one_le_two_pow (n := f.eb)
  exact fSign_fPattern (f := f) (ex := 2 ^ f.eb - 1) (fr := 0) (by omega) (by positivity)

theorem fSign_fMaxFin (hf : f.Proper) (s : Bool) : fSign f (fMaxFin f s) = s := by
  have top := hf.two_pow_eb
  have one := Nat.one_le_two_pow (n := f.mb)
  have pattern : fMaxFin f s = fPattern f s (2 ^ f.eb - 2) (2 ^ f.mb - 1) := by
    rw [fMaxFin, fInf, fPattern, show 2 ^ f.eb - 1 = 2 ^ f.eb - 2 + 1 by omega, Nat.add_mul]
    omega
  rw [pattern, fSign_fPattern (by omega) (by omega)]

/-- A rounded number has the sign of the exact one. -/
theorem Rounded.fSign_eq (hf : f.Proper) {rm : ℕ} {s : Bool} {V : ℝ} {r : ℕ × Exc} (pos : 0 < V)
    (h : Rounded f rm (sgn s * V) r) : fSign f r.1 = s := by
  obtain ⟨overflow, fits⟩ := h
  by_cases big : Overflows f rm (sgn s * V)
  · obtain ⟨-, plus, minus⟩ := overflow big
    cases s
    · rw [plus (by simpa [sgn] using pos)]
      split
      · exact fSign_fMaxFin hf _
      · exact fSign_fInf _
    · rw [minus (by simpa [sgn] using pos)]
      split
      · exact fSign_fMaxFin hf _
      · exact fSign_fInf _
  · obtain ⟨-, -, -, plus, minus, -⟩ := fits big
    cases s
    · exact plus (by simpa [sgn] using pos)
    · exact minus (by simpa [sgn] using pos)

theorem not_overflows_zero (rm : ℕ) : ¬ Overflows f rm 0 := by
  have top : (0 : ℝ) < 2 ^ (fEmax f + 1) := by positivity
  have last : (2 : ℝ) ^ (fEmax f - f.mb) ≤ 2 ^ (fEmax f + 1) := zpow_le_zpow_right₀ one_le_two (by omega)
  match rm with
  | 0 | 1 | _ + 4 =>
    simp only [Overflows, abs_zero]
    linarith
  | 2 | 3 =>
    simp only [Overflows]
    rintro (h | h) <;> linarith

/-- Zero is written as a zero. -/
theorem rounded_zero (rm : ℕ) {x : ℕ} (hx : x < 2 ^ (1 + f.eb + f.mb)) {s : Bool} {e : ℤ} (h : unpack f x = .fin s 0 e) :
    Rounded f rm 0 (x, excNone) := by
  have val : (finVal f x : ℝ) = 0 := by rw [finVal_of_unpack h]; simp
  refine ⟨fun big => absurd big (not_overflows_zero rm), fun _ => ⟨isFinite_of_unpack h, hx, fun y _ => ?_,
    fun lt => absurd lt (lt_irrefl _), fun lt => absurd lt (lt_irrefl _), rfl, rfl, rfl, ?_, ?_⟩⟩
  · match rm with
    | 0 => exact ⟨by simp [val], fun tie => .inl (by simpa [val] using tie.symm)⟩
    | 1 => exact ⟨by simp [val], fun tie => by rw [val, abs_zero, ← sub_zero (finVal f y : ℝ), ← tie, val]; simp⟩
    | 2 | 3 | _ + 4 => simp [val]
  · simp [val, excNone]
  · simp [val, excNone]

theorem rounded_fZero (hf : f.Proper) (rm : ℕ) (s : Bool) : Rounded f rm 0 (fZero f s, excNone) := by
  refine rounded_zero rm ?_ (unpack_fZero hf s)
  rw [fZero_eq_fPattern]
  exact fPattern_lt (by positivity) (by positivity)

/-- An exact magnitude is rounded once. -/
theorem roundTo_exact (hf : f.Proper) {rm : ℕ} (hrm : rm < 5) (s : Bool) (m : ℕ) (e : ℤ) :
    Rounded f rm (sgn s * (m * 2 ^ e)) (roundTo f rm s m e) := by
  by_cases zero : m = 0
  · rw [zero, roundTo, if_pos rfl]
    simpa using rounded_fZero hf rm s
  · exact roundTo_rounded hf hrm s zero (.inl rfl) (.inl rfl)

theorem fSign_roundTo_of_rounded (hf : f.Proper) {rm : ℕ} {s : Bool} {m : ℕ} {e : ℤ} {V : ℝ} (pos : m ≠ 0 → 0 < V)
    (h : Rounded f rm (sgn s * V) (roundTo f rm s m e)) : fSign f (roundTo f rm s m e).1 = s := by
  by_cases zero : m = 0
  · rw [roundTo, if_pos zero, fSign_fZero]
  · exact h.fSign_eq hf (pos zero)

/-! ### Sums -/

theorem align_scale {m : ℕ} {e g : ℤ} (le : g ≤ e) : ((m * 2 ^ (e - g).toNat : ℕ) : ℝ) * 2 ^ g = m * 2 ^ e := by
  have exp : e = (e - g).toNat + g := by omega
  conv_rhs => rw [exp, zpow_add₀ two_ne_zero, zpow_natCast]
  push_cast
  ring

/-- `exactSum` is the exact sum. -/
theorem exactSum_value (s₁ : Bool) (m₁ : ℕ) (e₁ : ℤ) (s₂ : Bool) (m₂ : ℕ) (e₂ : ℤ) :
    sgn (exactSum s₁ m₁ e₁ s₂ m₂ e₂).1 * ((exactSum s₁ m₁ e₁ s₂ m₂ e₂).2.1 * 2 ^ (exactSum s₁ m₁ e₁ s₂ m₂ e₂).2.2) =
      sgn s₁ * (m₁ * 2 ^ e₁) + sgn s₂ * (m₂ * 2 ^ e₂) := by
  simp only [exactSum]
  obtain ⟨g, hg, le₁, le₂⟩ : ∃ g, g = (if e₁ ≤ e₂ then e₁ else e₂) ∧ g ≤ e₁ ∧ g ≤ e₂ :=
    ⟨_, rfl, by split <;> omega, by split <;> omega⟩
  rw [← hg, ← mul_assoc, sgn_natAbs, ← align_scale le₁, ← align_scale le₂]
  have signed : ∀ (s : Bool) (a : ℕ), (((if s then -(a : ℤ) else (a : ℤ)) : ℤ) : ℝ) = sgn s * a := fun s a => by
    cases s <;> simp [sgn]
  rw [Int.cast_add, signed, signed]
  ring

/-- A sum is rounded once; one that is exactly zero has the sign of the rule for zeros. -/
theorem addVals_rounded (hf : f.Proper) {rm : ℕ} (hrm : rm < 5) (s₁ : Bool) (m₁ : ℕ) (e₁ : ℤ) (s₂ : Bool) (m₂ : ℕ) (e₂ : ℤ) :
    Rounded f rm (sgn s₁ * (m₁ * 2 ^ e₁) + sgn s₂ * (m₂ * 2 ^ e₂)) (addVals f rm s₁ m₁ e₁ s₂ m₂ e₂) ∧
      (sgn s₁ * (m₁ * 2 ^ e₁) + sgn s₂ * (m₂ * 2 ^ e₂) = 0 →
        fSign f (addVals f rm s₁ m₁ e₁ s₂ m₂ e₂).1 = zeroSumSign rm s₁ s₂) := by
  rw [← exactSum_value, addVals]
  by_cases zero : (exactSum s₁ m₁ e₁ s₂ m₂ e₂).2.1 = 0
  · simp only [if_pos zero]
    refine ⟨?_, fun _ => fSign_fZero _⟩
    simpa [zero] using rounded_fZero hf rm (zeroSumSign rm s₁ s₂)
  · simp only [if_neg zero]
    refine ⟨roundTo_exact hf hrm _ _ _, fun none => absurd none ?_⟩
    have sign := sgn_ne_zero (exactSum s₁ m₁ e₁ s₂ m₂ e₂).1
    have mag : ((exactSum s₁ m₁ e₁ s₂ m₂ e₂).2.1 : ℝ) ≠ 0 := Nat.cast_ne_zero.2 zero
    positivity

/-- The pattern with its sign changed. -/
theorem unpack_fNeg (hf : f.Proper) {y : ℕ} (hy : y < 2 ^ (1 + f.eb + f.mb)) {s : Bool} {m : ℕ} {e : ℤ}
    (h : unpack f y = .fin s m e) : unpack f (fNeg f y) = .fin (!s) m e := by
  have frac : y % 2 ^ f.mb < 2 ^ f.mb := Nat.mod_lt _ (by positivity)
  have whole := eq_fPattern hy
  rw [unpack_sign h] at whole
  have neg : fNeg f y = fPattern f (!s) (y / 2 ^ f.mb % 2 ^ f.eb) (y % 2 ^ f.mb) := by
    rw [fNeg, unpack_sign h]
    conv_lhs => rw [whole]
    cases s <;> simp [fPattern, fSignBit, b2n] <;> omega
  rw [neg]
  obtain ⟨-, ⟨zero, rfl, rfl⟩ | ⟨pos, top, rfl, rfl⟩⟩ := unpack_fin h
  · rw [zero, unpack_subnormal hf frac]
  · rw [unpack_normal pos top frac]

/-! ### Quotients and roots: whole parts with a sticky bit -/

/-- A whole part with a bit behind it that says whether anything follows stands for the number. -/
theorem stands_sticky {Q : ℕ} {more : Bool} {X : ℝ} (e : ℤ) (whole : more = false → X = Q)
    (part : more = true → (Q : ℝ) < X ∧ X < Q + 1) : Stands (2 * Q + b2n more) (e - 1) (X * 2 ^ e) ∧
      (more = false → X * 2 ^ e = (2 * Q + b2n more : ℕ) * 2 ^ (e - 1)) := by
  have half : (2 : ℝ) ^ e = 2 * 2 ^ (e - 1) := by rw [zpow_sub_one₀ two_ne_zero]; ring
  have unit : (0 : ℝ) < 2 ^ (e - 1) := by positivity
  cases more
  · have value : X * 2 ^ e = (2 * Q + b2n false : ℕ) * 2 ^ (e - 1) := by
      rw [whole rfl, half]
      simp [b2n]
      ring
    exact ⟨.inl value, fun _ => value⟩
  · obtain ⟨low, high⟩ := part rfl
    refine ⟨.inr ⟨by simp [b2n], ?_, ?_⟩, fun no => nomatch no⟩
    · rw [half]
      simp only [b2n, if_true]
      push_cast
      nlinarith
    · rw [half]
      simp only [b2n, if_true]
      push_cast
      nlinarith

/-- Rounding a whole part of enough bits with its sticky bit rounds the number once. -/
theorem sticky_rounded (hf : f.Proper) {rm : ℕ} (hrm : rm < 5) (s : Bool) {Q : ℕ} {more : Bool} {X : ℝ} (e : ℤ)
    (whole : more = false → X = Q) (part : more = true → (Q : ℝ) < X ∧ X < Q + 1) (bits : more = true → 2 ^ (f.mb + 1) ≤ Q) :
    Rounded f rm (sgn s * (X * 2 ^ e)) (roundTo f rm s (2 * Q + b2n more) (e - 1)) := by
  obtain ⟨stands, exact_⟩ := stands_sticky e whole part
  cases more
  · rw [exact_ rfl]
    exact roundTo_exact hf hrm s _ _
  · have large : 2 ^ (f.mb + 2) ≤ 2 * Q + b2n true := by
      have := bits rfl
      rw [pow_succ] at this ⊢
      omega
    have ne : 2 * Q + b2n true ≠ 0 := by simp [b2n]
    exact roundTo_rounded hf hrm s ne stands (.inr ((Nat.le_log2 ne).2 large))

/-- The quotient of two magnitudes, the divisor not zero. -/
theorem quotient_rounded (hf : f.Proper) {rm : ℕ} (hrm : rm < 5) (s : Bool) (m₁ : ℕ) {m₂ : ℕ} (e₁ e₂ : ℤ) (ne : m₂ ≠ 0) :
    Rounded f rm (sgn s * (m₁ * 2 ^ e₁ / (m₂ * 2 ^ e₂)))
      (roundTo f rm s (2 * (m₁ * 2 ^ (f.mb + 4 + Nat.log2 m₂) / m₂) +
          b2n (decide (m₁ * 2 ^ (f.mb + 4 + Nat.log2 m₂) % m₂ ≠ 0))) (e₁ - e₂ - (f.mb + 4 + Nat.log2 m₂ : ℕ) - 1)) := by
  generalize hk : f.mb + 4 + Nat.log2 m₂ = k
  obtain ⟨n, hn⟩ : ∃ n, n = m₁ * 2 ^ k := ⟨_, rfl⟩
  have pos : (0 : ℝ) < m₂ := by exact_mod_cast Nat.pos_of_ne_zero ne
  have value : (m₁ : ℝ) * 2 ^ e₁ / (m₂ * 2 ^ e₂) = n / m₂ * 2 ^ (e₁ - e₂ - k) := by
    rw [hn, zpow_sub₀ two_ne_zero, zpow_sub₀ two_ne_zero, zpow_natCast]
    push_cast
    field_simp
  have parts : (n : ℝ) / m₂ = (n / m₂ : ℕ) + (n % m₂ : ℕ) / m₂ := by
    rw [div_eq_iff pos.ne', add_mul, div_mul_cancel₀ _ pos.ne']
    exact_mod_cast (Nat.div_add_mod' n m₂).symm
  have lt : ((n % m₂ : ℕ) : ℝ) < m₂ := by exact_mod_cast Nat.mod_lt n (Nat.pos_of_ne_zero ne)
  rw [← hn, value]
  refine sticky_rounded hf hrm s _ (fun no => ?_) (fun yes => ?_) (fun yes => ?_)
  · have zero : n % m₂ = 0 := by simpa using no
    rw [parts, zero]
    simp
  · have some : 0 < n % m₂ := Nat.pos_of_ne_zero (by simpa using yes)
    have some : (0 : ℝ) < (n % m₂ : ℕ) := by exact_mod_cast some
    rw [parts]
    exact ⟨lt_add_of_pos_right _ (div_pos some pos), add_lt_add_right ((div_lt_one pos).2 lt) _⟩
  · have some : m₁ ≠ 0 := by
      rintro rfl
      simp [hn] at yes
    rw [Nat.le_div_iff_mul_le (Nat.pos_of_ne_zero ne)]
    calc 2 ^ (f.mb + 1) * m₂ ≤ 2 ^ (f.mb + 1) * 2 ^ (Nat.log2 m₂ + 1) := Nat.mul_le_mul_left _ Nat.lt_log2_self.le
      _ = 2 ^ (f.mb + 2 + Nat.log2 m₂) := by rw [← pow_add]; congr 1; omega
      _ ≤ 2 ^ k := Nat.pow_le_pow_right (by decide) (by omega)
      _ ≤ n := by rw [hn]; exact Nat.le_mul_of_pos_left _ (Nat.pos_of_ne_zero some)

/-! ### The integer square root -/

theorem isqrtFrom_spec {n : ℕ} (i r : ℕ) (low : r * r ≤ n) (high : n < (r + 2 ^ (i + 1)) * (r + 2 ^ (i + 1))) :
    isqrtFrom n i r * isqrtFrom n i r ≤ n ∧ n < (isqrtFrom n i r + 1) * (isqrtFrom n i r + 1) := by
  induction i generalizing r with
  | zero =>
    rw [isqrtFrom]
    split
    · exact ⟨‹_›, high⟩
    · exact ⟨low, not_le.1 ‹_›⟩
  | succ i ih =>
    rw [isqrtFrom]
    split
    · refine ih _ ‹_› ?_
      rwa [add_assoc, ← two_mul, ← pow_succ']
    · exact ih _ low (not_le.1 ‹_›)

/-- `isqrt` is the integer square root. -/
theorem isqrt_spec (n : ℕ) : isqrt n * isqrt n ≤ n ∧ n < (isqrt n + 1) * (isqrt n + 1) := by
  refine isqrtFrom_spec _ _ (Nat.zero_le _) ?_
  rw [Nat.zero_add, ← pow_add]
  exact Nat.lt_log2_self.trans_le (Nat.pow_le_pow_right (by decide) (by omega))

/-- The square root of a magnitude. -/
theorem root_rounded (hf : f.Proper) {rm : ℕ} (hrm : rm < 5) {m : ℕ} (e : ℤ) {k : ℕ} (ne : m ≠ 0) (wide : 2 * (f.mb + 4) ≤ k)
    (even : (e - k) % 2 = 0) : Rounded f rm (Real.sqrt (m * 2 ^ e))
      (roundTo f rm false (2 * isqrt (m * 2 ^ k) + b2n (decide (isqrt (m * 2 ^ k) * isqrt (m * 2 ^ k) ≠ m * 2 ^ k)))
        ((e - k) / 2 - 1)) := by
  obtain ⟨n, hn⟩ : ∃ n, n = m * 2 ^ k := ⟨_, rfl⟩
  obtain ⟨low, high⟩ := isqrt_spec n
  have value : Real.sqrt (m * 2 ^ e) = Real.sqrt n * 2 ^ ((e - k) / 2) := by
    have square : (m : ℝ) * 2 ^ e = n * (2 ^ ((e - k) / 2)) ^ 2 := by
      rw [hn, ← zpow_natCast ((2 : ℝ) ^ ((e - k) / 2)), ← zpow_mul, show (e - k) / 2 * (2 : ℕ) = e - k by push_cast; omega]
      push_cast
      rw [mul_assoc, ← zpow_natCast, ← zpow_add₀ two_ne_zero]
      congr 2
      ring
    rw [square, Real.sqrt_mul (by positivity), Real.sqrt_sq (by positivity)]
  rw [← hn, value, ← one_mul (Real.sqrt n * _)]
  refine sticky_rounded hf hrm false _ (fun no => ?_) (fun yes => ?_) (fun _ => ?_)
  · have square : isqrt n * isqrt n = n := by simpa using no
    rw [Real.sqrt_eq_iff_mul_self_eq (by positivity) (by positivity)]
    exact_mod_cast square.symm
  · have ne : isqrt n * isqrt n ≠ n := by simpa using yes
    constructor
    · rw [Real.lt_sqrt (by positivity), sq]
      exact_mod_cast lt_of_le_of_ne low ne
    · rw [Real.sqrt_lt' (by positivity), sq]
      exact_mod_cast high
  · by_contra small
    have small : isqrt n + 1 ≤ 2 ^ (f.mb + 1) := not_le.1 small
    have := Nat.mul_le_mul small small
    rw [← pow_add] at this
    have wide : 2 ^ (f.mb + 1 + (f.mb + 1)) ≤ 2 ^ k := Nat.pow_le_pow_right (by decide) (by omega)
    have : 2 ^ k ≤ n := by rw [hn]; exact Nat.le_mul_of_pos_left _ (Nat.pos_of_ne_zero ne)
    omega

/-! ### The operations on finite numbers -/

theorem isNaN_of_finite {x : ℕ} {s : Bool} {m : ℕ} {e : ℤ} (h : unpack f x = .fin s m e) : isNaN f x = false := by
  simp only [isNaN, h]

theorem isInf_of_finite {x : ℕ} {s : Bool} {m : ℕ} {e : ℤ} (h : unpack f x = .fin s m e) : isInf f x = false := by
  simp only [isInf, h]

section
variable (rm : ℕ) {x y z : ℕ} {s₁ s₂ s₃ : Bool} {m₁ m₂ m₃ : ℕ} {e₁ e₂ e₃ : ℤ}
  (hx : unpack f x = .fin s₁ m₁ e₁) (hy : unpack f y = .fin s₂ m₂ e₂) (hz : unpack f z = .fin s₃ m₃ e₃)

include hx

theorem fSqrt_zero (none : m₁ = 0) : fSqrt f rm x = (x, excNone) := by
  simp only [fSqrt, hx, if_pos none]

theorem fSqrt_negative (some : m₁ ≠ 0) (neg : s₁ = true) : fSqrt f rm x = fInvalid f := by
  simp only [fSqrt, hx, if_neg some, if_pos neg]

/-- The root of a number that is not negative is rounded once. -/
theorem fSqrt_rounded (hf : f.Proper) {rm : ℕ} (hrm : rm < 5) (hlt : x < 2 ^ (1 + f.eb + f.mb)) (ok : m₁ = 0 ∨ s₁ = false) :
    Rounded f rm (Real.sqrt (sgn s₁ * (m₁ * 2 ^ e₁))) (fSqrt f rm x) := by
  by_cases none : m₁ = 0
  · rw [fSqrt_zero rm hx none, none]
    simp only [Nat.cast_zero, zero_mul, mul_zero, Real.sqrt_zero]
    exact rounded_zero rm hlt (none ▸ hx)
  · simp only [fSqrt, hx, if_neg none, ok.resolve_left none, Bool.false_eq_true, if_false]
    rw [show sgn false = 1 from rfl, one_mul]
    exact root_rounded hf hrm e₁ none (Nat.le_add_right _ _) (by split <;> push_cast <;> omega)

include hy

theorem fAdd_finite : fAdd f rm x y = addVals f rm s₁ m₁ e₁ s₂ m₂ e₂ := by
  simp only [fAdd, hx, hy]

theorem fSub_finite (hf : f.Proper) (hlt : y < 2 ^ (1 + f.eb + f.mb)) :
    fSub f rm x y = addVals f rm s₁ m₁ e₁ (!s₂) m₂ e₂ := by
  rw [fSub, isNaN_of_finite hx, isNaN_of_finite hy, if_neg (by decide), fAdd_finite rm hx (unpack_fNeg hf hlt hy)]

theorem fMul_finite : fMul f rm x y = roundTo f rm (s₁ != s₂) (m₁ * m₂) (e₁ + e₂) := by
  simp only [fMul, hx, hy]

theorem fDiv_finite (ne : m₂ ≠ 0) : fDiv f rm x y = roundTo f rm (s₁ != s₂)
    (2 * (m₁ * 2 ^ (f.mb + 4 + Nat.log2 m₂) / m₂) + b2n (decide (m₁ * 2 ^ (f.mb + 4 + Nat.log2 m₂) % m₂ ≠ 0)))
    (e₁ - e₂ - (f.mb + 4 + Nat.log2 m₂ : ℕ) - 1) := by
  simp only [fDiv, hx, hy, if_neg ne]

theorem fDiv_zero (none : m₂ = 0) : fDiv f rm x y = if m₁ = 0 then fInvalid f else (fInf f (s₁ != s₂), excDz) := by
  simp only [fDiv, hx, hy, if_pos none]

include hz in
theorem fFma_finite : fFma f rm x y z = addVals f rm (s₁ != s₂) (m₁ * m₂) (e₁ + e₂) s₃ m₃ e₃ := by
  have number : (isNaN f x || isNaN f y || isNaN f z) = false := by
    rw [isNaN_of_finite hx, isNaN_of_finite hy, isNaN_of_finite hz]; rfl
  have valid : zeroTimesInf f x y = false := by
    simp [zeroTimesInf, isInf_of_finite hx, isInf_of_finite hy]
  simp only [fFma, number, valid, Bool.false_eq_true, if_false, hx, hy, hz]

/-- The exact product of two finite numbers. -/
theorem product_value : (finVal f x : ℝ) * finVal f y = sgn (s₁ != s₂) * ((m₁ * m₂ : ℕ) * 2 ^ (e₁ + e₂)) := by
  rw [finVal_of_unpack hx, finVal_of_unpack hy, sgn_bne, zpow_add₀ two_ne_zero]
  push_cast
  ring

theorem quotient_value : (finVal f x : ℝ) / finVal f y = sgn (s₁ != s₂) * (m₁ * 2 ^ e₁ / (m₂ * 2 ^ e₂)) := by
  rw [finVal_of_unpack hx, finVal_of_unpack hy, sgn_bne, mul_div_mul_comm]
  congr 1
  cases s₁ <;> cases s₂ <;> norm_num [sgn]

end

/-- A finite number is zero exactly when its significand is. -/
theorem finVal_eq_zero_iff {x : ℕ} {s : Bool} {m : ℕ} {e : ℤ} (h : unpack f x = .fin s m e) : (finVal f x : ℝ) = 0 ↔ m = 0 := by
  rw [finVal_of_unpack h, mul_eq_zero, mul_eq_zero, Nat.cast_eq_zero]
  have sign := sgn_ne_zero s
  have scale : (2 : ℝ) ^ e ≠ 0 := by positivity
  simp only [sign, scale, false_or, or_false]

theorem finVal_neg_iff {x : ℕ} {s : Bool} {m : ℕ} {e : ℤ} (h : unpack f x = .fin s m e) :
    (finVal f x : ℝ) < 0 ↔ m ≠ 0 ∧ s = true := by
  have scale : (0 : ℝ) < 2 ^ e := by positivity
  have magnitude : (0 : ℝ) < m * 2 ^ e ↔ m ≠ 0 := by
    rw [mul_pos_iff_of_pos_right scale, Nat.cast_pos, Nat.pos_iff_ne_zero]
  rw [finVal_of_unpack h, ← magnitude]
  cases s
  · simpa [sgn] using by positivity
  · simp [sgn]

end Sys2Proof.Machine

open Sys2Proof.Machine in
/-- Settles O7: every operation on finite numbers hands `roundTo` a magnitude that stands for its exact result, and `roundTo` rounds
that once. -/
theorem longFormatsExact : Obligations.LongFormatsExact := by
  unfold Obligations.LongFormatsExact
  intro f mem
  have hf := proper_of_long mem
  refine ⟨fun rm x s m e => roundTo_unpack hf rm, ?_⟩
  intro rm x y z hrm hx hy hz finx finy finz u v w s
  obtain ⟨s₁, m₁, e₁, ux⟩ := isFinite_iff.1 finx
  obtain ⟨s₂, m₂, e₂, uy⟩ := isFinite_iff.1 finy
  obtain ⟨s₃, m₃, e₃, uz⟩ := isFinite_iff.1 finz
  have sx := unpack_sign ux
  have sy := unpack_sign uy
  have sz := unpack_sign uz
  have sum : u + v = sgn s₁ * (m₁ * 2 ^ e₁) + sgn s₂ * (m₂ * 2 ^ e₂) := by
    rw [← finVal_of_unpack ux, ← finVal_of_unpack uy]
  have difference : u - v = sgn s₁ * (m₁ * 2 ^ e₁) + sgn (!s₂) * (m₂ * 2 ^ e₂) := by
    rw [sgn_not, neg_mul, ← finVal_of_unpack ux, ← finVal_of_unpack uy, ← sub_eq_add_neg]
  have fused : u * v + w = sgn (s₁ != s₂) * ((m₁ * m₂ : ℕ) * 2 ^ (e₁ + e₂)) + sgn s₃ * (m₃ * 2 ^ e₃) := by
    rw [← product_value ux uy, ← finVal_of_unpack uz]
  have root : u = sgn s₁ * (m₁ * 2 ^ e₁) := finVal_of_unpack ux
  have zero_u : u = 0 ↔ m₁ = 0 := finVal_eq_zero_iff ux
  have zero_v : v = 0 ↔ m₂ = 0 := finVal_eq_zero_iff uy
  have neg_u : u < 0 ↔ m₁ ≠ 0 ∧ s₁ = true := finVal_neg_iff ux
  obtain ⟨add, add_zero⟩ := addVals_rounded hf hrm s₁ m₁ e₁ s₂ m₂ e₂
  obtain ⟨sub, sub_zero⟩ := addVals_rounded hf hrm s₁ m₁ e₁ (!s₂) m₂ e₂
  obtain ⟨fma, fma_zero⟩ := addVals_rounded hf hrm (s₁ != s₂) (m₁ * m₂) (e₁ + e₂) s₃ m₃ e₃
  have mul := roundTo_exact hf hrm (s₁ != s₂) (m₁ * m₂) (e₁ + e₂)
  have scale : ∀ e : ℤ, (0 : ℝ) < 2 ^ e := fun e => by positivity
  rw [fAdd_finite rm ux uy, fSub_finite rm ux uy hf hy, fMul_finite rm ux uy, fFma_finite rm ux uy uz, sum, difference, fused,
    show s = (s₁ != s₂) by rw [← sx, ← sy], sx, sy, sz]
  refine ⟨add, sub, ?_, fma, fun ne => ?_, fun nonneg => ?_, add_zero, fun none => ?_, fma_zero, ?_, fun ne => ?_, fun none => ?_,
    fun none some => ?_, fun none zero => ?_, fun neg => ?_⟩
  · rw [show u * v = _ from product_value ux uy]
    exact mul
  · have ne := mt zero_v.2 ne
    rw [fDiv_finite rm ux uy ne, show u / v = _ from quotient_value ux uy]
    exact quotient_rounded hf hrm _ m₁ e₁ e₂ ne
  · rw [root]
    refine fSqrt_rounded ux hf hrm hx ?_
    by_contra neither
    have neg : u < 0 := neg_u.2 (by simpa using neither)
    exact absurd nonneg (not_le.2 neg)
  · rw [sub_zero none]
    cases s₁ <;> cases s₂ <;> simp [zeroSumSign]
  · refine fSign_roundTo_of_rounded hf (fun some => ?_) mul
    exact mul_pos (Nat.cast_pos.2 (Nat.pos_of_ne_zero some)) (scale _)
  · have ne := mt zero_v.2 ne
    rw [fDiv_finite rm ux uy ne]
    refine fSign_roundTo_of_rounded hf (fun some => ?_) (quotient_rounded hf hrm _ m₁ e₁ e₂ ne)
    have some : m₁ ≠ 0 := by
      rintro rfl
      simp [b2n] at some
    exact div_pos (mul_pos (Nat.cast_pos.2 (Nat.pos_of_ne_zero some)) (scale _))
      (mul_pos (Nat.cast_pos.2 (Nat.pos_of_ne_zero ne)) (scale _))
  · rw [fSqrt_zero rm ux (zero_u.1 none)]
  · rw [fDiv_zero rm ux uy (zero_v.1 none), if_neg (mt zero_u.2 some)]
    rfl
  · rw [fDiv_zero rm ux uy (zero_v.1 none), if_pos (zero_u.1 zero)]
    rfl
  · obtain ⟨some, minus⟩ := neg_u.1 neg
    rw [fSqrt_negative rm ux some minus]
    rfl
end

section
/-! The fold of a pair into the sum and the error word of an accumulator (05 R114; 03 R66, R72). -/

namespace Sys2Proof.Machine

variable {r : Nat × Exc} {x y : Nat}

theorem fNaN_b32 : fNaN b32 = 0x7FC00000 := rfl

theorem unpack_fNaN_b32 : unpack b32 (fNaN b32) = .nan false := by decide

/-- What a pattern is, when it is no number. -/
theorem isInf_of_not_finite {f : FFmt} {x : Nat} (number : isNaN f x = false) (infinite : isFinite f x = false) :
    isInf f x = true := by
  cases h : unpack f x with
  | nan sig => simp [isNaN, h] at number
  | inf s => simp [isInf, h]
  | fin s m e => simp [isFinite, h] at infinite

theorem not_nan_of_finite {f : FFmt} {x : Nat} (h : isFinite f x = true) : isNaN f x = false ∧ isInf f x = false := by
  obtain ⟨s, m, e, h⟩ := isFinite_iff.1 h
  simp [isNaN, isInf, h]

theorem plStep_finite (h : isFinite b32 r.1 = true) : plStep r x y = (r.1, {}) := by
  obtain ⟨number, finite⟩ := not_nan_of_finite h
  simp [plStep, number, finite]

theorem plStep_nan (h : isNaN b32 r.1 = true) :
    plStep r x y = (fNaN b32, if isNaN b32 x || isNaN b32 y then {} else tallyFlags fINV) := by
  rw [plStep, if_pos h]

theorem plStep_inf (number : isNaN b32 r.1 = false) (h : isInf b32 r.1 = true) :
    plStep r x y = (r.1, if isFinite b32 x && isFinite b32 y then tallyFlags fOVF else {}) := by
  by_cases finite : (isFinite b32 x && isFinite b32 y) = true
  · simp [plStep, number, h, finite]
  · simp [plStep, number, h, finite]

/-- A step counts no flush. -/
theorem plStep_flush : (plStep r x y).2.flush = 0 := by
  by_cases number : isNaN b32 r.1 = true
  · rw [plStep_nan number]
    split <;> rfl
  · unfold plStep
    rw [if_neg number]
    split <;> rfl

theorem plErr_eq : (plErr x y).1 = (flush32 (fAdd b32 0 x y).1).1 ∧ (plErr x y).2.flush = (flush32 (fAdd b32 0 x y).1).2.flush := by
  refine ⟨rfl, ?_⟩
  show (plStep (fAdd b32 0 x y) x y).2.flush + _ = _
  rw [plStep_flush, Nat.zero_add]

section
variable {sum err hi lo : Nat}

/-- A finite sum leaves the error of the addition, with the low word, to the error word. -/
theorem foldWords_finite (h : isFinite b32 (fAdd b32 0 sum hi).1 = true) :
    (foldWords sum err hi lo).1 = (flush32 (fAdd b32 0 sum hi).1).1 ∧
      (foldWords sum err hi lo).2.1 = (plErr err (plErr (twoSumErr (fAdd b32 0 sum hi).1 sum hi) lo).1).1 ∧
      (foldWords sum err hi lo).2.2.flush = (plErr (twoSumErr (fAdd b32 0 sum hi).1 sum hi) lo).2.flush +
        (plErr err (plErr (twoSumErr (fAdd b32 0 sum hi).1 sum hi) lo).1).2.flush + (flush32 (fAdd b32 0 sum hi).1).2.flush := by
  simp only [foldWords, plStep_finite h, h, if_true, tallyAdd]
  exact ⟨trivial, trivial, by omega⟩

/-- A sum that is no number leaves the default NaN or its infinity, and no error. -/
theorem foldWords_not_finite (h : isFinite b32 (fAdd b32 0 sum hi).1 = false) :
    foldWords sum err hi lo =
      ((plStep (fAdd b32 0 sum hi) sum hi).1, 0, (plStep (fAdd b32 0 sum hi) sum hi).2) := by
  have same : isFinite b32 (plStep (fAdd b32 0 sum hi) sum hi).1 = false := by
    by_cases number : isNaN b32 (fAdd b32 0 sum hi).1 = true
    · simp [plStep_nan number, isFinite, unpack_fNaN_b32]
    · have number := Bool.eq_false_iff.2 number
      rw [plStep_inf number (isInf_of_not_finite number h)]
      exact h
  simp only [foldWords, same, Bool.false_eq_true, if_false]

end

/-- The words and flags of a fold whose sum is no number. -/
theorem foldWords_special {sum err hi lo : Nat} (h : isFinite b32 (fAdd b32 0 sum hi).1 = false) :
    (foldWords sum err hi lo).1 = (if isNaN b32 (fAdd b32 0 sum hi).1 then 0x7FC00000 else (fAdd b32 0 sum hi).1) ∧
      (foldWords sum err hi lo).2.1 = 0 ∧
      (foldWords sum err hi lo).2.2.flags = if isNaN b32 (fAdd b32 0 sum hi).1 then
          (if isNaN b32 sum || isNaN b32 hi then 0 else fINV)
        else if isFinite b32 sum && isFinite b32 hi then fOVF else 0 := by
  rw [foldWords_not_finite h]
  by_cases number : isNaN b32 (fAdd b32 0 sum hi).1 = true
  · rw [plStep_nan number, if_pos number, if_pos number]
    refine ⟨fNaN_b32, rfl, ?_⟩
    split <;> rfl
  · have number := Bool.eq_false_iff.2 number
    rw [plStep_inf number (isInf_of_not_finite number h)]
    simp only [number, Bool.false_eq_true, if_false]
    refine ⟨trivial, trivial, ?_⟩
    split <;> rfl

end Sys2Proof.Machine
end

section
/-! Rounding depends on the value alone, and a binary32 datum as a whole number of units of 2^-400 (03 R62, R66). -/

namespace Sys2Proof.Machine

/-! ### One value in two forms -/

section
variable {f : FFmt} (rm : ℕ) (s : Bool) {m : ℕ} (e : ℤ) (k : ℕ)

theorem log2_mul_two_pow (ne : m ≠ 0) : Nat.log2 (m * 2 ^ k) = Nat.log2 m + k := by
  rw [Nat.log2_eq_iff (by positivity), pow_add, show Nat.log2 m + k + 1 = Nat.log2 m + 1 + k by omega, pow_add]
  exact ⟨Nat.mul_le_mul_right _ (Nat.log2_self_le ne), Nat.mul_lt_mul_of_pos_right Nat.lt_log2_self (by positivity)⟩

theorem topExp_mul_two_pow (ne : m ≠ 0) : topExp (m * 2 ^ k) e = topExp m (e + k) := by
  rw [topExp, topExp, log2_mul_two_pow k ne]
  push_cast
  ring

/-- Nothing behind the quantum is not rounded up, whatever the rounding mode. -/
theorem roundsUp_zero (n sh : ℕ) : roundsUp rm s n 0 sh = false := by
  have pos : 0 < 2 ^ sh := by positivity
  have ne : (0 : ℕ) ≠ 2 ^ sh := pos.ne
  simp [roundsUp, ne]

theorem roundsUp_mul_two_pow (n rem sh : ℕ) : roundsUp rm s n (2 ^ k * rem) (k + sh) = roundsUp rm s n rem sh := by
  have pos : 0 < 2 ^ k := by positivity
  have double : 2 * (2 ^ k * rem) = 2 ^ k * (2 * rem) := by ring
  have zero : 2 ^ k * rem = 0 ↔ rem = 0 := by simp
  simp only [roundsUp, double, pow_add, gt_iff_lt, ge_iff_le, Nat.mul_lt_mul_left pos, Nat.mul_le_mul_left_iff pos,
    Nat.mul_right_inj pos.ne', ne_eq, zero]

theorem roundQuantum_mul_two_pow (q : ℤ) : roundQuantum rm s (m * 2 ^ k) e q = roundQuantum rm s m (e + k) q := by
  obtain coarse | between | fine : q ≤ e ∨ (e < q ∧ q ≤ e + k) ∨ e + k < q := by omega
  · rw [roundQuantum, if_pos coarse, roundQuantum, if_pos (by omega), mul_assoc, ← pow_add]
    congr 3
    omega
  · obtain ⟨above, le⟩ := between
    have split : m * 2 ^ k = m * 2 ^ (e + k - q).toNat * 2 ^ (q - e).toNat := by
      rw [mul_assoc, ← pow_add]
      congr 2
      omega
    rw [roundQuantum, if_neg (not_le.2 above), roundQuantum, if_pos le]
    simp only [split, Nat.mul_mod_left, Nat.mul_div_left _ (Nat.two_pow_pos _), roundsUp_zero, Bool.false_eq_true, if_false,
      ne_eq, not_true, decide_false]
  · have shift : (q - e).toNat = k + (q - (e + k)).toNat := by omega
    rw [roundQuantum, if_neg (by omega), roundQuantum, if_neg (not_le.2 fine)]
    simp only [shift, mul_comm m]
    rw [Nat.pow_add, Nat.mul_div_mul_left _ _ (Nat.two_pow_pos _), Nat.mul_mod_mul_left, roundsUp_mul_two_pow]
    simp

theorem roundTo_mul_two_pow : roundTo f rm s (m * 2 ^ k) e = roundTo f rm s m (e + k) := by
  by_cases zero : m = 0
  · simp [zero, roundTo]
  · have ne : m * 2 ^ k ≠ 0 := by positivity
    rw [roundTo_eq _ _ _ ne, roundTo_eq _ _ _ zero]
    simp only [fTiny, fQuanta, topExp_mul_two_pow e k zero, roundQuantum_mul_two_pow]

end

/-- Two forms of one value differ in trailing zeros. -/
theorem eq_mul_two_pow_of_value {m m' : ℕ} {e e' : ℤ} (same : (m : ℝ) * 2 ^ e = m' * 2 ^ e') (le : e ≤ e') :
    ∃ k : ℕ, e' = e + k ∧ m = m' * 2 ^ k := by
  obtain ⟨k, rfl⟩ := Int.le.dest le
  have scale : (2 : ℝ) ^ e ≠ 0 := by positivity
  rw [zpow_add₀ two_ne_zero, zpow_natCast, mul_comm ((2 : ℝ) ^ e), ← mul_assoc] at same
  exact ⟨k, rfl, by exact_mod_cast mul_right_cancel₀ scale same⟩

/-- Two forms of one value are rounded alike. -/
theorem roundTo_congr {f : FFmt} (rm : ℕ) (s : Bool) {m m' : ℕ} {e e' : ℤ} (same : (m : ℝ) * 2 ^ e = m' * 2 ^ e') :
    roundTo f rm s m e = roundTo f rm s m' e' := by
  obtain le | le := le_total e e'
  · obtain ⟨k, rfl, rfl⟩ := eq_mul_two_pow_of_value same le
    exact roundTo_mul_two_pow rm s e k
  · obtain ⟨k, rfl, rfl⟩ := eq_mul_two_pow_of_value same.symm le
    exact (roundTo_mul_two_pow rm s e' k).symm

theorem topExp_congr {m m' : ℕ} {e e' : ℤ} (same : (m : ℝ) * 2 ^ e = m' * 2 ^ e') (ne : m ≠ 0) (ne' : m' ≠ 0) :
    topExp m e = topExp m' e' := by
  obtain le | le := le_total e e'
  · obtain ⟨k, rfl, rfl⟩ := eq_mul_two_pow_of_value same le
    exact topExp_mul_two_pow e k ne'
  · obtain ⟨k, rfl, rfl⟩ := eq_mul_two_pow_of_value same.symm le
    exact (topExp_mul_two_pow e' k ne).symm

/-! ### Whole units of 2^-400 -/

/-- A finite datum in units of 2^-400; anything else counts as zero. -/
def units (v : FVal) : ℤ :=
  match v with
  | .fin z m e => (if z then -1 else 1) * ((m * 2 ^ (e + 400).toNat : ℕ) : ℤ)
  | _ => 0

theorem units_fin (s : Bool) (m : ℕ) {e : ℤ} (fine : -400 ≤ e) :
    (units (.fin s m e) : ℝ) = sgn s * (m * 2 ^ e) * 2 ^ (400 : ℤ) := by
  have scale : (2 : ℝ) ^ (e + 400).toNat = 2 ^ e * 2 ^ (400 : ℤ) := by
    rw [← zpow_natCast, Int.toNat_of_nonneg (by omega), zpow_add₀ two_ne_zero]
  simp only [units]
  push_cast
  rw [scale]
  cases s
  · simp [sgn, mul_assoc]
  · simp [sgn, mul_assoc]

/-- The size of a value in units of 2^-400. -/
theorem units_lt_iff {m : ℕ} {e : ℤ} (k : ℕ) (ne : m ≠ 0) (fine : -400 ≤ e) :
    m * 2 ^ (e + 400).toNat < 2 ^ k ↔ topExp m e < k - 400 := by
  rw [← Nat.log2_lt (by positivity), log2_mul_two_pow _ ne, topExp]
  omega

theorem units_zero (s : Bool) (e : ℤ) : units (.fin s 0 e) = 0 := by simp [units]

theorem proper_b32 : b32.Proper := proper_of_long (by simp)

theorem unpack_b32_range {x : ℕ} {s : Bool} {m : ℕ} {e : ℤ} (h : unpack b32 x = .fin s m e) : m < 2 ^ 24 ∧ -149 ≤ e := by
  obtain ⟨small, low, -, -⟩ := unpack_fin_range proper_b32 h
  exact ⟨small, low⟩

/-! ### Values that binary32 holds -/

/-- A normal number of 24 bits is written exactly. -/
theorem roundTo_b32_exact (rm : ℕ) (s : Bool) {c : ℕ} {g : ℤ} (ne : c ≠ 0) (bits : c < 2 ^ 24) (normal : -126 ≤ topExp c g)
    (top : topExp c g ≤ 127) : ∃ m e, unpack b32 (roundTo b32 rm s c g).1 = .fin s m e ∧ (m : ℝ) * 2 ^ e = c * 2 ^ g := by
  have log : Nat.log2 c ≤ 23 := Nat.le_of_lt_succ ((Nat.log2_lt ne).2 bits)
  unfold topExp at normal top
  have low : 2 ^ 23 ≤ c * 2 ^ (23 - Nat.log2 c) := by
    calc 2 ^ 23 = 2 ^ Nat.log2 c * 2 ^ (23 - Nat.log2 c) := by rw [← pow_add]; congr 1; omega
      _ ≤ _ := Nat.mul_le_mul_right _ (Nat.log2_self_le ne)
  have high : c * 2 ^ (23 - Nat.log2 c) < 2 ^ 24 := by
    calc c * 2 ^ (23 - Nat.log2 c) < 2 ^ (Nat.log2 c + 1) * 2 ^ (23 - Nat.log2 c) :=
          Nat.mul_lt_mul_of_pos_right Nat.lt_log2_self (Nat.two_pow_pos _)
      _ = 2 ^ 24 := by rw [← pow_add]; congr 1; omega
  obtain ⟨fr, hfr⟩ := Nat.exists_eq_add_of_le low
  have frac : fr < 2 ^ b32.mb := by show fr < 2 ^ 23; omega
  have exp : (Nat.log2 c + g + 127).toNat < 2 ^ b32.eb - 1 := by show _ < 255; omega
  have un := unpack_normal (f := b32) (s := s) (ex := (Nat.log2 c + g + 127).toNat) (by omega) exp frac
  have scale : g = ((Nat.log2 c + g + 127).toNat : ℤ) - fBias b32 - b32.mb + (23 - Nat.log2 c : ℕ) := by
    show g = _ - 127 - 23 + _
    omega
  have value : ((2 ^ b32.mb + fr : ℕ) : ℝ) * 2 ^ (((Nat.log2 c + g + 127).toNat : ℤ) - fBias b32 - b32.mb) = c * 2 ^ g := by
    rw [show 2 ^ b32.mb + fr = c * 2 ^ (23 - Nat.log2 c) from hfr.symm]
    conv_rhs => rw [scale, zpow_add₀ two_ne_zero, zpow_natCast]
    push_cast
    ring
  refine ⟨_, _, ?_, value⟩
  rw [← roundTo_congr rm s value, roundTo_unpack proper_b32 rm (fPattern_lt (by omega) frac) un, un]

/-- What `exact32` writes, in units of 2^-400: the value itself, or zero for one below the normal numbers. -/
theorem units_exact32 {n base c g : ℤ} (same : (n : ℝ) * 2 ^ base = c * 2 ^ g) (bits : c.natAbs < 2 ^ 24) (low : -400 ≤ g)
    (high : g ≤ 104) : units (unpack b32 (exact32 n base).1) =
      if (c * 2 ^ (g + 400).toNat).natAbs < 2 ^ 274 then 0 else c * 2 ^ (g + 400).toNat := by
  have scale : ∀ e : ℤ, (0 : ℝ) < 2 ^ e := fun e => by positivity
  have zero : n = 0 ↔ c = 0 := by
    rw [← Int.cast_eq_zero (α := ℝ), ← mul_eq_zero_iff_right (scale base).ne', same, mul_eq_zero_iff_right (scale g).ne',
      Int.cast_eq_zero]
  have negative : ∀ t e : ℤ, t < 0 ↔ (t : ℝ) * 2 ^ e < 0 := fun t e => by simp [mul_neg_iff, scale e, (scale e).not_gt]
  have sign : n < 0 ↔ c < 0 := by rw [negative n base, same, ← negative c g]
  have magnitude : (n.natAbs : ℝ) * 2 ^ base = c.natAbs * 2 ^ g := by
    rw [Nat.cast_natAbs, Nat.cast_natAbs, Int.cast_abs, Int.cast_abs, ← abs_of_pos (scale base), ← abs_of_pos (scale g), ← abs_mul,
      ← abs_mul, same]
  by_cases none : c = 0
  · rw [exact32, if_pos (zero.2 none), none, zero_mul, Int.natAbs_zero, if_pos (by positivity)]
    decide
  · have some : n ≠ 0 := mt zero.1 none
    have ne := Int.natAbs_ne_zero.2 none
    have ne' := Int.natAbs_ne_zero.2 some
    have small : (c * 2 ^ (g + 400).toNat).natAbs < 2 ^ 274 ↔ topExp c.natAbs g < -126 := by
      rw [Int.natAbs_mul, Int.natAbs_pow]
      exact units_lt_iff 274 ne low
    rw [exact32, if_neg some, belowNormal, topExp_congr magnitude ne' ne, decide_eq_true ne', Bool.true_and]
    simp only [decide_eq_true_eq, small, sign]
    split
    · rw [unpack_fZero proper_b32, units_zero]
    · rename_i normal
      have log : Nat.log2 c.natAbs < 24 := (Nat.log2_lt ne).2 bits
      obtain ⟨m, e, un, value⟩ := roundTo_b32_exact 0 (decide (c < 0)) ne bits (not_lt.1 normal) (by unfold topExp; omega)
      rw [roundTo_congr 0 _ magnitude, un, ← Int.cast_inj (α := ℝ), units_fin _ _ (by have := (unpack_b32_range un).2; omega), value,
        ← mul_assoc, sgn_natAbs, mul_assoc, ← zpow_add₀ two_ne_zero]
      push_cast
      rw [← zpow_natCast, Int.toNat_of_nonneg (by omega)]

end Sys2Proof.Machine
end

section
/-! The pair of words that stands for the sum of an adder tree: the sum rounded, and what is left of it (03 R62). -/

namespace Sys2Proof.Machine

theorem unpack_fInf_b32 (s : Bool) : unpack b32 (fInf b32 s) = .inf s := by
  cases s <;> decide

theorem flush32_of_not_finite {x : ℕ} (h : isFinite b32 x = false) : flush32 x = (x, {}) := by
  have normal : isSub b32 x = false := by
    rw [isSub, Bool.and_eq_false_iff]
    refine .inl (decide_eq_false fun zero => ?_)
    have un : unpack b32 x = .fin (decide (x / 2 ^ (b32.eb + b32.mb) % 2 = 1)) (x % 2 ^ b32.mb) (fEmin b32 - b32.mb) := by
      simp only [unpack, zero]
      rfl
    rw [isFinite_of_unpack un] at h
    exact nomatch h
  rw [flush32, normal]
  rfl

section
variable {n g : ℤ}

/-- What is left of n · 2^g, n of at most 32 bits, after rounding it to binary32 is a whole number of units of 2^g, of 24 bits. -/
theorem remainder_of_near (size : n.natAbs ≤ 2 ^ 31) (low : -150 ≤ g) {s : Bool} {m : ℕ} {e : ℤ}
    (un : unpack b32 (roundTo b32 0 (decide (n < 0)) n.natAbs g).1 = .fin s m e) :
    ∃ c : ℤ, c.natAbs < 2 ^ 24 ∧ (n : ℝ) * 2 ^ g - sgn s * (m * 2 ^ e) = c * 2 ^ g := by
  by_cases zero : n = 0
  · rw [zero, Int.natAbs_zero, roundTo, if_pos rfl, unpack_fZero proper_b32] at un
    obtain ⟨-, rfl, -⟩ := FVal.fin.inj un
    exact ⟨0, by decide, by simp [zero]⟩
  · have ne := Int.natAbs_ne_zero.2 zero
    have h := fRounds_of_stands proper_b32 0 (decide (n < 0)) ne (e := g) (.inl rfl) (.inl rfl)
    have fits : ¬ FPast b32 0 (decide (n < 0)) n.natAbs g := fun past => by
      rw [h.roundTo_past proper_b32 ne past] at un
      exact nomatch (unpack_fInf_b32 _).symm.trans un
    obtain ⟨x, m', e', result, -, un', value, -⟩ := h.roundTo_fits proper_b32 ne fits
    rw [result] at un
    obtain ⟨rfl, rfl, rfl⟩ := FVal.fin.inj (un'.symm.trans un)
    have log : Nat.log2 n.natAbs < 32 := (Nat.log2_lt ne).2 (by omega)
    have half := h.rounds.1
    have fine : fQuantum b32 (topExp n.natAbs g) ≤ g + 8 := by
      unfold fQuantum topExp
      show (if _ < (-126 : ℤ) then (-126 : ℤ) else _) - 23 ≤ g + 8
      split <;> omega
    obtain ⟨N, hN⟩ : ∃ N, N = (fQuanta b32 0 (decide (n < 0)) n.natAbs g).1 := ⟨_, rfl⟩
    rw [← hN] at half value
    rw [fQuanta] at hN
    generalize fQuantum b32 (topExp n.natAbs g) = q at *
    rw [value, ← sgn_natAbs n, mul_assoc, ← mul_sub]
    obtain le | lt := le_or_gt q g
    · rw [hN, roundQuantum, if_pos le, align_scale le]
      exact ⟨0, by decide, by simp⟩
    · obtain ⟨k, rfl⟩ := Int.le.dest lt.le
      have unit : (0 : ℝ) < 2 ^ g := by positivity
      have width : (0 : ℝ) < 2 ^ k := by positivity
      have small : (2 : ℝ) ^ k ≤ 2 ^ 8 := pow_le_pow_right₀ one_le_two (by omega)
      have scale : (2 : ℝ) ^ (g + k) = 2 ^ k * 2 ^ g := by rw [zpow_add₀ two_ne_zero, zpow_natCast, mul_comm]
      have apart : |(N : ℝ) * 2 ^ k - n.natAbs| ≤ 2 ^ k / 2 := by
        rw [scale, mul_div_mul_right _ _ unit.ne'] at half
        have := mul_le_mul_of_nonneg_right half width.le
        rw [← abs_of_pos width, ← abs_mul, abs_of_pos width, sub_mul, div_mul_cancel₀ _ width.ne'] at this
        linarith
      refine ⟨(if n < 0 then -1 else 1) * (n.natAbs - N * 2 ^ k : ℤ), ?_, ?_⟩
      · have bound : |((n.natAbs - N * 2 ^ k : ℤ) : ℝ)| < 2 ^ 24 := by
          rw [abs_sub_comm] at apart
          simp only [Int.cast_sub, Int.cast_mul, Int.cast_pow, Int.cast_natCast, Int.cast_ofNat]
          linarith
        rw [Int.natAbs_mul, show (if n < 0 then -1 else 1 : ℤ).natAbs = 1 by split <;> rfl, one_mul]
        rw [← Int.cast_abs, Int.abs_eq_natAbs] at bound
        exact_mod_cast bound
      · rw [scale]
        by_cases neg : n < 0
        · simp [sgn, neg]; ring
        · simp [sgn, neg]; ring

theorem treePair_not_finite (h : isFinite b32 (roundTo b32 0 (decide (n < 0)) n.natAbs g).1 = false) :
    (treePair n g).1 = (roundTo b32 0 (decide (n < 0)) n.natAbs g).1 ∧ (treePair n g).2.1 = 0 := by
  cases un : unpack b32 (roundTo b32 0 (decide (n < 0)) n.natAbs g).1 with
  | nan sig => simp only [treePair, un, and_self]
  | inf s => simp only [treePair, un, and_self]
  | fin s m e => rw [isFinite_of_unpack un] at h; exact nomatch h

/-- The high word is the sum rounded, flushed; the low word is exactly what is left, flushed. -/
theorem treePair_finite (size : n.natAbs ≤ 2 ^ 31) (low : -150 ≤ g) (high : g ≤ 104) {s : Bool} {m : ℕ} {e : ℤ}
    (un : unpack b32 (roundTo b32 0 (decide (n < 0)) n.natAbs g).1 = .fin s m e) :
    (treePair n g).1 = (flush32 (roundTo b32 0 (decide (n < 0)) n.natAbs g).1).1 ∧
      units (unpack b32 (treePair n g).2.1) =
        if (n * 2 ^ (g + 400).toNat - units (.fin s m e)).natAbs < 2 ^ 274 then 0
        else n * 2 ^ (g + 400).toNat - units (.fin s m e) := by
  obtain ⟨c, bits, rest⟩ := remainder_of_near size low un
  have fine := (unpack_b32_range un).2
  obtain ⟨base, hbase, le_e, le_g⟩ : ∃ base, base = (if e ≤ g then e else g) ∧ base ≤ e ∧ base ≤ g :=
    ⟨_, rfl, by split <;> omega, by split <;> omega⟩
  have whole : n * 2 ^ (g + 400).toNat - units (.fin s m e) = c * 2 ^ (g + 400).toNat := by
    rw [← Int.cast_inj (α := ℝ)]
    push_cast
    rw [units_fin s m (by omega), ← zpow_natCast, Int.toNat_of_nonneg (by omega), zpow_add₀ two_ne_zero, ← mul_assoc, ← sub_mul,
      rest, mul_assoc]
  have same : ((n * (2 ^ (g - base).toNat : ℕ) - (if s then -1 else 1) * (m * 2 ^ (e - base).toNat : ℕ) : ℤ) : ℝ) * 2 ^ base =
      c * 2 ^ g := by
    rw [← rest, ← align_scale le_e]
    have scale : (2 : ℝ) ^ g = 2 ^ (g - base).toNat * 2 ^ base := by
      rw [← zpow_natCast, ← zpow_add₀ two_ne_zero]
      congr 1
      omega
    rw [scale]
    cases s
    · simp [sgn]; ring
    · simp [sgn]; ring
  rw [whole, ← units_exact32 same bits (by omega) high]
  simp only [treePair, un, ← hbase]
  exact ⟨trivial, trivial⟩

end

end Sys2Proof.Machine
end

section
/-! The adder tree (03 R58, R61, R62, R66): its products in units of 2^-400, the largest of them, and their sum cut to its grid. -/

namespace Sys2Proof.Machine

/-! ### A scaled product (R61) -/

/-- A product with no value: a no-number among its operands, or a scale byte without one. -/
def noProduct (x : TOp × TOp) : Prop := valIsNaN x.1.v ∨ valIsNaN x.2.v ∨ x.1.k = 255 ∨ x.2.k = 255

def productNeg (x : TOp × TOp) : Bool :=
  match x.1.v, x.2.v with
  | .fin z1 _ _, .fin z2 _ _ => z1 != z2
  | _, _ => false

/-- The exact product in units of 2^-400. -/
def productUnits (x : TOp × TOp) : ℤ :=
  match x.1.v, x.2.v with
  | .fin z1 m1 e1, .fin z2 m2 e2 => units (.fin (z1 != z2) (m1 * m2) (e1 + e2 + x.1.k + x.2.k - 254))
  | _, _ => 0

/-- The product once one below the normal numbers is flushed. -/
def flushedUnits (x : TOp × TOp) : ℤ := if (productUnits x).natAbs < 2 ^ 274 then 0 else productUnits x

/-- An operand of a product: a code of a short format. -/
def IsShort (v : FVal) : Prop := ∃ f ∈ [NFmt.v8, NFmt.g8], ∃ k : ℕ, k < 256 ∧ v = shortVal f k

theorem isShort_cases {v : FVal} (h : IsShort v) : v = .nan false ∨ ∃ s m e, v = .fin s m e ∧ -18 ≤ e := by
  obtain ⟨f, mem, k, -, rfl⟩ := h
  simp only [List.mem_cons, List.not_mem_nil, or_false] at mem
  have low : ∀ q : ℕ, -18 ≤ (q : ℤ) - shortBias f - shortMant f := fun q => by
    obtain rfl | rfl := mem
    · show -18 ≤ (q : ℤ) - 8 - 3
      omega
    · show -18 ≤ (q : ℤ) - 16 - 2
      omega
  simp only [shortVal]
  split
  · exact .inl rfl
  · split
    · exact .inr ⟨_, _, _, rfl, by decide⟩
    · exact .inr ⟨_, _, _, rfl, low _⟩

theorem natAbs_units (s : Bool) (m : ℕ) (e : ℤ) : (units (.fin s m e)).natAbs = m * 2 ^ (e + 400).toNat := by
  simp only [units, Int.natAbs_mul, Int.natAbs_natCast]
  cases s <;> simp

theorem units_eq_zero_iff {s : Bool} {m : ℕ} {e : ℤ} : units (.fin s m e) = 0 ↔ m = 0 := by
  rw [← Int.natAbs_eq_zero, natAbs_units, Nat.mul_eq_zero]
  exact or_iff_left (Nat.two_pow_pos _).ne'

theorem units_neg_iff {s : Bool} {m : ℕ} {e : ℤ} (ne : m ≠ 0) : units (.fin s m e) < 0 ↔ s = true := by
  have pos : (0 : ℤ) < (m * 2 ^ (e + 400).toNat : ℕ) := by positivity
  cases s
  · simp only [units, Bool.false_eq_true, if_false, one_mul, iff_false]
    omega
  · simp only [units, if_true, neg_one_mul, iff_true]
    omega

section
variable {x : TOp × TOp} (left : IsShort x.1.v) (right : IsShort x.2.v)
include left right

/-- What a product of short operands is: its exact value, unless that is flushed or beyond the range. -/
theorem treeProduct_cases (number : ¬ noProduct x) : ∃ z m e, -400 ≤ e ∧ productNeg x = z ∧ productUnits x = units (.fin z m e) ∧
    (((productUnits x).natAbs < 2 ^ 274 ∧ (treeProduct x.1 x.2).1 = .fin z 0 0) ∨
      (m ≠ 0 ∧ 2 ^ 274 ≤ (productUnits x).natAbs ∧ (productUnits x).natAbs < 2 ^ 528 ∧ (treeProduct x.1 x.2).1 = .fin z m e) ∨
      (m ≠ 0 ∧ 2 ^ 528 ≤ (productUnits x).natAbs ∧ (treeProduct x.1 x.2).1 = .inf z)) := by
  unfold noProduct at number
  push Not at number
  obtain ⟨num₁, num₂, k₁, k₂⟩ := number
  obtain no | ⟨z₁, m₁, e₁, v₁, low₁⟩ := isShort_cases left
  · rw [no] at num₁; exact absurd rfl num₁
  obtain no | ⟨z₂, m₂, e₂, v₂, low₂⟩ := isShort_cases right
  · rw [no] at num₂; exact absurd rfl num₂
  have value : productUnits x = units (.fin (z₁ != z₂) (m₁ * m₂) (e₁ + e₂ + x.1.k + x.2.k - 254)) := by
    simp only [productUnits, v₁, v₂]
  refine ⟨z₁ != z₂, m₁ * m₂, e₁ + e₂ + x.1.k + x.2.k - 254, by omega, by simp only [productNeg, v₁, v₂], value, ?_⟩
  have scales : ¬ (x.1.k = 255 ∨ x.2.k = 255) := by omega
  have fine : -400 ≤ e₁ + e₂ + x.1.k + x.2.k - 254 := by omega
  rw [value, natAbs_units]
  simp only [treeProduct, if_neg scales, v₁, v₂]
  generalize m₁ * m₂ = m, e₁ + e₂ + (x.1.k : ℤ) + x.2.k - 254 = e at *
  by_cases zero : m = 0
  · rw [if_pos zero, zero, zero_mul]
    exact .inl ⟨by positivity, rfl⟩
  · have least := units_lt_iff 274 zero fine
    have past := units_lt_iff 528 zero fine
    rw [if_neg zero]
    by_cases small : topExp m e < -126
    · rw [if_pos small]
      exact .inl ⟨least.2 small, rfl⟩
    · have small' := mt least.1 small
      rw [if_neg small]
      by_cases large : topExp m e ≥ 128
      · rw [if_pos large]
        exact .inr (.inr ⟨zero, not_lt.1 (mt past.1 (not_lt.2 large)), rfl⟩)
      · rw [if_neg large]
        exact .inr (.inl ⟨zero, not_lt.1 small', past.2 (not_le.1 large), rfl⟩)

theorem treeProduct_nan_iff : valIsNaN (treeProduct x.1 x.2).1 = true ↔ noProduct x := by
  constructor
  · intro nan
    by_contra number
    obtain ⟨z, m, e, -, -, -, ⟨-, v⟩ | ⟨-, -, -, v⟩ | ⟨-, -, v⟩⟩ := treeProduct_cases left right number <;>
      exact nomatch (congrArg valIsNaN v).symm.trans nan
  · intro none
    unfold treeProduct
    by_cases scales : x.1.k = 255 ∨ x.2.k = 255
    · rw [if_pos scales]; rfl
    · rw [if_neg scales]
      obtain nan | nan | scale := none
      · cases h : x.1.v <;> simp_all [valIsNaN]
      · cases h : x.1.v <;> cases h' : x.2.v <;> simp_all [valIsNaN]
      · exact absurd scale scales

theorem treeProduct_inf_iff (number : ¬ noProduct x) :
    (valIsInf false (treeProduct x.1 x.2).1 = true ↔ 2 ^ 528 ≤ productUnits x) ∧
      (valIsInf true (treeProduct x.1 x.2).1 = true ↔ productUnits x ≤ -2 ^ 528) := by
  obtain ⟨z, m, e, -, -, value, ⟨small, v⟩ | ⟨-, -, small, v⟩ | ⟨ne, large, v⟩⟩ := treeProduct_cases left right number
  · simp only [v, valIsInf, Bool.false_eq_true, false_iff]
    omega
  · simp only [v, valIsInf, Bool.false_eq_true, false_iff]
    omega
  · have sign := units_neg_iff (s := z) (e := e) ne
    rw [← value] at sign
    simp only [v, valIsInf, beq_iff_eq]
    cases z
    · simp only [Bool.false_eq_true, iff_false] at sign
      simp only [Bool.false_eq_true, true_iff, false_iff]
      omega
    · simp only [iff_true] at sign
      simp only [Bool.true_eq_false, true_iff, false_iff]
      omega

/-- A product in range is a number, with the value that flushing leaves; a zero is written with exponent 0. -/
theorem treeProduct_finite (number : ¬ noProduct x) (range : (productUnits x).natAbs < 2 ^ 528) :
    ∃ z m e, (treeProduct x.1 x.2).1 = .fin z m e ∧ -400 ≤ e ∧ units (.fin z m e) = flushedUnits x ∧ z = productNeg x ∧
      (m = 0 → e = 0) := by
  unfold flushedUnits
  obtain ⟨z, m, e, fine, neg, value, ⟨small, v⟩ | ⟨ne, large, -, v⟩ | ⟨-, large, v⟩⟩ := treeProduct_cases left right number
  · exact ⟨z, 0, 0, v, by decide, by rw [if_pos small, units_zero], neg.symm, fun _ => rfl⟩
  · exact ⟨z, m, e, v, fine, by rw [if_neg (not_lt.2 large), value], neg.symm, fun zero => absurd zero ne⟩
  · exact absurd large (not_le.2 range)

end

/-! ### The sum of the products (R62) -/

theorem treeProducts_eq (ops : List (TOp × TOp)) : (treeProducts ops).1 = ops.map fun x => (treeProduct x.1 x.2).1 := by
  induction ops with
  | nil => rfl
  | cons x ops ih => rw [treeProducts, List.map_cons, ih]

/-- `treeTop` is the largest exponent of the nonzero numbers. -/
theorem treeTop_spec (ps : List FVal) :
    (treeTop ps = none ∧ ∀ s m e, FVal.fin s m e ∈ ps → m = 0) ∨
      ∃ t, treeTop ps = some t ∧ (∃ s m e, FVal.fin s m e ∈ ps ∧ m ≠ 0 ∧ topExp m e = t) ∧
        ∀ s m e, FVal.fin s m e ∈ ps → m ≠ 0 → topExp m e ≤ t := by
  induction ps with
  | nil => exact .inl ⟨rfl, fun _ _ _ none => absurd none List.not_mem_nil⟩
  | cons v ps ih =>
    cases v with
    | nan sig => simpa [treeTop] using ih
    | inf s => simpa [treeTop] using ih
    | fin s m e =>
      simp only [List.mem_cons, FVal.fin.injEq, treeTop]
      by_cases zero : m = 0
      · obtain ⟨top, zeros⟩ | ⟨t, top, ⟨s', m', e', mem, some⟩, most⟩ := ih
        · refine .inl ⟨by rw [if_pos zero, top], ?_⟩
          rintro s' m' e' (⟨-, rfl, -⟩ | mem)
          · exact zero
          · exact zeros _ _ _ mem
        · refine .inr ⟨t, by rw [if_pos zero, top], ⟨s', m', e', .inr mem, some⟩, ?_⟩
          rintro s' m' e' (⟨-, rfl, -⟩ | mem) ne
          · exact absurd zero ne
          · exact most _ _ _ mem ne
      · refine .inr ?_
        obtain ⟨top, zeros⟩ | ⟨t, top, ⟨s', m', e', mem, some⟩, most⟩ := ih
        · refine ⟨topExp m e, by rw [if_neg zero, top], ⟨s, m, e, .inl ⟨rfl, rfl, rfl⟩, zero, rfl⟩, ?_⟩
          rintro s' m' e' (⟨-, rfl, rfl⟩ | mem) ne
          · exact le_rfl
          · exact absurd (zeros _ _ _ mem) ne
        · refine ⟨max t (topExp m e), by rw [if_neg zero, top], ?_, ?_⟩
          · obtain le | le := le_total t (topExp m e)
            · exact ⟨s, m, e, .inl ⟨rfl, rfl, rfl⟩, zero, (max_eq_right le).symm⟩
            · exact ⟨s', m', e', .inr mem, some.1, some.2.trans (max_eq_left le).symm⟩
          · rintro s' m' e' (⟨-, rfl, rfl⟩ | mem) ne
            · exact le_max_right _ _
            · exact (most _ _ _ mem ne).trans (le_max_left _ _)

/-- A number floored to whole units of the grid. -/
theorem floor_units (s : Bool) (m : ℕ) {e g : ℤ} (low : -400 ≤ g) (fine : -400 ≤ e) :
    (if g ≤ e then (if s then -1 else 1) * ((m * 2 ^ (e - g).toNat : ℕ) : ℤ)
      else (if s then -(m : ℤ) else m) / ((2 ^ (g - e).toNat : ℕ) : ℤ)) = units (.fin s m e) / 2 ^ (g + 400).toNat := by
  have signed : units (.fin s m e) = (if s then -(m : ℤ) else m) * 2 ^ (e + 400).toNat := by
    cases s <;> simp [units]
  rw [signed]
  split
  · rename_i le
    have exp : (e + 400).toNat = (e - g).toNat + (g + 400).toNat := by omega
    rw [exp, pow_add, ← mul_assoc, Int.mul_ediv_cancel _ (by positivity)]
    cases s <;> simp
  · rename_i gt
    have exp : (g + 400).toNat = (g - e).toNat + (e + 400).toNat := by omega
    rw [exp, pow_add, Int.mul_ediv_mul_of_pos_left _ _ (by positivity)]
    simp

/-- `treeFloor` sums the products in whole units of the grid. -/
theorem treeFloor_eq {g : ℤ} (low : -400 ≤ g) {ps : List FVal} (fine : ∀ s m e, FVal.fin s m e ∈ ps → -400 ≤ e) :
    treeFloor g ps = (ps.map fun v => units v / 2 ^ (g + 400).toNat).sum := by
  induction ps with
  | nil => rfl
  | cons v ps ih =>
    have rest := ih fun s m e mem => fine s m e (List.mem_cons_of_mem _ mem)
    cases v with
    | nan sig => simpa [treeFloor, units] using rest
    | inf s => simpa [treeFloor, units] using rest
    | fin s m e =>
      have own := floor_units s m low (fine s m e List.mem_cons_self)
      simp only [treeFloor, List.map_cons, List.sum_cons, rest, ← own]

theorem natAbs_sum_le {l : List ℤ} {b : ℕ} (h : ∀ x ∈ l, x.natAbs ≤ b) : l.sum.natAbs ≤ l.length * b := by
  induction l with
  | nil => simp
  | cons x l ih =>
    rw [List.forall_mem_cons] at h
    rw [List.sum_cons, List.length_cons, Nat.succ_mul]
    have := ih h.2
    have := Int.natAbs_add_le x l.sum
    omega

end Sys2Proof.Machine
end

section
/-! The tree sum as a pair of words (03 R61, R62). -/

namespace Sys2Proof.Machine

section
variable {ops : List (TOp × TOp)} (short : ∀ x ∈ ops, IsShort x.1.v ∧ IsShort x.2.v)
include short

theorem any_nan_iff : ((treeProducts ops).1.any valIsNaN) = true ↔ ∃ x ∈ ops, noProduct x := by
  rw [treeProducts_eq, List.any_map, List.any_eq_true]
  exact exists_congr fun x => and_congr_right fun mem => treeProduct_nan_iff (short x mem).1 (short x mem).2

/-- A product without a value. -/
theorem treeSum_nan (none : ∃ x ∈ ops, noProduct x) : (treeSum ops).1 = 0x7FC00000 ∧ (treeSum ops).2.1 = 0 := by
  simp only [treeSum, if_pos ((any_nan_iff short).2 none)]
  exact ⟨fNaN_b32, trivial⟩

section
variable (numbers : ∀ x ∈ ops, ¬ noProduct x)
include numbers

theorem any_nan_false : ¬ ((treeProducts ops).1.any valIsNaN) = true := by
  rw [any_nan_iff short]
  rintro ⟨x, mem, none⟩
  exact numbers x mem none

theorem any_inf_iff : ((treeProducts ops).1.any (valIsInf false) = true ↔ ∃ x ∈ ops, 2 ^ 528 ≤ productUnits x) ∧
    ((treeProducts ops).1.any (valIsInf true) = true ↔ ∃ x ∈ ops, productUnits x ≤ -2 ^ 528) := by
  have inf := fun x mem => treeProduct_inf_iff (short x mem).1 (short x mem).2 (numbers x mem)
  rw [treeProducts_eq, List.any_map, List.any_eq_true, List.any_map, List.any_eq_true]
  exact ⟨exists_congr fun x => and_congr_right fun mem => (inf x mem).1,
    exists_congr fun x => and_congr_right fun mem => (inf x mem).2⟩

/-- Overflows of opposite signs. -/
theorem treeSum_opposite (plus : ∃ x ∈ ops, 2 ^ 528 ≤ productUnits x) (minus : ∃ x ∈ ops, productUnits x ≤ -2 ^ 528) :
    (treeSum ops).1 = 0x7FC00000 ∧ (treeSum ops).2.1 = 0 := by
  obtain ⟨pinf, ninf⟩ := any_inf_iff short numbers
  simp only [treeSum, if_neg (any_nan_false short numbers), pinf.2 plus, ninf.2 minus, Bool.and_self, if_true]
  exact ⟨fNaN_b32, trivial⟩

theorem treeSum_plus (plus : ∃ x ∈ ops, 2 ^ 528 ≤ productUnits x) (above : ∀ x ∈ ops, -2 ^ 528 < productUnits x) :
    (treeSum ops).1 = 0x7F800000 ∧ (treeSum ops).2.1 = 0 := by
  obtain ⟨pinf, ninf⟩ := any_inf_iff short numbers
  have no : (treeProducts ops).1.any (valIsInf true) = false := by
    rw [Bool.eq_false_iff, ne_eq, ninf]
    rintro ⟨x, mem, le⟩
    exact absurd (above x mem) (not_lt.2 le)
  simp only [treeSum, if_neg (any_nan_false short numbers), pinf.2 plus, no, Bool.and_false, Bool.false_eq_true, if_false, if_true]
  exact ⟨rfl, trivial⟩

theorem treeSum_minus (below : ∀ x ∈ ops, productUnits x < 2 ^ 528) (minus : ∃ x ∈ ops, productUnits x ≤ -2 ^ 528) :
    (treeSum ops).1 = 0xFF800000 ∧ (treeSum ops).2.1 = 0 := by
  obtain ⟨pinf, ninf⟩ := any_inf_iff short numbers
  have no : (treeProducts ops).1.any (valIsInf false) = false := by
    rw [Bool.eq_false_iff, ne_eq, pinf]
    rintro ⟨x, mem, le⟩
    exact absurd (below x mem) (not_lt.2 le)
  simp only [treeSum, if_neg (any_nan_false short numbers), ninf.2 minus, no, Bool.false_and, Bool.false_eq_true, if_false, if_true]
  exact ⟨rfl, trivial⟩

section
variable (range : ∀ x ∈ ops, (productUnits x).natAbs < 2 ^ 528)
include range

/-- With every product in range the sum is that of the products on the grid of the largest. -/
theorem treeSum_finite : (treeSum ops).1 = (match treeTop (treeProducts ops).1 with
      | none => fZero b32 ((treeProducts ops).1.all (fun v => decide (v = .fin true 0 0)))
      | some E => (treePair (treeFloor (E - 24) (treeProducts ops).1) (E - 24)).1) ∧
    (treeSum ops).2.1 = (match treeTop (treeProducts ops).1 with
      | none => 0
      | some E => (treePair (treeFloor (E - 24) (treeProducts ops).1) (E - 24)).2.1) := by
  obtain ⟨pinf, ninf⟩ := any_inf_iff short numbers
  have noPlus : (treeProducts ops).1.any (valIsInf false) = false := by
    rw [Bool.eq_false_iff, ne_eq, pinf]
    rintro ⟨x, mem, le⟩
    have := range x mem
    omega
  have noMinus : (treeProducts ops).1.any (valIsInf true) = false := by
    rw [Bool.eq_false_iff, ne_eq, ninf]
    rintro ⟨x, mem, le⟩
    have := range x mem
    omega
  simp only [treeSum, if_neg (any_nan_false short numbers), noPlus, noMinus, Bool.false_and, Bool.false_eq_true, if_false]
  cases treeTop (treeProducts ops).1 <;> exact ⟨rfl, rfl⟩

/-- The numbers among the products are those of the operands. -/
theorem mem_treeProducts {s : Bool} {m : ℕ} {e : ℤ} (h : FVal.fin s m e ∈ (treeProducts ops).1) :
    -400 ≤ e ∧ ∃ x ∈ ops, units (.fin s m e) = flushedUnits x := by
  rw [treeProducts_eq] at h
  obtain ⟨x, mem, v⟩ := List.mem_map.1 h
  obtain ⟨z, m', e', v', fine, value, -⟩ := treeProduct_finite (short x mem).1 (short x mem).2 (numbers x mem) (range x mem)
  obtain ⟨rfl, rfl, rfl⟩ := FVal.fin.inj (v'.symm.trans v)
  exact ⟨fine, x, mem, value⟩

/-- Each operand's product is a number among the products. -/
theorem treeProducts_mem {x : TOp × TOp} (mem : x ∈ ops) : ∃ s m e, FVal.fin s m e ∈ (treeProducts ops).1 ∧
    units (.fin s m e) = flushedUnits x := by
  obtain ⟨z, m, e, v, -, value, -⟩ := treeProduct_finite (short x mem).1 (short x mem).2 (numbers x mem) (range x mem)
  exact ⟨z, m, e, by rw [treeProducts_eq, ← v]; exact List.mem_map_of_mem mem, value⟩

/-- Products that are all zero sum to a zero, negative when all of them are. -/
theorem treeSum_zero (zeros : ∀ x ∈ ops, flushedUnits x = 0) :
    (treeSum ops).1 = (if ∀ x ∈ ops, productNeg x = true then 0x80000000 else 0) ∧ (treeSum ops).2.1 = 0 := by
  obtain ⟨hi, lo⟩ := treeSum_finite short numbers range
  have top : treeTop (treeProducts ops).1 = none := by
    obtain ⟨top, -⟩ | ⟨t, -, ⟨s, m, e, mem, ne, -⟩, -⟩ := treeTop_spec (treeProducts ops).1
    · exact top
    · obtain ⟨-, x, mem, value⟩ := mem_treeProducts short numbers range mem
      exact absurd (units_eq_zero_iff.1 (value.trans (zeros x mem))) ne
  have signs : (treeProducts ops).1.all (fun v => decide (v = .fin true 0 0)) = decide (∀ x ∈ ops, productNeg x = true) := by
    rw [Bool.eq_iff_iff, decide_eq_true_iff, treeProducts_eq, List.all_map, List.all_eq_true]
    refine forall_congr' fun x => forall_congr' fun mem => ?_
    obtain ⟨z, m, e, v, -, value, sign, plain⟩ :=
      treeProduct_finite (short x mem).1 (short x mem).2 (numbers x mem) (range x mem)
    have none : m = 0 := units_eq_zero_iff.1 (value.trans (zeros x mem))
    simp [v, none, plain none, ← sign]
  rw [hi, lo, top]
  simp only [signs]
  refine ⟨?_, trivial⟩
  split
  · rename_i all
    rw [decide_eq_true all]
    decide
  · rename_i all
    rw [decide_eq_false all]
    decide

/-- The largest product fixes the grid. -/
theorem treeTop_eq {E : ℕ} (some_ : ∃ x ∈ ops, 2 ^ E ≤ (flushedUnits x).natAbs)
    (most : ∀ x ∈ ops, (flushedUnits x).natAbs < 2 ^ (E + 1)) : treeTop (treeProducts ops).1 = some ((E : ℤ) - 400) := by
  obtain ⟨x, mem, large⟩ := some_
  obtain ⟨s, m, e, mem', value⟩ := treeProducts_mem short numbers range mem
  have fine := (mem_treeProducts short numbers range mem').1
  rw [← value, natAbs_units] at large
  have ne : m ≠ 0 := by
    rintro rfl
    rw [zero_mul] at large
    exact absurd large (not_le.2 (Nat.two_pow_pos _))
  have le : (E : ℤ) - 400 ≤ topExp m e := not_lt.1 (mt (units_lt_iff E ne fine).2 (not_lt.2 large))
  obtain ⟨-, zeros⟩ | ⟨t, top, ⟨s', m', e', mem'', ne', reach⟩, bound⟩ := treeTop_spec (treeProducts ops).1
  · exact absurd (zeros s m e mem') ne
  · obtain ⟨fine', x', mem₂, value'⟩ := mem_treeProducts short numbers range mem''
    have small := most x' mem₂
    rw [← value', natAbs_units, units_lt_iff (E + 1) ne' fine', reach] at small
    have := bound s m e mem' ne
    rw [top]
    congr 1
    omega

/-- The products floored to the grid. -/
theorem treeFloor_ops {g : ℤ} (low : -400 ≤ g) : treeFloor g (treeProducts ops).1 =
    (ops.map fun x => flushedUnits x / 2 ^ (g + 400).toNat).sum := by
  rw [treeFloor_eq low (fun s m e mem => (mem_treeProducts short numbers range mem).1), treeProducts_eq, List.map_map]
  congr 1
  refine List.map_congr_left fun x mem => ?_
  obtain ⟨z, m, e, v, -, value, -⟩ := treeProduct_finite (short x mem).1 (short x mem).2 (numbers x mem) (range x mem)
  simp only [Function.comp_apply, v, value]

end
end
end

/-- The bounds that the formats set to the largest product. -/
theorem top_range {ops : List (TOp × TOp)} (range : ∀ x ∈ ops, (productUnits x).natAbs < 2 ^ 528) {E : ℕ}
    (some_ : ∃ x ∈ ops, 2 ^ E ≤ (flushedUnits x).natAbs)
    (most : ∀ x ∈ ops, (flushedUnits x).natAbs < 2 ^ (E + 1)) : 274 ≤ E ∧ E < 528 := by
  obtain ⟨x, mem, large⟩ := some_
  have small := most x mem
  have inRange := range x mem
  unfold flushedUnits at large small
  split at large
  · exact absurd large (not_le.2 (Nat.two_pow_pos _))
  · rename_i normal
    rw [if_neg normal] at small
    have low : 274 < E + 1 := (pow_lt_pow_iff_right₀ Nat.one_lt_two).1 ((not_lt.1 normal).trans_lt small)
    have high := (Nat.pow_lt_pow_iff_right Nat.one_lt_two).1 (large.trans_lt inRange)
    omega

/-- A number cut to a grid 24 binades below one has 25 bits there. -/
theorem natAbs_cut_le {q : ℤ} {E : ℕ} (h : q.natAbs < 2 ^ (E + 1)) (le : 24 ≤ E) : (q / 2 ^ (E - 24)).natAbs ≤ 2 ^ 25 := by
  have pos : (0 : ℤ) < 2 ^ (E - 24) := by positivity
  have exp : (2 : ℤ) ^ (E + 1) = 2 ^ 25 * 2 ^ (E - 24) := by rw [← pow_add]; congr 1; omega
  have size : |q| < 2 ^ (E + 1) := by rw [Int.abs_eq_natAbs]; exact_mod_cast h
  obtain ⟨low, high⟩ := abs_lt.1 size
  have upper : q / 2 ^ (E - 24) < 2 ^ 25 := Int.ediv_lt_of_lt_mul pos (by rwa [← exp])
  have lower : -2 ^ 25 ≤ q / 2 ^ (E - 24) := (Int.le_ediv_iff_mul_le pos).2 (by rw [neg_mul, ← exp]; exact low.le)
  omega

/-- The tree sum of products in range: their sum S on the grid of the largest, rounded, and exactly what is left of it. -/
theorem treeSum_pair {ops : List (TOp × TOp)} (short : ∀ x ∈ ops, IsShort x.1.v ∧ IsShort x.2.v) (few : ops.length ≤ 64)
    (numbers : ∀ x ∈ ops, ¬ noProduct x) (range : ∀ x ∈ ops, (productUnits x).natAbs < 2 ^ 528) {E : ℕ}
    (some_ : ∃ x ∈ ops, 2 ^ E ≤ (flushedUnits x).natAbs) (most : ∀ x ∈ ops, (flushedUnits x).natAbs < 2 ^ (E + 1)) {S : ℤ}
    (sum : S = (ops.map fun x => flushedUnits x / 2 ^ (E - 24) * 2 ^ (E - 24)).sum) {near : ℕ}
    (rounded : near = (roundTo b32 0 (decide (S < 0)) S.natAbs (-400)).1) :
    (treeSum ops).1 = (flush32 near).1 ∧
      (isFinite b32 near = true → units (unpack b32 (treeSum ops).2.1) =
        if (S - units (unpack b32 near)).natAbs < 2 ^ 274 then 0 else S - units (unpack b32 near)) ∧
      (isFinite b32 near = false → (treeSum ops).2.1 = 0) := by
  obtain ⟨hi, lo⟩ := treeSum_finite short numbers range
  obtain ⟨least, top⟩ := top_range range some_ most
  rw [treeTop_eq short numbers range some_ most] at hi lo
  obtain ⟨n, hn⟩ : ∃ n, n = treeFloor ((E : ℤ) - 400 - 24) (treeProducts ops).1 := ⟨_, rfl⟩
  have grid : ((E : ℤ) - 400 - 24 + 400).toNat = E - 24 := by omega
  have cut : n = (ops.map fun x => flushedUnits x / 2 ^ (E - 24)).sum := by
    rw [hn, treeFloor_ops short numbers range (by omega), grid]
  have whole : S = n * 2 ^ (E - 24) := by
    rw [sum, cut]
    exact List.sum_map_mul_right _ (fun x => flushedUnits x / 2 ^ (E - 24)) _
  have size : n.natAbs ≤ 2 ^ 31 := by
    have each : ∀ y ∈ ops.map fun x => flushedUnits x / 2 ^ (E - 24), y.natAbs ≤ 2 ^ 25 := by
      intro y hy
      obtain ⟨x, mem, rfl⟩ := List.mem_map.1 hy
      exact natAbs_cut_le (most x mem) (by omega)
    have total := natAbs_sum_le each
    rw [← cut, List.length_map] at total
    omega
  have near_eq : near = (roundTo b32 0 (decide (n < 0)) n.natAbs ((E : ℤ) - 400 - 24)).1 := by
    have pos : (0 : ℤ) < 2 ^ (E - 24) := by positivity
    have sign : S < 0 ↔ n < 0 := by rw [whole]; simp [mul_neg_iff, pos, pos.not_gt]
    have size : S.natAbs = n.natAbs * 2 ^ (E - 24) := by rw [whole, Int.natAbs_mul, Int.natAbs_pow]; rfl
    have exp : (-400 : ℤ) + (E - 24 : ℕ) = E - 400 - 24 := by omega
    rw [rounded, size, roundTo_mul_two_pow, exp]
    simp only [sign]
  simp only [← hn] at hi lo
  rw [hi, lo]
  by_cases finite : isFinite b32 near = true
  · obtain ⟨s, m, e, un⟩ := isFinite_iff.1 finite
    obtain ⟨high, low⟩ := treePair_finite size (by omega) (by omega) (near_eq ▸ un)
    rw [grid, ← whole] at low
    rw [un]
    exact ⟨by rw [high, near_eq], fun _ => low, fun infinite => nomatch infinite.symm.trans finite⟩
  · have infinite := Bool.eq_false_iff.2 finite
    obtain ⟨high, low⟩ := treePair_not_finite (n := n) (g := (E : ℤ) - 400 - 24) (by rw [← near_eq]; exact infinite)
    rw [flush32_of_not_finite infinite]
    exact ⟨by rw [high, near_eq], fun yes => absurd yes finite, fun _ => low⟩

end Sys2Proof.Machine
end

section
/-! The Tower's MUL and the Plinth's intake, assembled. -/

open Sys2Proof Sys2Proof.Machine in
/-- Settles O36: the Tower's MUL writes the pairs of `mulPairs` in order; the intake folds, holds or lets wait the pair at the head of
its port; the tree sum is its sum on the grid of the largest product, rounded, with what is left of it. -/
theorem towerAndIntake : Obligations.TowerAndIntake := by
  unfold Obligations.TowerAndIntake
  intro s d n whole err clearing v tw p
  have clean : vaultClean (cd s d) := ⟨err, clearing⟩
  refine ⟨fun u cmd => ?_, fun last l => ⟨nextTurn_filter last l, nextTurn_head last l⟩, fun tow x rest port => ?_,
    fun ops few operands => ?_, fun sum err hi lo => ?_⟩
  · -- MUL
    intro fin
    have refused : ∀ {st : Nat}, mulStatus s d n u = st → st ≠ 0 →
        exec (.towerMul d n) s = .next (setTower s d n (fin (BitVec.ofNat 8 st) 0)) := fun status bad =>
      execTowerMul_refused whole cmd status bad
    refine ⟨fun unlisted => refused (mulStatus_unlisted unlisted) (by decide), fun c fields => ?_⟩
    intro modes
    refine ⟨fun bad => refused (mulStatus_rejected fields bad) (by decide), fun ok mixed => ?_, fun ok alike clear mode => ?_,
      fun ok alike clear read => ?_, fun ok alike fit => ?_⟩
    · exact refused (mulStatus_mixed fields ok (by tauto)) (by decide)
    · exact refused (mulStatus_mode fields ok alike clear (Bool.eq_false_iff.2 (mt mulMode_iff.1 mode))) (by decide)
    · refine ⟨Config.freeWord s.free, ?_⟩
      rw [execTowerMul_runs cmd fields (mulStatus_ok fields ok alike (.inl clear)), ← towerWaits_eq whole, mulRun,
        if_pos (mulWaits_iff.2 ⟨clear, read⟩)]
    · intro byte a b ka kb tree counts pair p1
      have goes : mulWaits (plinth s d n) c = false := by
        rw [Bool.eq_false_iff, ne_eq, mulWaits_iff]
        rintro ⟨clear, r, le, lt, read⟩
        obtain ⟨-, none⟩ | ⟨no, -⟩ := fit
        · exact nomatch (none r le lt).symm.trans read
        · exact nomatch no.symm.trans clear
      have run := execTowerMul_runs cmd fields
        (mulStatus_ok fields ok alike (fit.imp And.left fun mode => mulMode_iff.2 mode.2))
      have trees : ∀ i, mulTree v c (i / (c.m * c.n)) (i / c.n % c.m) (i % c.n) = tree i := fun i => rfl
      have each : ∀ i, mulPair v c (i / (c.m * c.n)) (i / c.n % c.m) (i % c.n) =
          (pair i, if c.af = .i8 then ({} : Tally) else (tree i).2.2) := fun i => by
        by_cases int : c.af = .i8
        · rw [mulPair_int v _ _ _ int, if_pos int]
          simp only [pair, if_pos int]
          rfl
        · rw [mulPair_fp v _ _ _ int, if_neg int, trees]
          simp only [pair, if_neg int]
      have pairs : mulPairs v c = (upTo (c.nkb * (c.m * c.n))).map fun i =>
          (pair i, if c.af = .i8 then ({} : Tally) else (tree i).2.2) := by
        rw [mulPairs_eq]
        exact List.map_congr_left fun i _ => each i
      obtain ⟨flags, sat, flush⟩ := tallyAll_eq (mulPairs v c)
      have seconds : (mulPairs v c).map (·.2) = counts := by rw [pairs, List.map_map]; rfl
      have firsts : (mulPairs v c).map (·.1) = (upTo (c.nkb * (c.m * c.n))).map pair := by rw [pairs, List.map_map]; rfl
      rw [seconds] at flags sat flush
      rw [mulRun_clean whole clean cmd goes, flags, sat, flush, firsts] at run
      refine ⟨_, run, by rw [cd_putCd], by rw [cd_putCd], fun j => ?_, fun j => ?_⟩
      · simp only [plinth, cd_putCd, tabGet_tabSet]
        rfl
      · simp only [tower, cd_putCd, tabGet_tabSet]
        rfl
  · -- the intake of pairs
    intro q a cnt waits
    refine ⟨fun read => intake_waits whole port (.inl read), fun free later => ?_,
      fun free next last passed => intake_next_spoiled whole port free next last passed, fun free next last sound => ?_,
      fun free next => intake_next_frame whole port free next⟩
    · intro again
      refine ⟨fun full => intake_waits whole port (.inr ⟨later, full⟩), fun room once => ?_, fun room twice => ?_⟩
      · exact intake_held_once whole port free later room (mt pairAgain_iff.1 once)
      · exact intake_held_again whole port free later room (pairAgain_iff.2 twice)
    · refine ⟨fun int row => intake_next_int whole port free next last sound int row, fun fp row => ?_, fun other => ?_⟩
      · intro r
        rw [intake_next_own whole port free next last sound (fp.trans row.symm)]
        have fold : foldAcc a x = (⟨w32 r.1, w32 r.2.1, a.next + 1, cnt⟩, r.2.2) := by
          simp only [foldAcc, fp, Bool.false_eq_true, if_false]
          rfl
        rw [show foldAcc (acc (plinth s d n) x.idx) x = _ from fold]
        rfl
      · exact ⟨_, _, intake_next_other whole port free next last sound other⟩
  · -- the tree sum
    have short : ∀ x ∈ ops, IsShort x.1.v ∧ IsShort x.2.v := fun x mem => by
      obtain ⟨left, -, right, -⟩ := operands x mem
      exact ⟨left, right⟩
    intro exactOf none_ neg product q r
    refine ⟨fun none => treeSum_nan short none, fun numbers => ⟨fun plus minus => ?_, fun plus above => ?_, fun below minus => ?_,
      fun range => ⟨fun zeros => ?_, fun E some most => ?_⟩⟩⟩
    · exact treeSum_opposite short numbers plus minus
    · exact treeSum_plus short numbers plus above
    · exact treeSum_minus short numbers below minus
    · exact treeSum_zero short numbers range zeros
    · exact treeSum_pair short few numbers range some most rfl rfl
  · -- the fold
    intro add sub flush f z
    refine ⟨fun finite => ?_, fun infinite => foldWords_special infinite⟩
    intro b e
    obtain ⟨high, low, count⟩ := foldWords_finite (err := err) (lo := lo) finite
    obtain ⟨first, count₁⟩ := plErr_eq (x := twoSumErr z sum hi) (y := lo)
    obtain ⟨second, count₂⟩ := plErr_eq (x := err) (y := (plErr (twoSumErr z sum hi) lo).1)
    refine ⟨high, low.trans ?_, count.trans ?_⟩
    · rw [second, first]
      rfl
    · rw [count₁, count₂, first]
      rfl
end
